-- ==== Sys2Proof/Word.lean ====
section
/-! DEFINITION. Widths the manual uses (R9) and the unit-address type of R23. -/
namespace Sys2Proof

/-- One byte (R9: multi-byte fields are little-endian). -/
abbrev Byte := BitVec 8
/-- A 32-bit word: fawn scalar registers (R163), instruction words (R167), counters. -/
abbrev Word := BitVec 32
/-- A 64-bit word: REG_READ and REG_WRITE words (R340), verdict entries (R51), TB (R298). -/
abbrev DWord := BitVec 64
/-- One token payload, 256 bits (R69). -/
abbrev Payload := BitVec 256

/-- A 16-bit unit address (R23): UNIT [3:0], CLUSTER [8:4], REGION [11:9], PORT [12]; it is only compared and split,
so it is a number. State keyed by it uses the PORT = 0 form for both a compute unit and its switch port. -/
abbrev UnitAddr := Nat

namespace UnitAddr

/-- UNIT field: 0 to 14 a grid position, 15 the cluster steward (R23). -/
def unit (u : UnitAddr) : Nat := u % 16
/-- CLUSTER field: 0 to 15 active sites, 16 the spare site (R23). -/
def cluster (u : UnitAddr) : Nat := u / 16 % 32
/-- REGION field (R23). -/
def region (u : UnitAddr) : Nat := u / 512 % 8
/-- PORT field (R23). -/
def port (u : UnitAddr) : Nat := u / 4096 % 2
/-- The unit address of a position (R23). -/
def mk (r c n : Nat) : UnitAddr := r * 512 + c * 16 + n
/-- The steward of a unit's cluster (R23: UNIT = 15). -/
def steward (u : UnitAddr) : UnitAddr := u / 16 * 16 + 15
/-- No reserved value: PORT's upper bits zero and CLUSTER at most 16 (R23). -/
def legal (u : UnitAddr) : Bool := u < 8192 && u.cluster ≤ 16
/-- The eland engines of a cluster are units 2, 7 and 12 (the text above R16). -/
def isEland (u : UnitAddr) : Bool := u.unit == 2 || u.unit == 7 || u.unit == 12
/-- Every other grid position holds a fawn core. -/
def isFawn (u : UnitAddr) : Bool := u.unit < 15 && !u.isEland

end UnitAddr
end Sys2Proof
end

