-- ==== Sys2Proof/Machine/Bits.lean ====
section
/-! DEFINITION. Bit fields, two's complement, bytes, rounding and CRC: the plain arithmetic that the meanings share
(R9, R12, R74, R286, R334). -/
namespace Sys2Proof

/-- Bits [lo + w − 1 : lo] of a number (R9). -/
def bits (x lo w : Nat) : Nat := x / 2 ^ lo % 2 ^ w

/-- Bit `i` of a number. -/
def bitAt (x i : Nat) : Bool := x / 2 ^ i % 2 == 1

/-- The number with bits [lo + w − 1 : lo] replaced by the low bits of `v`. -/
def setBits (x lo w v : Nat) : Nat := x - bits x lo w * 2 ^ lo + v % 2 ^ w * 2 ^ lo

/-- The value of a w-bit two's complement field (R9). -/
def sx (w x : Nat) : Int := if x % 2 ^ w < 2 ^ (w - 1) then (x % 2 ^ w : Nat) else (x % 2 ^ w : Nat) - (2 ^ w : Nat)

/-- The w-bit two's complement field of a value. -/
def ux (w : Nat) (v : Int) : Nat := (v % (2 ^ w : Nat)).toNat

/-- Clamp an integer to a range. -/
def clampI (lo hi v : Int) : Int := if v < lo then lo else if hi < v then hi else v

/-- Saturate a count at a w-bit maximum. -/
def satN (w v : Nat) : Nat := min v (2 ^ w - 1)

/-- Round up a quotient. -/
def ceilDiv (a b : Nat) : Nat := (a + b - 1) / b

/-- Nearest integer to n / d with ties away from zero, d positive (R12). -/
def roundDiv (n : Int) (d : Nat) : Int :=
  let q : Int := ((2 * n.natAbs + d) / (2 * d) : Nat)
  if n < 0 then -q else q

/-- v × 2^t rounded to the nearest integer, ties away from zero (R12). -/
def roundShift (v t : Int) : Int :=
  if 0 ≤ t then v * (2 ^ t.toNat : Nat) else roundDiv v (2 ^ (-t).toNat)

/-- v × 2^t rounded down. -/
def floorShift (v t : Int) : Int :=
  if 0 ≤ t then v * (2 ^ t.toNat : Nat) else v.fdiv (2 ^ (-t).toNat : Nat)

/-- The w low bits of a number as `n` little-endian bytes (R9). -/
def leBytes : Nat → Nat → List Nat
  | 0, _ => []
  | n + 1, v => v % 256 :: leBytes n (v / 256)

/-- The number little-endian bytes spell (R9). -/
def leNat : List Nat → Nat
  | [] => 0
  | b :: bs => b % 256 + 256 * leNat bs

/-- `n` bytes of a byte string from an offset; bytes past the end read as zero. -/
def bytesAt (bs : List Nat) (off n : Nat) : List Nat :=
  let t := (bs.drop off).take n
  t ++ List.replicate (n - t.length) 0

/-- A little-endian field of a byte string. -/
def leAt (bs : List Nat) (off n : Nat) : Nat := leNat (bytesAt bs off n)

/-- A byte string with a field replaced. -/
def putAt (bs : List Nat) (off : Nat) (new : List Nat) : List Nat :=
  bytesAt bs 0 off ++ new ++ bs.drop (off + new.length)

/-- Sum modulo 255 of bytes: the token residue of R74. -/
def residue255 (bs : List Nat) : Nat := bs.foldl (· + ·) 0 % 255

/-- One bit of a reflected CRC. -/
def crcBit (poly c : Nat) : Nat := if c % 2 == 1 then (c / 2) ^^^ poly else c / 2

/-- One byte of a reflected CRC. -/
def crcByte (poly c b : Nat) : Nat :=
  crcBit poly (crcBit poly (crcBit poly (crcBit poly (crcBit poly (crcBit poly (crcBit poly (crcBit poly (c ^^^ (b % 256)))))))))

/-- CRC-32C over bytes (R286): reflected polynomial 0x82F63B78, initial value and final inversion all ones. -/
def crc32c (bs : List Nat) : Nat := (bs.foldl (crcByte 0x82F63B78) 0xFFFFFFFF) ^^^ 0xFFFFFFFF

/-- Signed difference of two w-bit numbers. -/
def sdiff (w a b : Nat) : Int := sx w (a + 2 ^ w - b % 2 ^ w)

/-- List element with a default. -/
def nth {α : Type} (d : α) : List α → Nat → α
  | [], _ => d
  | x :: _, 0 => x
  | _ :: xs, n + 1 => nth d xs n

/-- List with element `i` replaced. -/
def setNth {α : Type} : List α → Nat → α → List α
  | [], _, _ => []
  | _ :: xs, 0, v => v :: xs
  | x :: xs, n + 1, v => x :: setNth xs n v

/-- The last `n` elements of a list. -/
def lastN {α : Type} (n : Nat) (xs : List α) : List α := xs.drop (xs.length - n)

/-- Insert into a list kept in ascending order of a key. -/
def insertBy {α : Type} (key : α → Nat) (x : α) : List α → List α
  | [] => [x]
  | y :: ys => if key x < key y then x :: y :: ys else y :: insertBy key x ys

/-- Stable ascending sort by a key. -/
def sortBy {α : Type} (key : α → Nat) (xs : List α) : List α := xs.foldl (fun acc x => insertBy key x acc) []

/-- The element with the smallest key, the first of equals. -/
def minBy {α : Type} (key : α → Nat) : List α → Option α
  | [] => none
  | x :: xs =>
    match minBy key xs with
    | none => some x
    | some y => if key y < key x then some y else some x

/-- Remove the first element that satisfies a test. -/
def removeFirst {α : Type} (p : α → Bool) : List α → List α
  | [] => []
  | x :: xs => if p x then xs else x :: removeFirst p xs

/-- Replace every element that satisfies a test. -/
def updateWhere {α : Type} (p : α → Bool) (f : α → α) (xs : List α) : List α := xs.map fun x => if p x then f x else x

/-- Replace the first element that satisfies a test. -/
def updateFirst {α : Type} (p : α → Bool) (f : α → α) : List α → List α
  | [] => []
  | x :: xs => if p x then f x :: xs else x :: updateFirst p f xs

/-- Keyed data: a list of pairs in which the first entry of a key counts; `put` removes the older entries of its key. -/
abbrev KMap (κ α : Type) := List (κ × α)

namespace KMap
variable {κ α : Type} [DecidableEq κ]

/-- The value held under a key. -/
def get? : KMap κ α → κ → Option α
  | [], _ => none
  | (k, v) :: m, q => if k = q then some v else get? m q

/-- The value held under a key, or a default. -/
def getD (m : KMap κ α) (q : κ) (d : α) : α := (get? m q).getD d

/-- Remove a key. -/
def del : KMap κ α → κ → KMap κ α
  | [], _ => []
  | (k, v) :: m, q => if k = q then del m q else (k, v) :: del m q

/-- Hold a value under a key. -/
def put (m : KMap κ α) (q : κ) (v : α) : KMap κ α := (q, v) :: del m q

/-- Change the value held under a key, a missing one counting as the default. -/
def upd (m : KMap κ α) (q : κ) (d : α) (f : α → α) : KMap κ α := put m q (f (getD m q d))

/-- The keys held. -/
def keys (m : KMap κ α) : List κ := m.map (·.1)

end KMap
end Sys2Proof
end

