-- ==== Sys2Proof/Machine/FabTypes.lean ====
section
/-! DEFINITION. Tokens (R69 to R74) and the state of the fabric, the eland engines, the conditioners, the deskew buffer
and the verdict units: plain data. -/
namespace Sys2Proof

/-- A token: the header fields of Table "Token header" (R69) and the 256-bit payload. [DEDUCED, log 97] -/
structure Token where
  tag : Nat := 0
  stream : Nat := 0
  block : Nat := 0
  fmt : Nat := 0
  kind : Nat := 1
  poison : Bool := false
  last : Bool := false
  epochLo : Nat := 0
  residue : Nat := 0
  payload : Payload := 0
  deriving DecidableEq, Repr

/-- A token with the cycle that stamps it: the cycle from which it stands in a register, or the cycle of its write into a
store (R77, R91). -/
structure Entry where
  tok : Token := {}
  cyc : Nat := 0
  deriving DecidableEq, Repr

/-- A data token in a steer store (R95 to R97). -/
structure SteerEntry where
  tok : Token := {}
  /-- The cycle of its write. -/
  cyc : Nat := 0
  /-- Once it no longer waits for its partner: the steer entry it leaves on and the cycle from which it departs. -/
  go : Option (Nat × Nat) := none
  deriving DecidableEq, Repr

/-- A token in a delay line with where it goes (R85). -/
structure DelayEntry where
  tok : Token := {}
  enter : Nat := 0
  delay : Nat := 0
  out : Nat := 0
  input : Nat := 0
  slot : Nat := 0
  /-- Bit 0: into the data steer store; bit 1: into the control steer store. -/
  steer : Nat := 0
  deriving DecidableEq, Repr

/-- A flag post on its way to a slot's flag collector (R45). -/
structure FlagPost where
  slot : Nat := 0
  tag : Nat := 0
  epochLo : Nat := 0
  /-- 0 SKEW, 1 POISON, 2 ADAPTED. -/
  flag : Nat := 0
  cyc : Nat := 0
  deriving DecidableEq, Repr

/-- A check post: the header fields and the CHECK payload of R368. -/
structure CheckPost where
  slot : Nat := 0
  unit : Nat := 0
  cls : Nat := 0
  tag : Nat := 0
  epochLo : Nat := 0
  block : Nat := 0
  resMain : Nat := 0
  resPred : Nat := 0
  element : Nat := 0
  wordMain : Nat := 0
  /-- TB[31:0] at detection (TB_LO). -/
  tbLo : Nat := 0
  /-- Made to fail by INT_INJECT (R467). -/
  injected : Bool := false
  cyc : Nat := 0
  deriving DecidableEq, Repr

/-- A CADD on its way to its cluster's steward (R183). -/
structure Cadd where
  unit : Nat := 0
  /-- The register that takes the counter's value before the addition. -/
  dest : Fin 32 := 0
  /-- Shared counter, as FAB_SC_CNT numbers it. -/
  counter : Nat := 0
  add : Nat := 0
  /-- The cycle in which it reaches the steward, the instruction's second. -/
  cyc : Nat := 0
  deriving DecidableEq, Repr

/-- What the fabric holds: switch registers (direction 0 north, 1 east, 2 south, 3 west, 4 the local output register),
delay lines, unit stores, steer stores, expired-tag lists, the collection ports and the injection rows. -/
structure FabState where
  /-- Switch registers and the local output register of a position, head first, the skid entry behind it (R77, R79). Keys
  65536·k + position, k from 1 to 8, are the registers of the extra hops before that position's register (R18). -/
  swRegs : KMap (Nat × Nat) (List Entry) := []
  /-- Delay lines of up to 64 tokens (R85). -/
  delay : KMap Nat (List DelayEntry) := []
  /-- Match stores of up to 16 tokens, keyed by unit and input (text above R86). -/
  stores : KMap (Nat × Nat) (List Entry) := []
  /-- Data steer stores (R95). -/
  steerData : KMap Nat (List SteerEntry) := []
  /-- Control steer stores (R95). -/
  steerCtrl : KMap Nat (List Entry) := []
  /-- Expired-tag lists of 16: tag and the cycle it entered (R96). -/
  expired : KMap Nat (List (Nat × Nat)) := []
  /-- Collection ports, one a row: tokens with the cycle in which they stand there (R77). -/
  coll : KMap Nat (List Entry) := []
  /-- Injection rows: tokens with the cycle in which each leaves the deskew buffer (R78). -/
  inj : KMap Nat (List Entry) := []
  /-- The last cycle in which a place sent a token: a register (port, direction), or 5 the steering output. -/
  movedAt : KMap (Nat × Nat) Nat := []
  /-- The last cycle at whose start a place that has since sent or consumed was full: registers as above, 8 + i the store of
  input i, 6 the delay line, 16 and 17 the data and control steer stores. -/
  fullAt : KMap (Nat × Nat) Nat := []
  /-- Flag posts on the sideband (R45). -/
  flagPosts : List FlagPost := []
  /-- Check posts on the check sideband (R368). -/
  checkPosts : List CheckPost := []
  /-- CADDs on their way to the stewards (R183). -/
  cadds : List Cadd := []
  deriving DecidableEq, Repr

/-- One accumulator set of an eland engine (R112). -/
structure AccSet where
  tag : Nat := 0
  epochLo : Nat := 0
  first : Nat := 0
  /-- Block indices fired. -/
  fired : List Nat := []
  /-- S(j) so far, channel order, units 2^(XBW + XBA − 12) (R123). -/
  acc : List Int := []
  poison : Bool := false
  adapted : Bool := false
  /-- Exponent of input block 0, when it was neither poisoned nor VOID (R127). -/
  exp0 : Option Int := none
  /-- WINDOW of input block 0 under the same condition (R160). -/
  window : Option Nat := none
  /-- WINDOW of the event, from the first SCALE_BLK token taken from the scale lane (R102, R131). -/
  evWindow : Option Nat := none
  /-- The scale lane's LAST token has been consumed (R98). -/
  scaleDone : Bool := false
  deriving DecidableEq, Repr

/-- A completed pass waiting for its output stage (R134, R135). -/
structure PassOut where
  set : AccSet := {}
  lastFire : Nat := 0
  deriving DecidableEq, Repr

/-- A clip-counter bank of an eland engine (R160). -/
structure ClipBank where
  window : Nat := 0
  opened : Bool := false
  epoch : Nat := 0
  passes : Nat := 0
  late : Nat := 0
  lost : Nat := 0
  /-- Clip counts by output channel; a channel not listed counts zero. -/
  counts : KMap Nat Nat := []
  deriving DecidableEq, Repr

/-- A token of an output stage with its earliest departure and the posts due 16 cycles after it (R134, R364). -/
structure OutTok where
  tok : Token := {}
  cyc : Nat := 0
  posts : List CheckPost := []
  deriving DecidableEq, Repr

/-- What an eland engine holds beside its stores and registers. -/
structure ElandUnit where
  /-- Cycle from which the next firing may start (R109). -/
  nextFire : Nat := 0
  sets : List AccSet := []
  done : List PassOut := []
  bank : ClipBank := {}
  /-- Which of the two clip banks is open (R160). -/
  bankSel : Nat := 0
  /-- Closed banks waiting for OUTPUT_RECORD_WRITE, oldest first (R161). -/
  closed : List ClipBank := []
  /-- Records of this engine overwritten before being written (R161). -/
  lost : Nat := 0
  /-- Tags whose data lane has ended, with EPOCH_LO and the cycle until which this is remembered (R98). -/
  dataDone : List (Nat × Nat × Nat) := []
  /-- Tokens of completed passes on their way out, with the earliest cycle of each and the check posts that follow its
  departure (R134, R135, R364). -/
  outQ : List OutTok := []
  /-- Last cycle for which a firing waited for a set (R112). -/
  waitedAt : Option Nat := none
  deriving DecidableEq, Repr

/-- A channel's statistics in the open window (R153). -/
structure ChanWin where
  clip : Nat := 0
  esc : Nat := 0
  pos : Nat := 0
  neg : Nat := 0
  deriving DecidableEq, Repr

/-- A conditioner block's open window (R152 to R155); the live exponent and FALL_CNT stand in CND_BSTATEn. -/
structure BlockWin where
  /-- Converted events counted in the open window. -/
  events : Nat := 0
  /-- The first event of the open window carries ADAPTED. -/
  adaptNext : Bool := false
  /-- The latest event that opened a window with ADAPTED; its repeats carry it too (R155). -/
  adaptEvent : Option Nat := none
  chans : KMap Nat ChanWin := []
  /-- Event numbers of the last 16 counted conversions, newest last (R152). -/
  recent : List Nat := []
  /-- Records lost since the last one written (R154). -/
  lost : Nat := 0
  deriving DecidableEq, Repr

/-- A block window record queued for the stack: block, window, and the bytes of Table "Block window record" (R153). -/
structure WinRecord where
  block : Nat := 0
  window : Nat := 0
  header : List Nat := []
  chans : List Nat := []
  deriving DecidableEq, Repr

/-- The result of converting one block (R146 to R148). -/
structure ConvBlock where
  block : Nat := 0
  q4 : Bool := false
  exp : Int := 0
  zp : Int := 0
  window : Nat := 0
  adapted : Bool := false
  codes : List Int := []
  /-- Escapes: element and d. -/
  corr : List (Nat × Int) := []
  deriving DecidableEq, Repr

/-- A channel-table entry: bits [63:0] and [127:64] (R144). -/
abbrev ChanEntry := Nat × Nat

/-- The conditioners: the channel table's copies, the blocks' windows and the record queue. -/
structure CondState where
  staged : KMap Nat ChanEntry := []
  committed : KMap Nat ChanEntry := []
  /-- Blocks whose element-0 CND_TBL_HI was written since the previous commit (R159). -/
  touched : List Nat := []
  /-- The staged table was written since the previous commit (R33, R149). -/
  dirty : Bool := false
  /-- From the confirmation of a commit that changes the table: convert under both tables (R149). -/
  dual : Bool := false
  wins : KMap Nat BlockWin := []
  /-- Blocks that the latest commit restarted with a changed exponent (R159). -/
  restarted : List Nat := []
  queue : List WinRecord := []
  deriving DecidableEq, Repr

/-- One block of an event in the deskew buffer, under the table of its conversion and, in a dual phase, under the staged
one (R149). -/
structure DskBlock where
  block : Nat := 0
  cur : ConvBlock := {}
  next : Option ConvBlock := none
  /-- Epoch in force at conversion. -/
  epoch : Nat := 0
  deriving DecidableEq, Repr

/-- An event in assembly (R46 to R50). -/
structure DskEvent where
  num : Nat := 0
  t0 : Nat := 0
  blocks : List DskBlock := []
  incomplete : Bool := false
  /-- Cycle from which the event waits for its release, once complete or injected incomplete. -/
  ready : Option Nat := none
  deriving DecidableEq, Repr

/-- An event that is not injected and waits for its mark (R48). -/
structure NoInj where
  num : Nat := 0
  since : Nat := 0
  overrun : Bool := false
  incomplete : Bool := false
  /-- The blocks converted for it, for ADAPTED (R157). -/
  blocks : List DskBlock := []
  deriving DecidableEq, Repr

/-- A slot's part of the deskew buffer. -/
structure DskSlot where
  events : List DskEvent := []
  noinj : List NoInj := []
  /-- Event numbers of the last 64 events that have left, newest last (R49). -/
  gone : List Nat := []
  /-- The latest mark of an injected event (R48). -/
  lastInj : Option Nat := none
  /-- Marks given, of which no two may share a cycle (R48). -/
  marks : List Nat := []
  /-- Events given a tag since the network became live (R93). -/
  given : Nat := 0
  /-- Image id of the network those tags belong to: a network that replaces it begins at its own TAG_BASE (R205). -/
  tagImg : Nat := 0
  /-- The tag of the last injected event, once there is one (R48). -/
  lastTag : Option Nat := none
  /-- Restarted blocks whose ADAPTED an event of the slot has carried, with the epoch (R159). -/
  adaptGiven : List (Nat × Nat) := []
  deriving DecidableEq, Repr

/-- An event from its ingress mark until its validation, in its slot's verdict unit (R41 to R56). -/
structure VEvent where
  num : Nat := 0
  tag : Nat := 0
  epoch : Nat := 0
  bank : Nat := 0
  lnet : Nat := 0
  mark : Nat := 0
  /-- TB at the ingress mark. -/
  ingressTB : Nat := 0
  injected : Bool := true
  incomplete : Bool := false
  overrun : Bool := false
  /-- ADAPTED handed over by the deskew buffer for an event that was not injected (R157). -/
  adapted : Bool := false
  /-- Flags that reached the collector by the cut-off (R45). -/
  fSkew : Bool := false
  fPoison : Bool := false
  fAdapted : Bool := false
  /-- The final result token taken (R44). -/
  result : Option Token := none
  /-- The cut-off has passed (R43). -/
  closed : Bool := false
  /-- The emitted entry (R51), with TB at its verdict mark. -/
  entry : Option Nat := none
  markTB : Nat := 0
  /-- Resolved by the check collector (R369), voided or not. -/
  resolved : Bool := false
  voided : Bool := false
  /-- The verdict unit's own VRD check failed (R369). -/
  vrdFail : Bool := false
  /-- VERDn pulsed for it (R60). -/
  pulsed : Bool := false
  /-- Ports that carried the verdict, as VRD_PORTS.MAP held them at the mark (R56). -/
  ports : Nat := 0
  deriving DecidableEq, Repr

/-- A slot's verdict unit and check collector. -/
structure VrdUnit where
  events : List VEvent := []
  /-- Tags whose final result token was taken, with their EPOCH_LO, until the tag is given again (R44). -/
  taken : List (Nat × Nat) := []
  /-- Posts held by the check collector (R371). -/
  posts : List CheckPost := []
  overflow : Bool := false
  /-- Cycle at which VERDn and VALIDn return inactive; none while inactive (R60). -/
  verdEnd : Option Nat := none
  validEnd : Option Nat := none
  /-- The last cycle in which posts were accepted, and how many (R371: up to 8). -/
  postsAt : Nat := 0
  postsIn : Nat := 0
  deriving DecidableEq, Repr

end Sys2Proof
end

