-- ==== Sys2Proof/Frames.lean ====
section
/-! DEFINITION. What commands carry from outside the device: received frames (R286), marker rows (R279), upsets of a token on
a link (R75, R76), sensor readings (R425), what a replay site computed (R377), and the lane widths of the fawn vector
instructions (Table "Vector lane width"). -/
namespace Sys2Proof

/-- A frame as it reaches a port's receiver: header SEQ and LEN, the payload bytes and the CRC trailer (R286). The TYPE is the
command's own. -/
structure Frame where
  seq : Nat := 0
  len : Nat := 0
  payload : List Nat := []
  crc : Nat := 0
  /-- An _FS block of the frame's stream has come since the stream's frame before it (R285). -/
  fs : Bool := true
  deriving DecidableEq, Repr

/-- One lane's part of a MARKER row: the fibre it came on, its skew in rows and its 252 payload bits (R279). -/
structure MarkerLane where
  fibre : Nat := 0
  skew : Nat := 0
  payload : Nat := 0
  deriving DecidableEq, Repr

/-- What happens to a token on a link: nothing, a corrected or an uncorrectable header error (R76), or payload bits
inverted on the way (R75). -/
inductive Upset where
  | none
  | corrected
  | uncorrectable
  | flipped (mask : Payload)
  deriving DecidableEq, Repr

/-- What a replay's end brings from its site beside what the replay computes (R377, R387): whether a check failed there, and, for
each FWN_ALU failure that was not injected, the residue and the value which the site's core computed in its place. [DESIGN CHOICE, log 60] -/
structure ReplayResult where
  /-- The unit of the replay site whose check failed. -/
  fault : Option (Fin 16) := none
  /-- Replayed residue and value of the FWN_ALU posts, in their order. -/
  alu : List (Nat × Nat) := []
  deriving DecidableEq, Repr

/-- Lane width of a vector instruction: Table "Vector lane width". -/
inductive LaneW where
  | l32 | l16 | l8 | f32
  deriving DecidableEq, Repr

/-- What a scrub read finds that the word's earlier readers had not: nothing, one bit in error, or an uncorrectable error (R258,
R259). [DESIGN CHOICE, log 98] -/
inductive WordError where
  | none | single | double
  deriving DecidableEq, Repr

/-- One thermal sensor's reading: °C, or a failed self-test. -/
abbrev SensorReading := Option Int

/-- What a CAS command asks of WCK (Table "LPDDR5 features"). -/
inductive CasOp where
  | wsRd | wsWr | wsFs | wsOff
  /-- With Write X or data copy, which are not supported. -/
  | writeX | dataCopy
  deriving DecidableEq, Repr

/-- A multi-purpose command (Table "LPDDR5 features"). -/
inductive MpcOp where
  | zqStart | zqLatch | writeFifo (data : List Nat) | readFifo | readDqCal | other (op : Nat)
  deriving DecidableEq, Repr

end Sys2Proof
end

