-- ==== Sys2Proof/Syntax.lean ====
section
/-! DEFINITION. The commands of the block: one constructor per row of spec/opcode_table.json, in its order, with the row's
operands. A fawn instruction names its core by unit address `u` and carries its decoded fields (R167, R169); a command of the
host port's command interpreter names the command slot `hs` whose packet it runs (R333); slot 64 is the boot slot (R348). -/
namespace Sys2Proof

/-- A command, event or instruction of the device. -/
inductive Instr where
  /-- REGISTER_WRITE: A write to an RW field of a register without a row of its own is staged for the next epoch commit or applied at once as its table states (R6) -/
  | registerWrite (addr mask value : Nat) (master : Nat := 0)
  /-- MAILBOX_MESSAGE: A control core takes an explicit message from the other core through its 64-entry mailbox (R24) -/
  | mailboxMessage (core : Fin 2)
  /-- CHIP_SYSID: A write of CHIP_SYSID.ID takes effect immediately, and it is refused while any peer port is neither DARK nor disabled (R21) -/
  | chipSysid (value : Nat)
  /-- COMMIT: The host command starts an epoch commit of the staged changes and replies with the epoch and the cycle C, COMMIT_RULE or COMMIT_ABORTED (R33) -/
  | commit (hs : Nat)
  /-- CONFIRM: A region manager confirms that its stewards hold the staged state (R33) -/
  | confirm (region : Fin 8)
  /-- COMMIT_ABORT: The confirmation timeout expires with a confirmation missing, so the commit is aborted, the staged state is kept and the failing regions are reported (R33) -/
  | commitAbort
  /-- COMMIT_BROADCAST: After the last confirmation and the required waits, control core 1 chooses cycle C and broadcasts it with the new epoch number (R33) -/
  | commitBroadcast
  /-- COMMIT_CYCLE: At cycle C the new epoch applies to events whose ingress mark falls at or after C, and the staged configuration becomes committed (R34) -/
  | commitCycle
  /-- HELD_COMMIT: A commit that was held for the events of the epoch before the current one proceeds once they have drained (R35) -/
  | heldCommit
  /-- SNAPSHOT_TICK: Every 65,536 cycles the RS registers are copied into the inactive snapshot buffer, and the buffers flip (R37) -/
  | snapshotTick
  /-- SENSOR: A SENSOR frame delivers conditioner blocks of one event number to the conditioners (R287) -/
  | sensor (port : Fin 16) (f : Frame)
  /-- EVENT_INCOMPLETE: The ingress slack expires with blocks still missing, so the event is declared incomplete and follows INC_POLICY (R46) -/
  | eventIncomplete (slot : Fin 16)
  /-- EVENT_RELEASE: The deskew buffer releases a ready event at its spacing, sending its tokens on the injection rows and fixing its tag and epoch (R78) -/
  | eventRelease (slot : Fin 16)
  /-- NOINJECT_MARK: An event that is not injected takes its ingress mark at the first cycle in which no other event of the slot takes one (R48) -/
  | noinjectMark (slot : Fin 16)
  /-- BLOCK_RECORD_WRITE: A queued block window record is written to the memory stack in the RECORD class (R154) -/
  | blockRecordWrite
  /-- CND_TBL_LO: A write stores the channel fields of the addressed entry into the staged channel table immediately (R159) -/
  | cndTblLo (value : Nat)
  /-- CND_TBL_HI: A write stores the block fields of the addressed entry into the staged table immediately and marks the block for restart (R159) -/
  | cndTblHi (value : Nat)
  /-- TOKEN_HOP: A token arrives at a switch port, and the port routes it by its route table to a neighbour, the local unit or the delay line (R77) -/
  | tokenHop (port : Nat) (dir : Fin 5) (upset : Upset)
  /-- DELAY_LINE_RELEASE: A token leaves the delay line DELAY cycles after entering it (R85) -/
  | delayLineRelease (port : Nat)
  /-- FIRE: An eland engine in tag mode fires for a tag once every configured input holds a token of that tag and its output can accept (R86) -/
  | fire (unit : Nat)
  /-- READY_FIRE: A unit in ready mode fires on the oldest token of each input, poisoning its outputs when the tags differ (R89) -/
  | readyFire (unit : Nat)
  /-- PASS_OUTPUT: Lpass cycles after the pass's last firing, the output stage emits the pass's tokens (R134) -/
  | passOutput (unit : Nat)
  /-- OUTPUT_RECORD_WRITE: The cluster steward writes a closed clip bank to the memory stack as an output-channel record (R161) -/
  | outputRecordWrite (unit : Nat)
  /-- ACC_EXPIRED: An accumulator set whose first firing is FAB_UHOLD.LIMIT cycles old without completion is freed without output (R112) -/
  | accExpired (unit : Nat)
  /-- STORE_EXPIRY: A store entry whose age reaches FAB_UHOLD.LIMIT is discarded and counted (R91) -/
  | storeExpiry (unit : Nat) (input : Fin 4)
  /-- STEER_PAIR: A data token and a control token of one tag pair, and the data departs on the steer entry that SELECT names (R95) -/
  | steerPair (port : Nat)
  /-- STEER_RELEASE: A steer-store token left without its partner for WAIT cycles is released, SKEW is posted and its tag enters the expired-tag list (R96) -/
  | steerRelease (port : Nat)
  /-- EXPIRED_TAG_LEAVE: An expired-tag list entry leaves the list when its age reaches the slot's Lnet (R96) -/
  | expiredTagLeave (port : Nat)
  /-- FAB_FIRST_ERR_REARM: Writing 1 to FAB_FIRST_ERR.VALID re-arms the capture of the first fabric error (R105) -/
  | fabFirstErrRearm
  /-- FINAL_RESULT_TOKEN: The collection port hands a token of the slot's range to the verdict unit, which takes the first verdict-stream token up to the cut-off (R44) -/
  | finalResultToken (row : Fin 24)
  /-- FLAG_POST: A SKEW, POISON or ADAPTED post reaches the slot's flag collector over the sideband (R45) -/
  | flagPost (slot : Fin 16)
  /-- CUT_OFF: At ingress mark + Lnet − 4 the verdict unit stops accepting the final result token and composes the entry (R43) -/
  | cutOff (slot : Fin 16)
  /-- VERDICT_MARK: At the verdict mark the verdict unit emits the event's verdict entry with its flags and cause (R41) -/
  | verdictMark (slot : Fin 16)
  /-- CHECK_RESOLVE: At verdict mark + 16 the check collector resolves the event and decides whether the verdict is voided (R369) -/
  | checkResolve (slot : Fin 16) (vrdFail : Bool)
  /-- VALIDATION: Twenty cycles after the verdict mark the verdict is validated or voided (R55) -/
  | validation (slot : Fin 16)
  /-- VERD_PULSE_END: A VERDn or VALIDn pulse ends PIN_WIDTH cycles after it began (R60) -/
  | verdPulseEnd (slot : Fin 16)
  /-- ADD: Fawn integer add, wrapping (R169) -/
  | add (u : Nat) (d a b : Fin 32)
  /-- SUB: Fawn integer subtract, wrapping (R169) -/
  | sub (u : Nat) (d a b : Fin 32)
  /-- AND: Fawn bitwise AND (R169) -/
  | and (u : Nat) (d a b : Fin 32)
  /-- OR: Fawn bitwise OR (R169) -/
  | or (u : Nat) (d a b : Fin 32)
  /-- XOR: Fawn bitwise XOR (R169) -/
  | xor (u : Nat) (d a b : Fin 32)
  /-- SLL: Fawn logical shift left by a register (R169) -/
  | sll (u : Nat) (d a b : Fin 32)
  /-- SRL: Fawn logical shift right by a register (R169) -/
  | srl (u : Nat) (d a b : Fin 32)
  /-- SRA: Fawn arithmetic shift right by a register (R169) -/
  | sra (u : Nat) (d a b : Fin 32)
  /-- SLT: Fawn signed set-less-than (R169) -/
  | slt (u : Nat) (d a b : Fin 32)
  /-- SLTU: Fawn unsigned set-less-than (R169) -/
  | sltu (u : Nat) (d a b : Fin 32)
  /-- MIN: Fawn signed minimum (R169) -/
  | min (u : Nat) (d a b : Fin 32)
  /-- MAX: Fawn signed maximum (R169) -/
  | max (u : Nat) (d a b : Fin 32)
  /-- CLZ: Fawn count of leading zeros (R169) -/
  | clz (u : Nat) (d a : Fin 32)
  /-- POPC: Fawn population count (R169) -/
  | popc (u : Nat) (d a : Fin 32)
  /-- MUL: Fawn low 32 bits of a product (R169) -/
  | mul (u : Nat) (d a b : Fin 32)
  /-- MULH: Fawn high 32 bits of the signed product (R169) -/
  | mulh (u : Nat) (d a b : Fin 32)
  /-- MULHU: Fawn high 32 bits of the unsigned product (R169) -/
  | mulhu (u : Nat) (d a b : Fin 32)
  /-- DIV: Fawn signed division, rounded to nearest with ties away from zero (R170) -/
  | div (u : Nat) (d a b : Fin 32)
  /-- DIVU: Fawn unsigned division, rounded to nearest with ties away from zero (R170) -/
  | divu (u : Nat) (d a b : Fin 32)
  /-- REM: Fawn signed remainder for the rounded quotient (R170) -/
  | rem (u : Nat) (d a b : Fin 32)
  /-- REMU: Fawn unsigned remainder for the rounded quotient (R170) -/
  | remu (u : Nat) (d a b : Fin 32)
  /-- ADDI: Fawn add of a sign-extended immediate (R169) -/
  | addi (u : Nat) (d a : Fin 32) (imm : BitVec 16)
  /-- ANDI: Fawn AND with a zero-extended immediate (R169) -/
  | andi (u : Nat) (d a : Fin 32) (imm : BitVec 16)
  /-- ORI: Fawn OR with a zero-extended immediate (R169) -/
  | ori (u : Nat) (d a : Fin 32) (imm : BitVec 16)
  /-- XORI: Fawn XOR with a zero-extended immediate (R169) -/
  | xori (u : Nat) (d a : Fin 32) (imm : BitVec 16)
  /-- SLTI: Fawn signed compare with an immediate (R169) -/
  | slti (u : Nat) (d a : Fin 32) (imm : BitVec 16)
  /-- LUI: Fawn load of an upper immediate (R169) -/
  | lui (u : Nat) (d : Fin 32) (imm : BitVec 16)
  /-- SLLI: Fawn logical shift left by an immediate (R169) -/
  | slli (u : Nat) (d a : Fin 32) (sh : Fin 32)
  /-- SRLI: Fawn logical shift right by an immediate (R169) -/
  | srli (u : Nat) (d a : Fin 32) (sh : Fin 32)
  /-- SRAI: Fawn arithmetic shift right by an immediate (R169) -/
  | srai (u : Nat) (d a : Fin 32) (sh : Fin 32)
  /-- EXTS: Fawn signed bit-field extract (R169) -/
  | exts (u : Nat) (d a : Fin 32) (pos widM1 : Fin 32)
  /-- EXTU: Fawn unsigned bit-field extract (R169) -/
  | extu (u : Nat) (d a : Fin 32) (pos widM1 : Fin 32)
  /-- LDW: Fawn scratch word load (R169) -/
  | ldw (u : Nat) (d a : Fin 32) (imm : BitVec 16)
  /-- LDB: Fawn signed scratch byte load (R169) -/
  | ldb (u : Nat) (d a : Fin 32) (imm : BitVec 16)
  /-- LDBU: Fawn unsigned scratch byte load (R169) -/
  | ldbu (u : Nat) (d a : Fin 32) (imm : BitVec 16)
  /-- LDV: Fawn 32-byte scratch load into a vector register (R169) -/
  | ldv (u : Nat) (vd : Fin 8) (a : Fin 32) (imm : BitVec 16)
  /-- STW: Fawn scratch word store (R169) -/
  | stw (u : Nat) (b a : Fin 32) (imm : BitVec 16)
  /-- STB: Fawn scratch byte store (R169) -/
  | stb (u : Nat) (b a : Fin 32) (imm : BitVec 16)
  /-- STV: Fawn 32-byte scratch store from a vector register (R169) -/
  | stv (u : Nat) (vb : Fin 8) (a : Fin 32) (imm : BitVec 16)
  /-- BEQ: Fawn branch if equal (R169) -/
  | beq (u : Nat) (a b : Fin 32) (off : BitVec 16)
  /-- BNE: Fawn branch if not equal (R169) -/
  | bne (u : Nat) (a b : Fin 32) (off : BitVec 16)
  /-- BLT: Fawn branch if signed less (R169) -/
  | blt (u : Nat) (a b : Fin 32) (off : BitVec 16)
  /-- BGE: Fawn branch if signed greater or equal (R169) -/
  | bge (u : Nat) (a b : Fin 32) (off : BitVec 16)
  /-- BLTU: Fawn branch if unsigned less (R169) -/
  | bltu (u : Nat) (a b : Fin 32) (off : BitVec 16)
  /-- BGEU: Fawn branch if unsigned greater or equal (R169) -/
  | bgeu (u : Nat) (a b : Fin 32) (off : BitVec 16)
  /-- JAL: Fawn jump and link, relative (R169) -/
  | jal (u : Nat) (d : Fin 32) (imm : BitVec 16)
  /-- JALR: Fawn jump and link to a register plus an immediate (R169) -/
  | jalr (u : Nat) (d a : Fin 32) (imm : BitVec 16)
  /-- FETCH_ECC: An uncorrectable program-memory word raises FETCH_ECC and freezes the core (R181) -/
  | fetchEcc (u : Nat)
  /-- ILLEGAL: Executing an illegal word raises the ILLEGAL fault and freezes the core (R168) -/
  | illegal (u : Nat)
  /-- FADD: Fawn binary32 add (R171) -/
  | fadd (u : Nat) (d a b : Fin 32)
  /-- FSUB: Fawn binary32 subtract (R171) -/
  | fsub (u : Nat) (d a b : Fin 32)
  /-- FMUL: Fawn binary32 multiply (R171) -/
  | fmul (u : Nat) (d a b : Fin 32)
  /-- FMA: Fawn binary32 fused multiply-add with one rounding (R171) -/
  | fma (u : Nat) (d a b : Fin 32)
  /-- FDIV: Fawn binary32 divide (R171) -/
  | fdiv (u : Nat) (d a b : Fin 32)
  /-- FSQRT: Fawn binary32 square root (R171) -/
  | fsqrt (u : Nat) (d a : Fin 32)
  /-- FMIN: Fawn binary32 minimum (R171) -/
  | fmin (u : Nat) (d a b : Fin 32)
  /-- FMAX: Fawn binary32 maximum (R171) -/
  | fmax (u : Nat) (d a b : Fin 32)
  /-- FLT: Fawn binary32 less-than compare (R169) -/
  | flt (u : Nat) (d a b : Fin 32)
  /-- FEQ: Fawn binary32 equality compare (R169) -/
  | feq (u : Nat) (d a b : Fin 32)
  /-- FCVTIF: Fawn signed integer to binary32 conversion (R171) -/
  | fcvtif (u : Nat) (d a : Fin 32)
  /-- FCVTFI: Fawn binary32 to signed integer conversion, saturating (R171) -/
  | fcvtfi (u : Nat) (d a : Fin 32)
  /-- RECV: Fawn receive of the oldest token of a named tag from an input, waiting for it (R174) -/
  | recv (u : Nat) (d a : Fin 32) (v : Fin 8) (inp : Fin 4)
  /-- RECV_WAIT_LIMIT: A RECV that finds no token within RECV_LIMIT completes with a missing-token header and sets PZ (R176) -/
  | recvWaitLimit (u : Nat) (d a : Fin 32) (v : Fin 8) (inp : Fin 4)
  /-- RECVO: Fawn receive of the oldest token of any tag from an input (R175) -/
  | recvo (u : Nat) (d : Fin 32) (v : Fin 8) (inp : Fin 4)
  /-- SEND: Fawn build and send of a token to the local output register (R177) -/
  | send (u : Nat) (a b : Fin 32) (v : Fin 8)
  /-- RDHDR: Fawn read of the last received token's stream, format and kind (R169) -/
  | rdhdr (u : Nat) (d : Fin 32)
  /-- WLW: Fawn windowed word load from cluster SRAM (R180) -/
  | wlw (u : Nat) (d a : Fin 32) (win : Fin 8) (off : BitVec 13)
  /-- WLV: Fawn windowed 32-byte load from cluster SRAM (R180) -/
  | wlv (u : Nat) (vd : Fin 8) (a : Fin 32) (win : Fin 8) (off : BitVec 13)
  /-- VADD: Fawn lane-wise vector add (R169) -/
  | vadd (u : Nat) (vd va vb : Fin 8) (w : LaneW)
  /-- VSUB: Fawn lane-wise vector subtract (R169) -/
  | vsub (u : Nat) (vd va vb : Fin 8) (w : LaneW)
  /-- VMUL: Fawn lane-wise vector multiply (R169) -/
  | vmul (u : Nat) (vd va vb : Fin 8) (w : LaneW)
  /-- VMIN: Fawn lane-wise vector minimum (R169) -/
  | vmin (u : Nat) (vd va vb : Fin 8) (w : LaneW)
  /-- VMAX: Fawn lane-wise vector maximum (R169) -/
  | vmax (u : Nat) (vd va vb : Fin 8) (w : LaneW)
  /-- VAND: Fawn vector bitwise AND (R169) -/
  | vand (u : Nat) (vd va vb : Fin 8)
  /-- VOR: Fawn vector bitwise OR (R169) -/
  | vor (u : Nat) (vd va vb : Fin 8)
  /-- VXOR: Fawn vector bitwise XOR (R169) -/
  | vxor (u : Nat) (vd va vb : Fin 8)
  /-- VSHL: Fawn lane-wise shift left (R169) -/
  | vshl (u : Nat) (vd va : Fin 8) (sr : Fin 32) (w : LaneW)
  /-- VSHR: Fawn lane-wise arithmetic shift right (R169) -/
  | vshr (u : Nat) (vd va : Fin 8) (sr : Fin 32) (w : LaneW)
  /-- VCMPGT: Fawn lane-wise greater-than compare (R169) -/
  | vcmpgt (u : Nat) (vd va vb : Fin 8) (w : LaneW)
  /-- VSEL: Fawn vector bitwise select (R169) -/
  | vsel (u : Nat) (vd va vb : Fin 8)
  /-- VSPLAT: Fawn broadcast of a scalar to every lane (R169) -/
  | vsplat (u : Nat) (vd : Fin 8) (sr : Fin 32) (w : LaneW)
  /-- VGET: Fawn read of a vector lane into a scalar (R169) -/
  | vget (u : Nat) (sr : Fin 32) (va : Fin 8) (lane : Fin 8) (w : LaneW)
  /-- VPUT: Fawn write of a scalar into a vector lane (R169) -/
  | vput (u : Nat) (vd : Fin 8) (lane : Fin 8) (sr : Fin 32) (w : LaneW)
  /-- VUNPK8: Fawn unpack of bytes to 32-bit lanes minus a zero point (R169) -/
  | vunpk8 (u : Nat) (vd va : Fin 8) (part : Fin 4) (sr : Fin 32)
  /-- VUNPK4: Fawn unpack of nibbles to 32-bit lanes minus a zero point (R169) -/
  | vunpk4 (u : Nat) (vd va : Fin 8) (part : Fin 8) (sr : Fin 32)
  /-- VRMAX: Fawn largest lane of a vector (R172) -/
  | vrmax (u : Nat) (sr : Fin 32) (va : Fin 8) (w : LaneW)
  /-- VRSUM: Fawn sum of lanes in a fixed order (R172) -/
  | vrsum (u : Nat) (sr : Fin 32) (va : Fin 8) (w : LaneW)
  /-- VSORT: Fawn stable descending sort of lanes (R172) -/
  | vsort (u : Nat) (vd va : Fin 8) (w : LaneW)
  /-- VMERGE: Fawn merge taking the 8 largest of 16 lanes (R172) -/
  | vmerge (u : Nat) (vd va vb : Fin 8) (w : LaneW)
  /-- FAWN_NOP: Fawn no-operation (R169) -/
  | fawnNop (u : Nat)
  /-- RDTB: Fawn read of TB into two registers (R169) -/
  | rdtb (u : Nat) (d : Fin 32)
  /-- RDJOB: Fawn read of FAB_FC_JOB (R169) -/
  | rdjob (u : Nat) (d : Fin 32)
  /-- CADD: Fawn atomic add to a steward shared counter, returning its previous value (R183) -/
  | cadd (u : Nat) (d a : Fin 32) (n : Fin 16)
  /-- CRD: Fawn read of a steward shared counter (R169) -/
  | crd (u : Nat) (d : Fin 32) (n : Fin 16)
  /-- PZCLR: Fawn clear of the sticky poison bit (R178) -/
  | pzclr (u : Nat)
  /-- RDPZ: Fawn read of the sticky poison bit (R169) -/
  | rdpz (u : Nat) (d : Fin 32)
  /-- HALT: Fawn core stops in state halted (R169) -/
  | halt (u : Nat)
  /-- WAIT: Fawn timed idle of IMM + 1 cycles (R169) -/
  | wait (u : Nat) (imm : BitVec 16)
  /-- FAB_SC_CNT: A management write to a shared counter takes effect immediately, after same-cycle CADDs (R188) -/
  | fabScCnt (steward : Nat) (n : Fin 16) (value : Nat)
  /-- LOAD: The loader checks a full network image and stages it into a slot, or refuses it (R195) -/
  | load (hs : Nat)
  /-- BANK_LOAD: The loader checks and stages a bank image for a live slot (R195) -/
  | bankLoad (hs : Nat)
  /-- SHADOW_WRITE: At step 10 the loader writes the shadow state and golden copy, and the slot becomes STAGED (R195) -/
  | shadowWrite (slot : Fin 16)
  /-- UNLOAD: The host command stages an unload of a slot for the next commit (R203) -/
  | unload (hs : Nat)
  /-- PROMOTE: The host command stages promotion of the staged bank for the next commit (R206) -/
  | promote (hs : Nat)
  /-- CANCEL: The host command discards a staged load or staged bank (R203) -/
  | cancel (hs : Nat)
  /-- KEY_REGISTER: The host command registers a network-signing key read from the staging area (R192) -/
  | keyRegister (hs : Nat)
  /-- SLOT_DRAIN_END: Lnet + 20 cycles after an unload's C the slot becomes EMPTY and releases its resources (R203) -/
  | slotDrainEnd (slot : Fin 16)
  /-- SIG_REQUIRED: A write of NSL_CTRL.SIG_REQUIRED takes effect immediately, and a write of 0 is ignored once the field is 1 (R209) -/
  | sigRequired (value : Nat)
  /-- REF_START: The host command checks a job image and starts a refinement job (R215) -/
  | refStart (hs : Nat)
  /-- REF_CANCEL: The host command ends a job in ABORTED with CANCELLED (R338) -/
  | refCancel (hs : Nat)
  /-- SAMPLE_WRITE: The sampler copies a selected event's retained inputs into the slot's training ring as a sample record (R213) -/
  | sampleWrite (slot : Fin 16)
  /-- SAMPLE_DROP: A sample that the memory controller cannot accept within 4,096 cycles of selection is dropped (R212) -/
  | sampleDrop (slot : Fin 16)
  /-- JOB_STEP_START: A job step starts once the required clusters have joined (R217) -/
  | jobStepStart (job : Fin 8)
  /-- JOB_STEP_END: A job step ends at its boundary, where clusters may join or leave (R218) -/
  | jobStepEnd (job : Fin 8) (grads : List (List (List Word))) (consts : List (Nat × Nat × Nat) := [])
  /-- JOB_STEP_ABANDON: A step longer than NSL_JOB_LIMIT.CYCLES is abandoned and run again (R218) -/
  | jobStepAbandon (job : Fin 8)
  /-- ROW_WAIT_EXPIRY: A row still missing blocks closes as partial ROW_WAIT cycles after its first conversion (R232) -/
  | rowWaitExpiry (group : Fin 64)
  /-- TRIG_EDGE: A falling edge on a trigger-bus line is time-stamped, compensated and pulses its term (R239) -/
  | trigEdge (line : Fin 8) (edge : Nat)
  /-- COINCIDENCE_FIRE: A coincidence unit sees a fresh delayed pulse and fires when enough inputs hit and no veto applies (R240) -/
  | coincidenceFire (unit : Fin 128)
  /-- LINE_DRIVE_END: A trigger-line drive ends WIDTH cycles after the last firing (R238) -/
  | lineDriveEnd (line : Fin 8)
  /-- GROUP_REARM: A group in WAIT becomes ARMED at the latest of hold-off end, the re-arm time and pre-copy completion (R242) -/
  | groupRearm (group : Fin 64)
  /-- PRE_COPY: The pre-trigger rows and the trigger row are copied from the ring into the segment (R245) -/
  | preCopy (group : Fin 64)
  /-- ROW_WRITE: A stored row is written when credit, queue room and arbitration allow, or is lost (R249) -/
  | rowWrite (group : Fin 64)
  /-- CREDIT_REFILL: Every 64 cycles each group's write credit gains SHARE bytes, up to BURST (R249) -/
  | creditRefill
  /-- SEGMENT_COMPLETE: A segment becomes COMPLETE, and its header and table entry are written (R247) -/
  | segmentComplete (seq : Nat)
  /-- SEGMENT_RELEASE: A host write of SPB_SEG.RD releases segments, clamped at the first entry not COMPLETE (R246) -/
  | segmentRelease (value : Nat)
  /-- SPB_FORCE: A write of SPB_FORCE.TERM pulses the chosen host terms (R253) -/
  | spbForce (value : Nat)
  /-- ARM: SPB_GCMDn.ARM arms a STOPPED group with empty history and clears MASK_FAIL (R241) -/
  | arm (group : Fin 64)
  /-- STOP: SPB_GCMDn.STOP stops the group and truncates any capture in progress (R241) -/
  | stop (group : Fin 64)
  /-- SPB_ENV_LO: A write stores the low half of the addressed envelope point into the staged copy immediately (R253) -/
  | spbEnvLo (value : Nat)
  /-- SPB_ENV_HI: A write stores the high half of the addressed envelope point into the staged copy immediately (R253) -/
  | spbEnvHi (value : Nat)
  /-- RESTORE_REQUEST: A listed word's restore request enters the device-wide restore queue when an entry is free, and asks for RESTORE leave (R264) -/
  | restoreRequest (steward : Nat)
  /-- RESTORE_WRITE: The golden word returns and is written into cluster SRAM in a free port cycle (R264) -/
  | restoreWrite (steward : Nat)
  /-- RETENTION_WRITE: A retention entry queued at an event's ingress mark is written to the retention ring (R266) -/
  | retentionWrite
  /-- REFRESH: The controller refreshes the stack banks at the rate set by the base-die temperature (R268) -/
  | refresh (deg : Nat)
  /-- SCRUB_PASS: With leave granted, scrub reads the next 1 MiB of the stack and writes back corrected words (R269) -/
  | scrubPass (found : List (Nat × WordError) := [])
  /-- CLASS_CREDIT: Every 1,024 cycles each traffic class gains its LIMIT of credit (R270) -/
  | classCredit
  /-- MEM_FIRST_UE_REARM: Writing 1 to MEM_FIRST_UE.VALID re-arms the capture of the first uncorrectable word (R272) -/
  | memFirstUeRearm
  /-- LANE_LOCK: A lane declares lock after 64 consecutive valid headers (R278) -/
  | laneLock (port : Fin 16) (lane : Fin 8) (rx : List Nat := [])
  /-- LANE_LOCK_LOSS: A locked lane loses lock when 16 of its last 64 headers are invalid (R278) -/
  | laneLockLoss (port : Fin 16) (lane : Fin 8) (rx : List Nat := [])
  /-- LOS_ASSERT: Loss of signal asserts after 1 µs below −14 dBm, and an UP port returns to TRAINING (R281) -/
  | losAssert (port : Fin 16) (lane : Fin 8)
  /-- LOS_CLEAR: Loss of signal clears after 10 µs above −12 dBm, which also takes a DEEP port to TRAINING (R281) -/
  | losClear (port : Fin 16) (lane : Fin 8)
  /-- MARKER: A MARKER row is received and used for lane alignment, scrambler sync and partner checks (R279) -/
  | marker (port : Fin 16) (row : List MarkerLane)
  /-- TRAIN_TIMEOUT: T_TRAIN expires, and the port enters DARK (R282) -/
  | trainTimeout (port : Fin 16)
  /-- MARKER_TIMEOUT: No valid MARKER row for 4 marker periods returns an UP port to TRAINING (R282) -/
  | markerTimeout (port : Fin 16)
  /-- DARK_RETRY: T_RETRY after entering DARK the port restarts TRAINING (R282) -/
  | darkRetry (port : Fin 16)
  /-- OPX_PCTRL_EN: A write of OPX_PCTRLp.EN enables a port into TRAINING or disables it (R282) -/
  | opxPctrlEn (port : Fin 16) (en : Bool)
  /-- DEEP: A write of OPX_PCTRLp.DEEP = 1 requests DEEP, which is entered or denied (R284) -/
  | deep (port : Fin 16) (value : Bool)
  /-- DEEP_TIMEOUT: The replay buffer fails to empty within 1 ms, or no LPI arrives within 10 µs, and the DEEP request is denied (R284) -/
  | deepTimeout (port : Fin 16)
  /-- LPI: LPI blocks are received, and the port answers or completes entry to DEEP (R284) -/
  | lpi (port : Fin 16) (blocks : Nat)
  /-- IDLE: An IDLE frame is received, and a bad IDLE byte is a violation (R286) -/
  | idle (port : Fin 16) (express : Bool) (byte : Nat)
  /-- TOKEN: A TOKEN frame received on a peer port is written to its receive window (R288) -/
  | token (port : Fin 16) (f : Frame)
  /-- VERDICT: A VERDICT frame received on a peer port is written to the peer verdict ring (R273) -/
  | verdict (port : Fin 16) (f : Frame)
  /-- VOID: A VOID frame received on a peer port is written to the peer verdict ring (R273) -/
  | void (port : Fin 16) (f : Frame)
  /-- ACK: A CTRL ACK is received, and acknowledged frames leave the replay buffer (R291) -/
  | ack (port : Fin 16) (f : Frame)
  /-- RETRY: A CTRL RETRY is received, and the port resends the named stream from the named SEQ (R292) -/
  | retry (port : Fin 16) (f : Frame)
  /-- NAK: A CTRL NAK is received and its reason recorded (R295) -/
  | nak (port : Fin 16) (f : Frame)
  /-- ACK_TIMER: 64 cycles after the first unacknowledged frame, the receiver sends a CTRL ACK (R291) -/
  | ackTimer (port : Fin 16)
  /-- RETRY_REPEAT: The receiver repeats its RETRY every 512 cycles until the expected SEQ arrives (R291) -/
  | retryRepeat (port : Fin 16)
  /-- OPX_LCTRL: A write of OPX_LCTRLl sets pattern, checker, loopback, injection or DFE freeze immediately, where the port state allows (R296) -/
  | opxLctrl (port : Fin 16) (lane : Fin 8) (mask value : Nat)
  /-- ERROR_INJECTION: Every INJ_INTERVAL blocks the lane injects one error of the selected mode (R296) -/
  | errorInjection (port : Fin 16) (lane : Fin 8)
  /-- TB_INC: A write of TB_INC sets the rate, or is refused when out of range (R300) -/
  | tbInc (value : Nat)
  /-- REFCLK_LOSS: No REFCLK edge for 1 µs sets REF_LOST and raises an ALARM-class record (R300) -/
  | refclkLoss
  /-- STEP_ADD: GO with MODE ADD adds a signed value to TB and raises a WARN-class record (R301) -/
  | stepAdd
  /-- STEP_SET_PPS: GO with MODE SET_PPS arms a load of TB at the next accepted PPS edge (R301) -/
  | stepSetPps
  /-- PPS_EDGE: A PPS rising edge is accepted or rejected as a glitch, captures TB and completes a pending SET_PPS step (R304) -/
  | ppsEdge (ago32 : Nat)
  /-- PPS_LOSS: No accepted PPS edge for 1.1 s clears PPS_PRESENT (R304) -/
  | ppsLoss
  /-- SOFT: A write of TB_CAPCTL.SOFT captures TB in that cycle (R304) -/
  | soft
  /-- SYNC: A SYNC TIME frame is accepted, recorded, refused as a second master, or recorded for discovery (R311) -/
  | sync (port : Fin 16) (f : Frame) (ago32 : Nat)
  /-- PDELAY_REQ: A PDELAY_REQ is received and answered with a PDELAY_RESP (R309) -/
  | pdelayReq (port : Fin 16) (f : Frame) (ago32 : Nat)
  /-- PDELAY_RESP: A received PDELAY_RESP is recorded in the TIME receive ring (R310) -/
  | pdelayResp (port : Fin 16) (f : Frame) (ago32 : Nat)
  /-- TB_MASTER: A write of TB_MASTER moves the timebase to MASTER, NONE or HOLDOVER (R312) -/
  | tbMaster (value : Nat)
  /-- HOLDOVER: TIMEOUT after the last accepted SYNC moves FOLLOWING to HOLDOVER (R312) -/
  | holdover
  /-- ACTION_ARM: A write of ARM = 1 checks the slot and arms it, fires it late or refuses it (R313) -/
  | actionArm (slot : Fin 128) (value : Nat)
  /-- ACTION_DISARM: A write of ARM = 0 disarms the slot (R316) -/
  | actionDisarm (slot : Fin 128)
  /-- ACTION_FIRE: An armed slot fires when TB reaches its target and performs its kind's action (R314) -/
  | actionFire (slot : Fin 128)
  /-- PULSE_END: A PULSE pin returns inactive WIDTH cycles after its edge (R317) -/
  | pulseEnd (pin : Fin 4)
  /-- ACT: The LPDDR5 ACT command opens a row of a bank (R320) -/
  | act (ch : Fin 2) (bank : Fin 16) (row : Nat)
  /-- RD16: The LPDDR5 RD16 command returns 32 bytes at the programmed read latency (R322) -/
  | rd16 (ch : Fin 2) (bank : Fin 16) (col : Nat)
  /-- RD32: The LPDDR5 RD32 command returns 64 bytes at the programmed read latency (R322) -/
  | rd32 (ch : Fin 2) (bank : Fin 16) (col : Nat)
  /-- WR16: The LPDDR5 WR16 command writes 32 bytes into the window (R320) -/
  | wr16 (ch : Fin 2) (bank : Fin 16) (col : Nat) (data : List Nat)
  /-- WR32: The LPDDR5 WR32 command writes 64 bytes into the window (R320) -/
  | wr32 (ch : Fin 2) (bank : Fin 16) (col : Nat) (data : List Nat)
  /-- MWR: The LPDDR5 masked write command (R320) -/
  | mwr (ch : Fin 2) (bank : Fin 16) (col : Nat) (data : List Nat) (mask : Nat)
  /-- PREPB: The LPDDR5 per-bank precharge command (R320) -/
  | prepb (ch : Fin 2) (bank : Fin 16)
  /-- PREAB: The LPDDR5 all-bank precharge command (R320) -/
  | preab (ch : Fin 2)
  /-- REFAB: The LPDDR5 all-bank refresh command makes the channel's banks unavailable for 280 ns (R324) -/
  | refab (ch : Fin 2)
  /-- REFPB: The LPDDR5 per-bank refresh command makes its bank unavailable for 140 ns (R324) -/
  | refpb (ch : Fin 2) (bank : Fin 16)
  /-- RFM: The LPDDR5 refresh-management command (R320) -/
  | rfm (ch : Fin 2) (bank : Fin 16)
  /-- CAS: The LPDDR5 CAS command synchronises WCK (R320) -/
  | cas (ch : Fin 2) (op : CasOp)
  /-- MRW: The LPDDR5 mode-register write command (R323) -/
  | mrw (ch : Fin 2) (mr value : Nat)
  /-- MRR: The LPDDR5 mode-register read command (R323) -/
  | mrr (ch : Fin 2) (mr : Nat)
  /-- MPC: The LPDDR5 multi-purpose command for calibration and FIFO access (R320) -/
  | mpc (ch : Fin 2) (op : MpcOp)
  /-- SRE: The LPDDR5 self-refresh entry command (R324), with deep sleep or without -/
  | sre (ch : Fin 2) (deep : Bool := false)
  /-- SRX: The LPDDR5 self-refresh exit command (R324) -/
  | srx (ch : Fin 2)
  /-- PDE: The LPDDR5 power-down entry command (R324) -/
  | pde (ch : Fin 2)
  /-- PDX: The LPDDR5 power-down exit command (R324) -/
  | pdx (ch : Fin 2)
  /-- SLOT_SCAN: Control core 0 scans the command slots and takes each complete new packet (R333) -/
  | slotScan
  /-- NOP: The host command returns a copy of its parameters (R338) -/
  | nop (hs : Nat)
  /-- REG_READ: The host command reads up to 28 register words (R340) -/
  | regRead (hs : Nat)
  /-- REG_WRITE: The host command checks and then applies up to 9 masked register writes, or applies none (R340) -/
  | regWrite (hs : Nat)
  /-- THAW: The host command thaws a frozen master (R338) -/
  | thaw (hs : Nat)
  /-- MOVE: The host command copies data within the device or sends it on a port (R341) -/
  | move (hs : Nat)
  /-- MOVER_DISPATCH: A waiting MOVE or staging command starts on a memory mover once fewer than 4 are running (R336) -/
  | moverDispatch
  /-- MOVER_DONE: A memory mover completes its command, and the reply is written (R336) -/
  | moverDone (mover : Fin 4)
  /-- STAGE_MAP: The host command makes staging pages RESIDENT, loaded from the stack or zeroed (R343) -/
  | stageMap (hs : Nat)
  /-- STAGE_FLUSH: The host command writes DIRTY staging pages to the stack (R343) -/
  | stageFlush (hs : Nat)
  /-- STAGE_RELEASE: The host command flushes staging pages and makes them ABSENT (R343) -/
  | stageRelease (hs : Nat)
  /-- ACT_ARM: The host command writes and arms a timebase action slot (R338) -/
  | actArm (hs : Nat)
  /-- RESET_ASSERT: RESETn falls, and the device enters reset with outputs in their reset states (R459) -/
  | resetAssert
  /-- RESET_RELEASE: The device leaves internal reset, samples the straps and starts the ROM (R452) -/
  | resetRelease (bootSrc : Nat) (devMode : Bool)
  /-- UNDERVOLTAGE: A monitored rail below its minimum for 2 µs forces the reset state (R454) -/
  | undervoltage
  /-- THERMAL_TRIP: The analogue trip at 130 °C forces reset and drives SHDN_REQn low (R460) -/
  | thermalTrip
  /-- JUNCTION_COLD: Below 0 °C the device holds itself in internal reset until the junction reaches 5 °C (R462) -/
  | junctionCold
  /-- BOOT_HELPER: The ROM command restores the device identity from the helper data (R349) -/
  | bootHelper
  /-- BOOT_ENROL: The ROM command enrols a new identity and writes new helper data (R350) -/
  | bootEnrol
  /-- BOOT_DEVKEY: The ROM command registers a development signing key in development mode (R361) -/
  | bootDevkey
  /-- BOOT_CHUNK: The ROM command consumes the next chunk of a firmware image and verifies it (R354) -/
  | bootChunk
  /-- FW_STAGE: The firmware command stages a candidate image and checks its header (R356) -/
  | fwStage (hs : Nat)
  /-- FW_VERIFY: The firmware command verifies the candidate's body and writes it to the spare banks (R356) -/
  | fwVerify (hs : Nat)
  /-- FW_ACTIVATE: The firmware command waits for a quiescent point to switch to the candidate (R356) -/
  | fwActivate (hs : Nat)
  /-- BANK_SWITCH: At a quiescent point the SEC engine switches both control cores to the other instruction banks (R357) -/
  | bankSwitch
  /-- QUIESCE_TIMEOUT: No quiescent point within QUIESCE_MS ends the activation with FW_BUSY (R356) -/
  | quiesceTimeout
  /-- FW_CONFIRM: The firmware command confirms the activated image with its nonce (R356) -/
  | fwConfirm (hs : Nat)
  /-- FW_ABORT: The firmware command discards the candidate or reverts an activation (R356) -/
  | fwAbort (hs : Nat)
  /-- CONFIRM_TIMEOUT: CONFIRM_MS elapses without confirmation and a revert is requested (R356) -/
  | confirmTimeout
  /-- REVERT: At a quiescent point both control cores switch back to the previous banks (R358) -/
  | revert
  /-- FORCED_REVERT: No quiescent point within 10 ms forces the revert at the next instruction boundary (R358) -/
  | forcedRevert
  /-- ATTEST: The command makes the SEC engine sign an attestation report (R360) -/
  | attest (hs : Nat)
  /-- CHECK_POST: A failed check's CHECK token reaches the slot's check collector (R368) -/
  | checkPost (slot : Fin 16) (post : Option CheckPost)
  /-- SEQ_MISMATCH: A duplicated-sequencer mismatch is detected, and in a control core it halts the core and starts the drain (R389) -/
  | seqMismatch (unit : Nat) (block : Bool)
  /-- REPLAY_START: The head replay request starts on an idle spare site once its leave is granted (R374) -/
  | replayStart
  /-- REPLAY_COMPLETE: A replay finishes with its replayed result, or with a reason for having none (R377) -/
  | replayComplete (region : Fin 8) (r : ReplayResult)
  /-- REPLAY_LIMIT: A replay with no result by validation + REPLAY_LIMIT ends with reason LIMIT (R378) -/
  | replayLimit
  /-- LATE_CORRECTED: The verdict unit issues the corrected entry to the ports that carried the voided verdict (R381) -/
  | lateCorrected (slot : Fin 16)
  /-- DECIDE_TIMEOUT: The host's decision time expires, and the fault drain starts (R388) -/
  | decideTimeout
  /-- INT_DRAIN: The host command starts the fault drain (R397) -/
  | intDrain (hs : Nat)
  /-- INT_REMAP: The host command checks and stages a remap of a cluster to its region's spare site (R392) -/
  | intRemap (hs : Nat)
  /-- INT_INJECT: The host command makes a unit's next checks of a class fail as injected (R397) -/
  | intInject (hs : Nat)
  /-- SIGNATURE_WRITE: A failure signature is written to the signature ring (R395) -/
  | signatureWrite
  /-- COMPARE: A COMPARE frame from the lock-step partner is received and its entries are matched and resolved (R410) -/
  | compare (port : Fin 16) (f : Frame)
  /-- LOCK_TIMEOUT: An entry unmatched for TIMEOUT µs makes its event diverge as MISSING (R411) -/
  | lockTimeout
  /-- CHIP_LOCK_DIV0_REARM: Writing 1 to CHIP_LOCK_DIV0.VALID re-arms the divergence capture (R413) -/
  | chipLockDiv0Rearm
  /-- LEAVE_REQUEST: Background work asks for leave in its class (R421) -/
  | leaveRequest (cls : Nat) (req : Nat) (region : Option Nat) (work : Nat)
  /-- LEAVE_ROUND: Every 16 cycles the leave arbiter grants pending requests in order until one does not fit (R422) -/
  | leaveRound
  /-- LEAVE_RELEASE: Work that ends releases its grant (R421) -/
  | leaveRelease (cls : Nat) (req : Nat)
  /-- THERMAL_SAMPLE: Every 10 µs the sensors are sampled and the thermal level is updated (R425) -/
  | thermalSample (readings : List SensorReading)
  /-- THM_RESUME: The host command ends the thermal drain when Tj is below 110 °C (R427) -/
  | thmResume (hs : Nat)
  /-- LV_QUERY: The host command returns the free, reserved and granted leave and the thermal level (R428) -/
  | lvQuery (hs : Nat)
  /-- THM_PEAK_CLEAR: Writing 1 to THM_PEAK clears the recorded peak Tj (R429) -/
  | thmPeakClear
  /-- LOG_WRITE: Every 16 cycles the collector writes one record from the intake to its ring (R432) -/
  | logWrite
  /-- SUMMARY: A SUMMARY record of suppressed records enters the intake (R436) -/
  | summary (cls : Nat)
  /-- LOG_ALARM: A write of LOG_ALARM.ACK acknowledges ALARM records (R437) -/
  | logAlarm (value : Nat)
  /-- LOG_ALARM_ACK: The host command acknowledges ALARM records (R439) -/
  | logAlarmAck (hs : Nat)
  /-- LOG_MARK: The host command writes an INFO record HOST_MARK (R439) -/
  | logMark (hs : Nat)
  /-- ID: The monitor command returns the identity block (R441) -/
  | id
  /-- BAUD: The monitor command changes the serial rate (R440) -/
  | baud (rate : Nat)
  /-- BAUD_TIMEOUT: No valid command within 5 s at the new rate returns the monitor to 115,200 baud (R440) -/
  | baudTimeout
  /-- PEEK: The monitor command reads words from an internal address (R442) -/
  | peek (addr count : Nat)
  /-- POKE: The monitor command makes a masked write in development mode (R442) -/
  | poke (addr mask value : Nat)
  /-- LOG: The monitor command returns the newest records of a class (R441) -/
  | log (cls n : Nat)
  /-- FAULTS: The monitor command returns the newest 256 FAULT records (R441) -/
  | faults
  /-- FROZEN: The monitor command lists frozen or halted masters (R441) -/
  | frozen
  /-- INSPECT: The monitor command returns the kept state of a frozen or halted master (R443) -/
  | inspect (master : Nat)
  /-- MON_THAW: The monitor command thaws a master, as THAW does (R441) -/
  | monThaw (master : Nat)
  /-- HELPER: The monitor command takes helper data in SERIAL boot and acts as BOOT_HELPER (R355) -/
  | helper (bytes : List Nat) (crc : Nat)
  /-- ENROL: The monitor command enrols a new identity in SERIAL boot (R355) -/
  | enrol
  /-- DEVKEY: The monitor command registers a development key in SERIAL boot (R441) -/
  | devkey (bytes : List Nat) (crc : Nat)
  /-- IMAGE: The monitor command takes and verifies a whole firmware image in SERIAL boot (R444) -/
  | image (length : Nat) (bytes : List Nat) (crc : Nat)
  /-- STEWARD_SCRUB: The cluster steward reads cluster SRAM for ECC scrub in port cycles the placement leaves free, and an uncorrectable word it finds enters the restore list (R17) -/
  | stewardScrub (steward : Nat) (found : WordError := .none)
  /-- MARKER_ROW_SEND: Every 16,384 rows each enabled port sends a MARKER block on all eight lanes, resets its lane scramblers and advances MCOUNT (R279) -/
  | markerRowSend (port : Fin 16)
  /-- TOKEN_BUFFER_ROOM: A peer receiver whose TOKEN write buffer was full gains room as its writes complete and sends the RETRY for the discarded frame (R294) -/
  | tokenBufferRoom (port : Fin 16)
  /-- TB_REF_LOST_CLEAR: Writing 1 to the W1C field TB_STATE.REF_LOST clears the recorded REFCLK loss (R318) -/
  | tbRefLostClear
  /-- BOOT_REVERTED_CLEAR: Writing 1 to the W1C field BOOT_FWSTAT.REVERTED clears the revert indication (R362) -/
  | bootRevertedClear
  /-- TRIP_RELEASE: Once the analogue trip reads below 120 °C and RESETn has been low for 10 µs, the device releases SHDN_REQn (R460) -/
  | tripRelease
  deriving DecidableEq, Repr

end Sys2Proof
end

