-- ==== Sys2Proof/Decode.lean ====
section
/-! DEFINITION. The opcode table gives its rows no bits, so no word spells a command of the block. -/
namespace Sys2Proof

/-- The command that a word spells by the table's bits: none, since every row of the table has an empty field list. -/
def decodeTableWord (_nbits _w : Nat) : Option Instr := none

end Sys2Proof
end

