-- ==== Sys2Proof/Config.lean ====
section
/-! DEFINITION. What the manual leaves open or computes by functions it only names: constants without a body, so that no
proof sees a value of them. Each is named in the assumption log. -/
namespace Sys2Proof.Config

/-- Free values: each draw is numbered by the state's own counter (State.freeIdx). [DESIGN CHOICE, log 12] -/
opaque freeValue : Nat → Nat

/-- The value, in units of 2^−6 base units, of a weight that the loader would have refused: an escape without a legal
side-list entry, or a channel exponent outside the expander's window (R119, R121). [DESIGN CHOICE, log 13] -/
opaque strayWeight : (descriptor row col : Nat) → Int

/-- Falcon-1024 verification of a signature over a message under a public key (R192, R353): the manual names the scheme. [DESIGN CHOICE, log 14] -/
opaque falconVerify : (key msg sig : List Nat) → Bool

/-- The Falcon-1024 signature of a message under the key pair derived from a seed (R360). [DESIGN CHOICE, log 14] -/
opaque falconSign : (seed msg : List Nat) → List Nat

/-- The Falcon-1024 public key derived from the device seed (R349). [DESIGN CHOICE, log 14] -/
opaque falconPublic : (seed : List Nat) → List Nat

/-- Whether 1,793 bytes are a valid Falcon-1024 public key (Status KEY_FORMAT). -/
opaque falconKeyValid : (key : List Nat) → Bool

/-- The ML-KEM-1024 public key derived from the device seed (R349). -/
opaque kemPublic : (seed : List Nat) → List Nat

/-- The shared secret an ML-KEM-1024 ciphertext carries for the key pair of a seed (R352). -/
opaque kemDecaps : (seed ct : List Nat) → List Nat

/-- AES-256-GCM decryption of a body: the plaintext, or none when the tag fails (R352). -/
opaque aesGcmOpen : (key iv aad ct tag : List Nat) → Option (List Nat)

/-- RFC 3394 key unwrapping: the key, or none when its check fails (R352). -/
opaque keyUnwrap : (kek wrapped : List Nat) → Option (List Nat)

/-- The seed that the fingerprint array and CODE_OFFSET reconstruct: none when they do not decode (R349). [DESIGN CHOICE, log 15] -/
opaque pufRestore : (codeOffset : List Nat) → Option (List Nat)

/-- The 64-byte seed that the entropy source gives at an enrolment, by the number of the draw (R350). [DESIGN CHOICE, log 15] -/
opaque pufSeed : (draw : Nat) → List Nat

/-- The 3,968 bytes of CODE_OFFSET that an enrolment writes for a seed (R350). [DESIGN CHOICE, log 15] -/
opaque pufOffset : (seed : List Nat) → List Nat

/-- The public key that mask ROM holds for a signer identifier, if it holds one (R351). [DESIGN CHOICE, log 16] -/
opaque romKey : (signer : Nat) → Option (List Nat)

/-- Requests of the acquisition queue that the memory controller serves in a cycle: the manual bounds averages only (R249, R271).
[DESIGN CHOICE, log 73] -/
opaque acqServed : (cycle : Nat) → Nat

/-- The 60 tap bits of a lane's equaliser while it adapts, by the lane and the cycle: the manual gives no signal they follow from
(R280). [DESIGN CHOICE, log 81] -/
opaque dfeTaps : (lane cycle : Nat) → Nat

/-- The engine whose pass a tensor id of an image names (R140): ids are the image's own, and the manual gives no table of them.
[DESIGN CHOICE, log 71] -/
opaque tensorUnit : (digest : List Nat) → (tensor : Nat) → Nat

/-- Whether a placement leaves every cluster-SRAM port a free cycle in every 16 (R265), by the digest that names its image: the manual
gives neither the ports nor their use. [DESIGN CHOICE, log 65] -/
opaque sramPortsFree : (digest : List Nat) → Bool

/-- The snapshot directory that the firmware image of an FW_ID writes at start-up: BASE, page index and LEN of each entry (R328). [DESIGN CHOICE, log 16] -/
opaque snapDirectory : (fwId : Nat) → List (Nat × Nat × Nat)

/-- The microcode constant that BOOT_STATE.ROM_VERSION reads (R362). [DESIGN CHOICE, log 11] -/
opaque romVersion : Nat

end Sys2Proof.Config
end

