-- ==== Sys2Proof/Machine/FawnCode.lean ====
section
/-! DEFINITION. The encoding of fawn instruction words as far as legality and the loader's scans need it (R167 to R169,
R173): which fields a word uses, which must be zero, which words are marked V. -/
namespace Sys2Proof.Machine
open Sys2Proof

/-- Fields D, A and B that an RR word of an opcode and FN uses; none where the pair is not listed (Table "Instruction set"). -/
def rrFields (op fn : Nat) : Option (Bool × Bool × Bool) :=
  match op with
  | 0x01 =>
    if fn ≤ 0x00B || (0x010 ≤ fn && fn ≤ 0x012) || (0x014 ≤ fn && fn ≤ 0x017) then some (true, true, true)
    else if fn == 0x00C || fn == 0x00D then some (true, true, false)
    else none
  | 0x20 =>
    if fn ≤ 0x004 || (0x006 ≤ fn && fn ≤ 0x009) then some (true, true, true)
    else if fn == 0x005 || fn == 0x00A || fn == 0x00B then some (true, true, false)
    else none
  | 0x38 =>
    if fn == 0x000 || fn == 0x006 || fn == 0x008 then some (false, false, false)
    else if fn == 0x002 || fn == 0x003 || fn == 0x007 then some (true, false, false)
    else if fn == 0x004 then some (true, true, true)
    else if fn == 0x005 then some (true, false, true)
    else none
  | _ => none

/-- A field is used or zero. -/
def usedOr0 (used : Bool) (v : Nat) : Bool := used || v == 0

/-- Legality of an RR word. -/
def rrLegal (op w : Nat) : Bool :=
  let fn := bits w 21 11
  let d := bits w 6 5
  let b := bits w 16 5
  match rrFields op fn with
  | none => false
  | some (ud, ua, ub) =>
    usedOr0 ud d && usedOr0 ua (bits w 11 5) && usedOr0 ub b
      && (!(op == 0x38 && fn == 0x002) || (d % 2 == 0 && d != 0))
      && (!(op == 0x38 && (fn == 0x004 || fn == 0x005)) || b < 16)

/-- Legality of an RI or ST or BR word: opcodes 0x02 to 0x0C, 0x10 to 0x16, 0x18 to 0x1F, 0x3A. -/
def riLegal (op w : Nat) : Bool :=
  let d := bits w 6 5
  let a := bits w 11 5
  let imm := bits w 16 16
  if op == 0x07 || op == 0x1E then a == 0
  else if op == 0x3A then d == 0 && a == 0
  else if op == 0x08 || op == 0x09 || op == 0x0A then imm < 32
  else if op == 0x0B || op == 0x0C then imm < 1024 && bits imm 0 5 + bits imm 5 5 + 1 ≤ 32
  else if op == 0x13 || op == 0x16 then d < 8
  else (0x02 ≤ op && op ≤ 0x0C) || (0x10 ≤ op && op ≤ 0x16) || (0x18 ≤ op && op ≤ 0x1F)

/-- Legality of a TK word, its input checked against the unit's INPUTS (R168, R174 to R177). -/
def tkLegal (w inputs : Nat) : Bool :=
  let d := bits w 6 5
  let a := bits w 11 5
  let b := bits w 16 5
  let v := bits w 21 3
  let inp := bits w 24 2
  match bits w 26 6 with
  | 0x00 => b == 0 && bitAt inputs inp
  | 0x01 => a == 0 && b == 0 && bitAt inputs inp
  | 0x02 => d == 0 && inp == 0
  | 0x03 => a == 0 && b == 0 && v == 0 && inp == 0
  | _ => false

/-- Lane widths a vector operation allows, and which of VD, VA, VB and S it uses. -/
def vvFields (op : Nat) : Option (List Nat × Bool × Bool × Bool × Bool) :=
  if op ≤ 0x007 || op == 0x00A then some ([0, 1, 2, 3], true, true, true, false)
  else if op == 0x008 || op == 0x009 then some ([0, 1, 2], true, true, false, true)
  else if op == 0x00B then some ([0], true, true, true, false)
  else if op == 0x010 then some ([0, 1, 2, 3], true, false, false, true)
  else if op == 0x011 then some ([0, 1, 2, 3], false, true, true, true)
  else if op == 0x012 then some ([0, 1, 2, 3], true, false, true, true)
  else if op == 0x018 || op == 0x019 then some ([0], true, true, true, true)
  else if op == 0x020 || op == 0x021 then some ([0, 1, 2, 3], false, true, false, true)
  else if op == 0x028 then some ([0, 3], true, true, false, false)
  else if op == 0x029 then some ([0, 3], true, true, true, false)
  else none

/-- Legality of a VV word. -/
def vvLegal (w : Nat) : Bool :=
  let op := bits w 23 9
  let vb := bits w 12 3
  match vvFields op with
  | none => false
  | some (ws, ud, ua, ub, us) =>
    !bitAt w 15 && ws.contains (bits w 21 2)
      && usedOr0 ud (bits w 6 3) && usedOr0 ua (bits w 9 3) && usedOr0 ub vb && usedOr0 us (bits w 16 5)
      && (!(op == 0x018) || vb < 4)

/-- Whether a program word is legal for a core with the given configured inputs (R168). -/
def fawnLegal (inputs w : Nat) : Bool :=
  let op := bits w 0 6
  if op == 0x01 || op == 0x20 || op == 0x38 then rrLegal op w
  else if op == 0x28 then tkLegal w inputs
  else if op == 0x2C then true
  else if op == 0x2D then bits w 9 2 == 0
  else if op == 0x30 then vvLegal w
  else riLegal op w

/-- A word marked V (R173): RDTB, RDJOB, CADD, CRD. -/
def fawnVariant (w : Nat) : Bool := bits w 0 6 == 0x38 && (0x002 ≤ bits w 21 11 && bits w 21 11 ≤ 0x005)

/-- A RECV word, to which RECV_LIMIT applies (R176). -/
def fawnIsRecv (w : Nat) : Bool := bits w 0 6 == 0x28 && bits w 26 6 == 0

end Sys2Proof.Machine
end

