-- ==== Sys2Proof/Machine/FawnFp.lean ====
section
/-! DEFINITION. Binary32 arithmetic with rounding to nearest, ties away from zero (R171), computed exactly on integers. -/
namespace Sys2Proof.Machine
open Sys2Proof

/-- A binary32 operand: the value is m × 2^e with a sign. -/
inductive F32 where
  | nan
  | inf (neg : Bool)
  | fin (neg : Bool) (m : Nat) (e : Int)
  deriving DecidableEq, Repr

/-- The NaN every operation produces (R171). -/
def fNaN : Word := 0x7FC00000

/-- Read 32 bits as binary32. -/
def fDec (w : Word) : F32 :=
  let x := w.toNat
  let neg := bitAt x 31
  let ex := bits x 23 8
  let fr := bits x 0 23
  if ex = 255 then (if fr = 0 then .inf neg else .nan)
  else if ex = 0 then .fin neg fr (-149)
  else .fin neg (fr + 2 ^ 23) ((ex : Int) - 150)

/-- A sign over 31 magnitude bits. -/
def fSign (neg : Bool) (mag : Nat) : Word := BitVec.ofNat 32 (mag + if neg then 2 ^ 31 else 0)

/-- The binary32 value nearest to m × 2^e, ties away from zero, with subnormals kept and overflow to infinity (R171). Lower
bits cut off from m do not matter to this rounding once m has 26 significant bits. -/
def fRound (neg : Bool) (m : Nat) (e : Int) : Word :=
  if m = 0 then fSign neg 0
  else
    let top : Int := (Nat.log2 m : Int) + e
    let q : Int := if top < -126 then -149 else top - 23
    let mant : Nat :=
      if q ≤ e then m * 2 ^ (e - q).toNat
      else
        let t := (q - e).toNat
        (m + 2 ^ (t - 1)) / 2 ^ t
    let mag := (q + 149).toNat * 2 ^ 23 + mant
    fSign neg (min mag 0x7F800000)

/-- Sum of two exact values; an exact zero of unlike signs is +0. -/
def fAddFin (n1 : Bool) (m1 : Nat) (e1 : Int) (n2 : Bool) (m2 : Nat) (e2 : Int) : Word :=
  let e := if e1 < e2 then e1 else e2
  let a : Int := (m1 * 2 ^ (e1 - e).toNat : Nat)
  let b : Int := (m2 * 2 ^ (e2 - e).toNat : Nat)
  let sum := (if n1 then -a else a) + (if n2 then -b else b)
  if sum = 0 then fSign (n1 && n2) 0 else fRound (decide (sum < 0)) sum.natAbs e

/-- FADD. -/
def fAdd (x y : Word) : Word :=
  match fDec x, fDec y with
  | .nan, _ | _, .nan => fNaN
  | .inf a, .inf b => if a == b then fSign a 0x7F800000 else fNaN
  | .inf a, _ => fSign a 0x7F800000
  | _, .inf b => fSign b 0x7F800000
  | .fin a m e, .fin b n f => fAddFin a m e b n f

/-- Sign inverted. -/
def fNeg (x : Word) : Word := x ^^^ 0x80000000#32

/-- FSUB. -/
def fSub (x y : Word) : Word := fAdd x (fNeg y)

/-- FMUL. -/
def fMul (x y : Word) : Word :=
  match fDec x, fDec y with
  | .nan, _ | _, .nan => fNaN
  | .inf a, .inf b => fSign (a != b) 0x7F800000
  | .inf a, .fin b n _ => if n = 0 then fNaN else fSign (a != b) 0x7F800000
  | .fin a m _, .inf b => if m = 0 then fNaN else fSign (a != b) 0x7F800000
  | .fin a m e, .fin b n f => fRound (a != b) (m * n) (e + f)

/-- FMA: c + x × y with one rounding. -/
def fFma (c x y : Word) : Word :=
  match fDec x, fDec y with
  | .fin a m e, .fin b n f =>
    match fDec c with
    | .nan => fNaN
    | .inf s => fSign s 0x7F800000
    | .fin s k g => fAddFin (a != b) (m * n) (e + f) s k g
  | _, _ => fAdd c (fMul x y)

/-- FDIV. -/
def fDiv (x y : Word) : Word :=
  match fDec x, fDec y with
  | .nan, _ | _, .nan => fNaN
  | .inf _, .inf _ => fNaN
  | .inf a, .fin b _ _ => fSign (a != b) 0x7F800000
  | .fin a _ _, .inf b => fSign (a != b) 0
  | .fin a m e, .fin b n f =>
    if n = 0 then (if m = 0 then fNaN else fSign (a != b) 0x7F800000)
    else fRound (a != b) (m * 2 ^ 64 / n) (e - f - 64)

/-- Integer square root by bits, from bit k down: the largest r with r² ≤ n. -/
def isqrtAux (n : Nat) : Nat → Nat → Nat
  | 0, r => r
  | k + 1, r =>
    let t := r + 2 ^ k
    isqrtAux n k (if t * t ≤ n then t else r)

/-- FSQRT. -/
def fSqrt (x : Word) : Word :=
  match fDec x with
  | .nan => fNaN
  | .inf a => if a then fNaN else fSign false 0x7F800000
  | .fin a m e =>
    if m = 0 then fSign a 0
    else if a then fNaN
    else
      let (m, e) := if e % 2 = 0 then (m, e) else (2 * m, e - 1)
      fRound false (isqrtAux (m * 2 ^ 64) 48 0) (e / 2 - 32)

/-- Order of FMIN and FMAX on numbers: −0 below +0 (R171); NaN below every number (R172). -/
def fKey (x : Word) : Int :=
  let v := x.toNat
  let mag : Nat := v % 2 ^ 31
  if mag > 0x7F800000 then -(2 ^ 33 : Int)
  else if bitAt v 31 then -(mag : Int) - 1 else (mag : Int)

/-- A NaN. -/
def fIsNaN (x : Word) : Bool := decide (x.toNat % 2 ^ 31 > 0x7F800000)

/-- FMIN. -/
def fMin (x y : Word) : Word :=
  if fIsNaN x then (if fIsNaN y then fNaN else y)
  else if fIsNaN y then x
  else if fKey y < fKey x then y else x

/-- FMAX. -/
def fMax (x y : Word) : Word :=
  if fIsNaN x then (if fIsNaN y then fNaN else y)
  else if fIsNaN y then x
  else if fKey x < fKey y then y else x

/-- Value order on numbers, −0 equal to +0. -/
def fVal (x : Word) : Int :=
  let v := x.toNat
  let mag : Nat := v % 2 ^ 31
  if bitAt v 31 then -(mag : Int) else (mag : Int)

/-- FLT. -/
def fLt (x y : Word) : Bool := !fIsNaN x && !fIsNaN y && decide (fVal x < fVal y)

/-- FEQ. -/
def fEq (x y : Word) : Bool := !fIsNaN x && !fIsNaN y && decide (fVal x = fVal y)

/-- FCVTIF. -/
def fOfInt (x : Word) : Word := fRound (decide (x.toInt < 0)) x.toInt.natAbs 0

/-- FCVTFI. -/
def fToInt (x : Word) : Word :=
  match fDec x with
  | .nan => 0
  | .inf a => if a then 0x80000000#32 else 0x7FFFFFFF#32
  | .fin a m e => BitVec.ofInt 32 (clampI (-(2 ^ 31 : Int)) (2 ^ 31 - 1) (roundShift (if a then -(m : Int) else m) e))

end Sys2Proof.Machine
end

