-- ==== Sys2Proof/Machine/NetTypes.lean ====
section
/-! DEFINITION. The fawn cores' state (R163 to R188) and the network slots' data: the network image as the loader holds it
(R189 to R206, R372), plain data. -/
namespace Sys2Proof

/-- FAB_FC_STATUS.STATE (R187). -/
inductive RunState where
  | stopped | running | halted | frozen
  deriving DecidableEq, Repr

/-- The code of a run state in FAB_FC_STATUS.STATE (R187). -/
def RunState.code : RunState → Nat
  | .stopped => 0
  | .running => 1
  | .halted => 2
  | .frozen => 3

/-- One fawn core's architectural state (R163): a register not listed holds zero. -/
structure FawnCore where
  sregs : KMap Nat Word := []
  vregs : KMap Nat Payload := []
  pc : Nat := 0
  pz : Bool := false
  epochLo : Nat := 0
  st : RunState := .stopped
  /-- First cycle of the next instruction (R166). -/
  readyAt : Nat := 0
  /-- STREAM, FORMAT and KIND of the last received token, as RDHDR returns them (R169, R176). -/
  hdr : Nat := 0
  /-- Tag and EPOCH_LO of the last received token, for check posts (R368). -/
  lastTag : Nat := 0
  lastEpochLo : Nat := 0
  /-- Block index of the last received token (R368). -/
  lastBlock : Nat := 0
  /-- A RECV or RECVO has completed since the last RECVO began: an event is in progress (R368). -/
  inEvent : Bool := false
  /-- FAB_FC_ENTRY.PC of the core's current epoch, as it took that epoch (R165, R184). -/
  entry : Nat := 0
  /-- The instruction in progress waits: 0 no, 1 a receive for its token, 2 a SEND held by stop (R166). -/
  waiting : Nat := 0
  /-- The first failed FWN_ALU check since the last post point, waiting for its SEND or RECVO (R368). -/
  failed : Option CheckPost := none
  deriving DecidableEq, Repr

/-- A register-write record of PLACEMENT or ROUTES: unit, role and the (offset, value) pairs (R191). -/
structure RegWrites where
  unit : Nat := 0
  role : Nat := 0
  writes : List (Nat × Nat) := []
  deriving DecidableEq, Repr

/-- A CHANNELS record with its BLOCK index under R465. -/
structure ChanRec where
  block : Nat := 0
  row : Nat := 0
  sstream : Nat := 0
  dstream : Nat := 0
  cstream : Nat := 0
  index : Nat := 0
  deriving DecidableEq, Repr

/-- A PASSDATA record: owning unit, offset in its cluster's SRAM and the bytes (R191). -/
structure PassChunk where
  unit : Nat := 0
  off : Nat := 0
  data : List Nat := []
  deriving DecidableEq, Repr

/-- A FAWN record: program words from PROG_START, the entry and the initial scratch bytes (R191). -/
structure FawnProg where
  unit : Nat := 0
  level : Nat := 3
  start : Nat := 0
  words : List Nat := []
  entry : Nat := 0
  scratch : List Nat := []
  deriving DecidableEq, Repr

/-- A SCHEDULE node (R191). -/
structure SchedNode where
  unit : Nat := 0
  kind : Nat := 0
  tOut : Nat := 0
  waitMin : Nat := 0
  deriving DecidableEq, Repr

/-- A SCHEDULE edge with its pad points (switch port, route entry) (R191). -/
structure SchedEdge where
  src : Nat := 0
  dst : Nat := 0
  tok : Nat := 0
  pads : List (Nat × Nat) := []
  deriving DecidableEq, Repr

/-- A check descriptor (R372). -/
structure CheckDesc where
  unit : Nat := 0
  node : Nat := 0
  classes : Nat := 0
  verdictPath : Bool := false
  postLast : Nat := 0
  deriving DecidableEq, Repr

/-- A LATENCY record (R191). -/
structure LatRec where
  step : Nat := 0
  lpass : Nat := 0
  hop : Nat := 0
  xbar : Nat := 0
  level : Nat := 0
  deriving DecidableEq, Repr

/-- A LEAVE record (R191). -/
structure LeaveRec where
  region : Nat := 0
  leave : Nat := 0
  maxBusy : Nat := 0
  deriving DecidableEq, Repr

/-- A scale record (R140): tensor, count, G as binary32, the codes. -/
structure ScaleRec where
  tensor : Nat := 0
  count : Nat := 0
  g : Nat := 0
  codes : List Nat := []
  deriving DecidableEq, Repr

/-- A parsed network image (R189 to R191). -/
structure Image where
  magic : Nat := 0
  minor : Nat := 0
  major : Nat := 0
  level : Nat := 0
  arith : Nat := 0
  totalLen : Nat := 0
  imageId : Nat := 0
  baseId : Nat := 0
  lnet : Nat := 0
  ii : Nat := 0
  tagBase : Nat := 0
  tagCount : Nat := 0
  dflt : Nat := 0
  leave : Nat := 0
  step : Nat := 0
  finalArr : Nat := 0
  maxBusy : Nat := 0
  flags : Nat := 0
  fudom : Nat := 0
  vstream : Nat := 0
  /-- Reserved fields of the header or a record were not zero, or a record value was out of range (R466). -/
  badField : Bool := false
  placement : List RegWrites := []
  routes : List RegWrites := []
  chans : List ChanRec := []
  passData : List PassChunk := []
  scales : List ScaleRec := []
  fawn : List FawnProg := []
  nodes : List SchedNode := []
  edges : List SchedEdge := []
  lats : List LatRec := []
  leaves : List LeaveRec := []
  checks : List CheckDesc := []
  digest : List Nat := []
  keyId : Nat := 0
  sigLen : Nat := 0
  sig : List Nat := []
  deriving DecidableEq, Repr

/-- A network in a slot, with what loading added (R195 to R206). -/
structure Net where
  img : Image := {}
  bank : Nat := 0
  bankId : Nat := 0
  bankDigest : List Nat := []
  /-- Epoch under which it became live. -/
  epoch : Nat := 0
  shift : Nat := 0
  padCycles : Nat := 0
  /-- DELAY values after re-padding, (port, entry, delay) (R197). -/
  pads : List (Nat × Nat × Nat) := []
  /-- FAB_STEER_CTRL.WAIT values after re-padding (R198). -/
  waits : List (Nat × Nat) := []
  /-- Register writes of a bank that a promotion stages (R206). -/
  writes : List RegWrites := []
  deriving DecidableEq, Repr

/-- A staged change of a slot (R203). -/
inductive StagedSlot where
  /-- A staged network. -/
  | load (n : Net)
  /-- A staged bank for the live network. -/
  | bank (n : Net) (promote : Bool)
  deriving DecidableEq, Repr

/-- What a slot holds beside its registers. -/
structure SlotNet where
  live : Option Net := none
  /-- The network (or bank) of the epoch before the current one, until its events have drained (R34, R35). -/
  old : Option Net := none
  staged : Option StagedSlot := none
  /-- An unload is staged for the next commit (R203). -/
  unload : Bool := false
  /-- Cycle C of the unload while DRAINING. -/
  drainC : Option Nat := none
  /-- The image that has passed steps 1 to 9 and waits for step 10 (LOADING). -/
  loading : Option Image := none
  deriving DecidableEq, Repr

/-- A registered network-signing key: its id and the public key bytes (R192). -/
structure NetKey where
  id : Nat := 0
  key : List Nat := []
  deriving DecidableEq, Repr

end Sys2Proof
end

