-- ==== Sys2Proof/Machine/RegTable.lean ====
section
/-! DEFINITION. The register fields of the register tables of spec/ (R40, R68, R105, R107, R108, R138, R139, R162,
R187, R188, R208, R209, R229, R253 to R255, R272, R297, R318, R319, R344, R362, R363, R398, R413, R429, R445), one
constructor a named field, in the spec's spelling without its index letters, and for each its place, width, access
code (R5), reset value and whether a write takes effect at once (R6). -/
namespace Sys2Proof

/-- A named field of a register table; an indexed register is one constructor with instances. -/
inductive Reg where
  | CHIP_ID_PART | CHIP_STEP_STEP | CHIP_STEP_ARITH | CHIP_SYSID_ID | CHIP_EPOCH_CURRENT | CHIP_EPOCH_PENDING | CHIP_COMMIT_CYCLE_C 
  | CHIP_SPARE_USED | CHIP_FROZEN_CORES_MASK | CHIP_FROZEN_UNITS_COUNT | CHIP_SNAP_SEQ | CHIP_REPRO_KEY | CHIP_LOCK_CTRL_ENABLE 
  | CHIP_LOCK_CTRL_PORT | CHIP_LOCK_CTRL_SLOTS | CHIP_LOCK_CTRL_CP_EVERY | CHIP_LOCK_CTRL_TIMEOUT | CHIP_LOCK_STAT_ACTIVE 
  | CHIP_LOCK_STAT_HELD | CHIP_LOCK_CP_UNIT | CHIP_LOCK_CP_SLOT | CHIP_LOCK_CP_VALID | CHIP_LOCK_DIV0_VALID | CHIP_LOCK_DIV0_KIND 
  | CHIP_LOCK_DIV0_SLOT | CHIP_LOCK_DIV0_CP | CHIP_LOCK_DIV0_UNIT | CHIP_LOCK_DIV0_EVENT | CHIP_LOCK_DIV1_LOCAL 
  | CHIP_LOCK_DIV2_PARTNER | CHIP_LOCK_DIV3_TB | CHIP_LOCK_CNT_COMPARED | CHIP_LOCK_CNT_EXCLUDED | CHIP_LOCK_CNT2_DIVERGED 
  | CHIP_LOCK_CNT2_MISSING 
  | VRD_CTRL_ENABLE | VRD_CTRL_INC_POLICY | VRD_CTRL_PIN_EN | VRD_CTRL_VALID_PIN_EN | VRD_CTRL_DEFAULT_PIN | VRD_CTRL_PIN_WIDTH 
  | VRD_LNET_LNET | VRD_DEFAULT_RESULT | VRD_INGRESS_SLACK | VRD_PORTS_MAP | VRD_PIN_MATCH_MASK | VRD_PIN_MATCH_MATCH 
  | VRD_STATUS_LAST_TAG | VRD_STATUS_LAST_EPOCH | VRD_VSTREAM_STREAM | VRD_CNT_VERDICT_COUNT | VRD_CNT_DEFAULT_TIMEOUT 
  | VRD_CNT_DEFAULT_INCOMPLETE | VRD_CNT_DEFAULT2_OVERRUN | VRD_CNT_DEFAULT2_POISON | VRD_CNT_VOID_VOID | VRD_CNT_VOID_CORRECTED 
  | VRD_CNT_INGRESS_LATE_BLOCK | VRD_CNT_INGRESS_DUP_BLOCK | VRD_CNT_LATE_RESULT | VRD_CNT_LATE_FLAG | VRD_CNT_INGRESS2_EVICTED 
  | VRD_CNT_INGRESS2_POOL_FULL | VRD_CNT_OTHER_TOKENS 
  | FAB_STATUS_LIVE_UNITS | FAB_STATUS_READY_UNITS | FAB_FIRST_ERR_UNIT | FAB_FIRST_ERR_TAG | FAB_FIRST_ERR_CODE 
  | FAB_FIRST_ERR_VALID | FAB_CNT_ALIGN_SKEW | FAB_CNT_ALIGN_STEER_DEFAULT | FAB_CNT_STORE_EXPIRED | FAB_CNT_STORE_STOP_CYCLES 
  | FAB_CNT_DISCARD_NOROUTE | FAB_CNT_DISCARD_STALE | FAB_CNT_CHECK_RESIDUE | FAB_CNT_CHECK_HDR_UNCORR | FAB_CNT_MISC_FORMAT 
  | FAB_CNT_MISC_INJ_DROP | FAB_CNT_HDR_CORRECTED | FAB_CNT_HDR_READY_MISMATCH 
  | FAB_UCFG_MODE | FAB_UCFG_INPUTS | FAB_UCFG_SLOT | FAB_UCFG_HELD | FAB_UHOLD_LIMIT | FAB_UFMT_FMT | FAB_UOCC_OCC 
  | FAB_UCNT_FIRES | FAB_UCNT_EXPIRED | FAB_ROUTE_VALID | FAB_ROUTE_SRC | FAB_ROUTE_STREAM | FAB_ROUTE_ANY_STREAM 
  | FAB_ROUTE_OUT | FAB_ROUTE_INPUT | FAB_ROUTE_DELAY | FAB_ROUTE_STEER | FAB_ROUTE_STEER_CTRL | FAB_ROUTE_SLOT 
  | FAB_STEER_CTRL_ENABLE | FAB_STEER_CTRL_DEFAULT | FAB_STEER_CTRL_WAIT | FAB_STEER_OUT | FAB_STEER_INPUT | FAB_PSTAT_DLY_OCC 
  | FAB_PSTAT_STEER_DATA_OCC | FAB_PSTAT_STEER_CTRL_OCC | FAB_PCNT_FORWARDED | FAB_PCNT_STOPPED | ELD_PASS_W4 | ELD_PASS_IN_Q4 
  | ELD_PASS_OUT_FMT | ELD_PASS_NB_IN_M1 | ELD_PASS_NB_OUT_M1 | ELD_PASS_EMIT_HI | ELD_PASS_ESC_EN | ELD_PASS_RELU 
  | ELD_PASS_TABLE_EN | ELD_PASS_TRACK | ELD_BASE_XBW | ELD_BASE_XBA | ELD_BASE_XA_NOM | ELD_BASE_TABLE_IN | ELD_OUT_DSTREAM 
  | ELD_OUT_SSTREAM | ELD_OUT2_CSTREAM | ELD_WBASE_TILE | ELD_SBASE_SIDE | ELD_CBASE_CHAN | ELD_TBASE_TABLE | ELD_OUTBLK_OUT_EXP 
  | ELD_OUTBLK_ZO | ELD_OUTBLK_NCH | ELD_ESTAT_SETS_USED | ELD_ECNT_CLIP | ELD_ECNT_ESC | ELD_ECNT2_ESC_OVF | ELD_ECNT2_SCALE_RANGE 
  | FAB_FC_CTRL_RUN | FAB_FC_CTRL_RECV_LIMIT | FAB_FC_ENTRY_PC | FAB_FC_STATUS_PC | FAB_FC_STATUS_STATE | FAB_FC_STATUS_PZ 
  | FAB_FC_STATUS_EPOCH_LO | FAB_FC_LEVEL_LEVEL | FAB_FC_WIN_BASE | FAB_FC_WIN_VALID | FAB_FC_WIN_SIZE_M1 | FAB_FC_JOB_RANK 
  | FAB_FC_JOB_COUNT | FAB_FC_JOB_ID | FAB_FC_CNT_STALL_RECV | FAB_FC_CNT_STALL_SEND | FAB_FC_CNT_EVT_MISSING | FAB_FC_CNT_EVT_BAD_SEND 
  | FAB_FC_CNT_ECC_CORRECTED | FAB_FC_CNT_ECC_UNCORR | FAB_FC_FAULT_CODE | FAB_FC_FAULT_PC | FAB_FC_FAULT_ADDR 
  | FAB_FC_CNT_INSTR_COUNT | FAB_FC_SREG_VALUE | FAB_FC_VREG_VALUE | FAB_SC_CNT_VALUE 
  | ELD_REV_LPASS | ELD_REV_ARITH | ELD_REV_TABLE_VER | ELD_CNT_CLIP_COUNT | ELD_CNT_CLIP_ESC | ELD_CNT_ESC2_ESC_OVF 
  | ELD_CNT_ESC2_SCALE_RANGE | ELD_CNT_PASS_BLOCKS | ELD_CNT_PASS_F32_SAT | ELD_CNT_ACC_ACC_WAIT | ELD_CNT_ACC_ACC_EXPIRED 
  | CND_CTRL_ADAPT_EN | CND_TBL_INDEX_INDEX | CND_TBL_INDEX_COPY | CND_TBL_LO_DATA | CND_TBL_HI_DATA | CND_STAT_BASE_ADDR 
  | CND_OSTAT_BASE_ADDR | CND_CNT_CLIP_CLIP | CND_CNT_CLIP_ESC | CND_CNT_ESC2_ESC_OVF | CND_CNT_ESC2_RAW_BITS | CND_CNT_ADAPT_RISE 
  | CND_CNT_ADAPT_FALL | CND_CNT_LIMIT_CEILING | CND_CNT_LIMIT_RESTART | CND_CNT_MISC_NOSLOT | CND_CNT_MISC_REC_LOST 
  | CND_CNT_MISC_OREC_LOST | CND_CNT_MISC2_REPEAT | CND_BSTATE_EXP | CND_BSTATE_FALL_CNT | CND_BSTATE_CEILING | CND_BSTATE_FLOOR 
  | CND_BSTATE_CONSTANT | CND_BSTATE_WINDOW 
  | NSL_STATE_STATE | NSL_STATE_BANK | NSL_STATE_STAGED_BANK | NSL_STATE_HAS_STAGED | NSL_IMAGE_ID | NSL_IMAGE_BANK_ID 
  | NSL_TAGS_BASE | NSL_TAGS_COUNT | NSL_SCHED_II | NSL_SCHED_STEP | NSL_PAD_SLACK | NSL_PAD_SHIFT | NSL_PAD_CYCLES 
  | NSL_LEAVE_UNITS | NSL_LEAVE_MAX_BUSY | NSL_REGIONS_MASK | NSL_REGIONS_LEAD | NSL_LOAD_STATUS | NSL_LOAD_CHECK 
  | NSL_LOAD_UNIT | NSL_DIGEST_VALUE | NSL_BDIGEST_VALUE | NSL_CNT_LOADS | NSL_CNT_REFUSED | NSL_CTRL_SIG_REQUIRED 
  | NSL_KEYS_COUNT | NSL_LAST_STATUS | NSL_LAST_SLOT | NSL_SMP_CTRL_ENABLE | NSL_SMP_CTRL_ACC_PRESCALE | NSL_SMP_CTRL_REJ_PRESCALE 
  | NSL_SMP_MATCH_ACC_MASK | NSL_SMP_MATCH_ACC_MATCH | NSL_SMP_RING_BASE | NSL_SMP_RLEN_LEN | NSL_SMP_SEQ_NEXT 
  | NSL_SMP_SEQ_OLDEST | NSL_SMP_CNT_ACCEPTED | NSL_SMP_CNT_REJECTED | NSL_SMP_CNT2_OTHER | NSL_SMP_CNT2_LOST | NSL_SMP_CNT3_DROPPED 
  | NSL_JOB_STATE_STATE | NSL_JOB_STATE_DET | NSL_JOB_STATE_SLOT | NSL_JOB_STATE_CLUSTERS | NSL_JOB_STATE_STATUS 
  | NSL_JOB_STATE_STEPS | NSL_JOB_LIMIT_CYCLES | NSL_JOB_LIMIT_LEAVE | NSL_JOB_POS_PASS | NSL_JOB_POS_SEQ | NSL_JOB_CNT_GCLIP 
  | NSL_JOB_CNT_SCLIP | NSL_JOB_CNT_WCLIP | NSL_JOB_CNT_REVOKES 
  | SPB_CTRL_ENABLE | SPB_SEGTAB_BASE | SPB_SEG_WR | SPB_SEG_RD | SPB_LOST_IDX_NEXT | SPB_LOST_IDX_TOTAL | SPB_FORCE_TERM 
  | SPB_ENV_INDEX_INDEX | SPB_ENV_INDEX_COPY | SPB_ENV_LO_DATA | SPB_ENV_HI_DATA | SPB_CNT_TRIG_CAPTURED | SPB_CNT_TRIG_LOST 
  | SPB_CNT_ROW_GAP_ROWS | SPB_CNT_ROW_LATE_SAMPLE | SPB_CNT_MISC_MASK_FAIL | SPB_CNT_MISC_BAD_RELEASE | SPB_CNT_MISC2_POISON_ROWS 
  | SPB_CNT_MISC2_VOIDED | SPB_LOST_ENTRY | SPB_GCFG_EN | SPB_GCFG_REDUCE | SPB_GCFG_AVG_K | SPB_GCFG_HOLD_MODE 
  | SPB_GCFG_PRIO | SPB_GCFG_MASK_EN | SPB_GCFG_ROW_WAIT | SPB_GHOLD_HOLD | SPB_GDEPTH_PRE | SPB_GDEPTH_POST | SPB_GDEAD_DEADBAND 
  | SPB_GCMASK_UNITS | SPB_GRING_BASE | SPB_GRLEN_SLOTS | SPB_GRLEN_SLOT_BYTES | SPB_GAREA_BASE | SPB_GALEN_LEN 
  | SPB_GSHARE_SHARE | SPB_GSHARE_BURST | SPB_GMASK_FIRST | SPB_GMASK_COUNT | SPB_GCMD_ARM | SPB_GCMD_STOP | SPB_GSTAT_STATE 
  | SPB_GSTAT_MASK_FAIL | SPB_GSTAT_PRE_AVAIL | SPB_GSTAT_NCH | SPB_GSTAT_NBLK | SPB_GCNT_CAPTURED | SPB_GCNT_LOST 
  | SPB_GCNT2_GAP_ROWS | SPB_GCNT2_ROWS | SPB_GCNT3_PRE_SHORT | SPB_CMP_CHAN | SPB_CMP_SLOPE | SPB_CMP_LEXP | SPB_CMP_LEVEL 
  | SPB_CMPH_HYST | SPB_CMPH_ARMED | SPB_CMPH_FIRES | SPB_VT_SLOT | SPB_VT_MODE | SPB_VT_EN | SPB_VT_CAUSE_REQ 
  | SPB_VT_FLAG_VETO | SPB_VT_MASK | SPB_VT_MATCH | SPB_CO_MIN | SPB_CO_WINDOW | SPB_CO_VWIN | SPB_COIN_TERM | SPB_COIN_EN 
  | SPB_COIN_VETO | SPB_COIN_DELAY | SPB_COCNT_FIRES | SPB_LINE_DIR | SPB_LINE_SRC | SPB_LINE_WIDTH | SPB_LINE_DLY 
  | SPB_LCNT_EDGES | SPB_LCNT_DRIVEN 
  | MEM_CTRL_SCRUB_EN | MEM_CTRL_RET_EN | MEM_STAGE_BASE | MEM_GOLD_BASE | MEM_GOLD_SPAN_SPAN | MEM_RET_BASE | MEM_RET_LEN 
  | MEM_RET_HOLD_MIN | MEM_SCRUB_PERIOD | MEM_SCRUB_POS | MEM_TEMP_DEG | MEM_TEMP_REFRESH | MEM_FIRST_UE_ADDR | MEM_FIRST_UE_VALID 
  | MEM_CNT_ECC_CORRECTED | MEM_CNT_ECC_UNCORR | MEM_CNT_POISON_READS | MEM_CNT_GOLD_RESTORES | MEM_CNT_GOLD_SLOW 
  | MEM_CNT_GOLD2_REPAIRED | MEM_CNT_GOLD2_FAILED | MEM_CNT_RET_WRITTEN | MEM_CNT_RET_DROPPED | MEM_CNT_RET2_MISSING 
  | MEM_CLASS_LIMIT | MEM_CLASS_CNT_BYTES 
  | OPX_SUMMARY_UP | OPX_SUMMARY_DARK | OPX_VER_MINOR | OPX_VER_MAJOR | OPX_VER_MIN_MAJOR | OPX_PCTRL_EN | OPX_PCTRL_ROLE 
  | OPX_PCTRL_DEEP | OPX_PCTRL_DEEP_OK | OPX_PSTAT_STATE | OPX_PSTAT_LAST_CAUSE | OPX_PSTAT_PARTNER_SYS | OPX_PSTAT_PARTNER_PORT 
  | OPX_PSTAT_PARTNER_ROLE | OPX_PSTAT_SAME_SYS | OPX_PSTAT_PARTNER_MAJOR | OPX_PSTAT_PARTNER_MINOR | OPX_PSESS_LOCAL 
  | OPX_PSESS_PARTNER | OPX_PRX_BASE | OPX_PRX_LEN | OPX_PVRING_BASE | OPX_PVRING_LEN | OPX_PVRING_NEXT | OPX_PCNT_RETRY_SENT 
  | OPX_PCNT_RETRY_SERVED | OPX_PCNT_CRC_CRC | OPX_PCNT_CRC_SEQ | OPX_PCNT_VIOL_VIOL | OPX_PCNT_VIOL_NAK_SENT | OPX_PCNT_NAK_NAK_RECEIVED 
  | OPX_PCNT_NAK_EXPRESS_LOST | OPX_PCNT_LINK_DROPS | OPX_PCNT_LINK_DARK | OPX_PCNT_MISC_BUSY | OPX_PCNT_MISC_DISCARDED 
  | OPX_PCNT_MISC_DEEP_DENIED | OPX_PLAST_NAK_IN | OPX_PLAST_NAK_OUT | OPX_LCTRL_PATTERN | OPX_LCTRL_CHECK | OPX_LCTRL_LOOP 
  | OPX_LCTRL_INJ | OPX_LCTRL_DFE_FREEZE | OPX_LCTRL_INJ_INTERVAL | OPX_LSTAT_LOS | OPX_LSTAT_LOL | OPX_LSTAT_ALIGNED 
  | OPX_LSTAT_FIBRE | OPX_LSTAT_SKEW | OPX_LCNT_PAT_ERR | OPX_LCNT_BAD_HDR | OPX_LDFE_TAPS 
  | TB_VALUE_TB | TB_EPOCH_COUNT | TB_INC_INC | TB_STEP_VALUE | TB_STEPCTL_GO | TB_STEPCTL_MODE | TB_STEPCTL_PENDING 
  | TB_STEPCTL_EPOCH | TB_LATE_WINDOW | TB_MASTER_SELF | TB_MASTER_VALID | TB_MASTER_SYS | TB_MASTER_TIMEOUT | TB_STATE_STATE 
  | TB_STATE_PPS_PRESENT | TB_STATE_REF_LOST | TB_STATE_SYNC_PORT | TB_STATE_SYNC_SEQ | TB_STATE_SYNC_AGE | TB_FWD_MASK 
  | TB_CAPCTL_PPS | TB_CAPCTL_TRIG | TB_CAPCTL_SOFT | TB_CAPIDX_NEXT | TB_CAPIDX_TOTAL | TB_TRXIDX_NEXT | TB_TRXIDX_TOTAL 
  | TB_PULSECFG_POLARITY | TB_CNT_TIME_SYNC_RX | TB_CNT_TIME_SYNC_FWD | TB_CNT_TIME2_RESP_SENT | TB_CNT_TIME2_DROPPED 
  | TB_CNT_MISC_INC_REFUSED | TB_CNT_MISC_STEPS | TB_CNT_MISC_HOLDOVERS | TB_CNT_MISC_PPS_GLITCH | TB_PDELAY_DELAY 
  | TB_CAP_ENTRY | TB_TRX_RECORD | TB_ACT_TIME | TB_ACTP_PERIOD | TB_ACTCTL_ARM | TB_ACTCTL_KIND | TB_ACTCTL_PERIODIC 
  | TB_ACTCTL_INDEX | TB_ACTCTL_WIDTH | TB_ACTCTL_MSG | TB_ACTCTL_PORTS | TB_ACTSTAT_STATUS | TB_ACTSTAT_ARMED 
  | TB_ACTSTAT_LATE | TB_ACTSTAT_STEPPED | TB_ACTSTAT_FIRES | TB_ACTLATE_LATENESS | TB_ACTLATE_SKIPPED | TB_ACTNEXT_NEXT 
  | HST_STATUS_CH_READY | HST_STATUS_BG_MODE | HST_STATUS_FSP_OP | HST_STATUS_FROZEN | HST_IDENT_MR5 | HST_SLOTS_BUSY 
  | HST_STAGE_USED | HST_STAGE_DIRTY | HST_CNT_CMD_TAKEN | HST_CNT_CMD_REPLIED | HST_CNT_CMD2_CRC_BAD | HST_CNT_CMD2_REFUSED 
  | HST_CNT_ACCESS_RESERVED | HST_CNT_ACCESS_WRITE_RO | HST_CNT_STAGE_MISS | HST_CNT_STAGE_WRITE_DROP | HST_CNT_VIOL_TIMING 
  | HST_CNT_VIOL_STATE | HST_CNT_VIOL2_UNSUPPORTED | HST_CNT_VIOL2_WCK | HST_CNT_REF_REFAB | HST_CNT_REF_REFPB 
  | HST_LAST_VIOL_CODE | HST_LAST_VIOL_CH | HST_LAST_VIOL_ADDR | HST_CNT_BURST_CH0 | HST_CNT_BURST_CH1 
  | BOOT_STATE_STATE | BOOT_STATE_BOOT_SRC | BOOT_STATE_DEV_MODE | BOOT_STATE_LAST_STATUS | BOOT_STATE_ROM_VERSION 
  | BOOT_FWVER_VERSION | BOOT_FWVER_ID | BOOT_FWSTAGED_VERSION | BOOT_FWSTAGED_ID | BOOT_FWSTAT_STAGE | BOOT_FWSTAT_REVERTED 
  | BOOT_FWSTAT_CONFIRM_NONCE | BOOT_FWCTL_CONFIRM_MS | BOOT_FWCTL_QUIESCE_MS | BOOT_FWTIME_CONFIRM_LEFT | BOOT_CNT_ACTIVATIONS 
  | BOOT_CNT_REVERTS | BOOT_CNT_REFUSED 
  | SEC_STATUS_PUF_STATE | SEC_STATUS_IDENTITY | SEC_STATUS_DEV_KEY | SEC_IDFP_VALUE | SEC_KEMFP_VALUE | SEC_CNT_VERIFIED 
  | SEC_CNT_FAILED | SEC_ATTEST_SEQ 
  | INT_CTRL_DECIDE_MS | INT_CTRL_REPLAY_LIMIT | INT_CTRL_TRANS_LIMIT | INT_CTRL_TRANS_WINDOW | INT_STATE_DRAIN 
  | INT_STATE_REPLACE | INT_STATE_DECIDING | INT_STATE_REMAP_STAGED | INT_STATE_DRAIN_CAUSE | INT_STATE_OVERFLOW 
  | INT_STATE_SPARE_BAD | INT_STATE_SUSPECTS | INT_DRAIN_TB_TB | INT_DECIDE_LEFT | INT_REPLAY_QUEUED | INT_REPLAY_ACTIVE 
  | INT_REPLAY_LEAVE | INT_SIG_BASE | INT_SIG_LEN | INT_SIGIDX_NEXT | INT_SIGIDX_TOTAL | INT_RPL_BASE | INT_RPL_LEN 
  | INT_CNT_CHECK_FAILED | INT_CNT_CHECK_LATE | INT_CNT_ARB_MAIN | INT_CNT_ARB_REPLAY | INT_CNT_ARB2_NONE | INT_CNT_ARB2_NO_REPLAY 
  | INT_CNT_SEQ_MISMATCH | INT_CNT_SEQ_OVERFLOW | INT_SUSPECT_ENTRY 
  | LV_PLIMIT_UNITS | LV_RESERVE_RESTORE | LV_SIZE_READOUT | LV_SIZE_SCRUB | LV_STATUS_FREE | LV_STATUS_RESERVED 
  | LV_STATUS_GRANTED | LV_CLASS_GRANTED | LV_CLASS_PENDING | LV_RGN_CAP_CAP | LV_RGN_CAP_HELD | LV_CNT_GRANTS 
  | LV_CNT_REVOKED | LV_CNT2_BLOCKED | LV_CNT2_OVER_BUSY 
  | THM_STATUS_TJ | THM_STATUS_SENSOR | THM_STATUS_LEVEL | THM_STATUS_DRAIN | THM_STATUS_BAD | THM_SENS_DEG | THM_DRAIN_TB_TB 
  | THM_PEAK_TJ | THM_CNT_WARN | THM_CNT_REVOKE | THM_CNT_DRAIN 
  | LOG_TRACE_POINTS | LOG_TRACE_SLOTS | LOG_ALARM_ACK | LOG_STATUS_INTAKE | LOG_STATUS_ALARM_INTAKE | LOG_STATUS_SUPPRESSING 
  | LOG_STATUS_PIN | LOG_CNT_WRITTEN | LOG_CNT_SUMMARIES | LOG_CNT2_MERGED | LOG_CNT2_MON_CMDS | LOG_MON_BAUD 
deriving DecidableEq, Repr, Inhabited

namespace Reg

/-- Access codes (R5). -/
inductive Access where
  | ro | rw | w1c | wo | rs
deriving DecidableEq, Repr

/-- Where a register stands: in a block's megabyte, or in the unit space of a kind of unit (R107, R108, R139, R187,
R188). -/
inductive Space where
  | block | compute | port | eland | fawn | steward
deriving DecidableEq, Repr

/-- One row of a register table. `addr` is the internal address of instance 0 for `block`, else the offset in the
unit space. Instance `i` stands at `addr + (i / n2) * s1 + (i % n2) * s2`. -/
structure Info where
  space : Space
  addr : Nat
  n1 : Nat
  s1 : Nat
  n2 : Nat
  s2 : Nat
  lo : Nat
  width : Nat
  acc : Access
  reset : Nat
  imm : Bool
deriving DecidableEq, Repr

/-- The row of each field. -/
def info : Reg → Info
  | .CHIP_ID_PART => ⟨.block, 0x60000000, 1, 0, 1, 0, 0, 32, .ro, 0x9120000, false⟩
  | .CHIP_STEP_STEP => ⟨.block, 0x60000004, 1, 0, 1, 0, 0, 8, .ro, 0, false⟩
  | .CHIP_STEP_ARITH => ⟨.block, 0x60000004, 1, 0, 1, 0, 8, 8, .ro, 3, false⟩
  | .CHIP_SYSID_ID => ⟨.block, 0x60000008, 1, 0, 1, 0, 0, 6, .rw, 0, true⟩
  | .CHIP_EPOCH_CURRENT => ⟨.block, 0x60000010, 1, 0, 1, 0, 0, 16, .rs, 0, false⟩
  | .CHIP_EPOCH_PENDING => ⟨.block, 0x60000010, 1, 0, 1, 0, 16, 1, .rs, 0, false⟩
  | .CHIP_COMMIT_CYCLE_C => ⟨.block, 0x60000018, 1, 0, 1, 0, 0, 64, .rs, 0, false⟩
  | .CHIP_SPARE_USED => ⟨.block, 0x60000020, 1, 0, 1, 0, 0, 8, .rs, 0, false⟩
  | .CHIP_FROZEN_CORES_MASK => ⟨.block, 0x60000028, 1, 0, 1, 0, 0, 32, .rs, 0, false⟩
  | .CHIP_FROZEN_UNITS_COUNT => ⟨.block, 0x60000030, 1, 0, 1, 0, 0, 16, .rs, 0, false⟩
  | .CHIP_SNAP_SEQ => ⟨.block, 0x60000038, 1, 0, 1, 0, 0, 48, .rs, 0, false⟩
  | .VRD_CTRL_ENABLE => ⟨.block, 0x60500000, 1, 0, 16, 256, 0, 1, .rs, 0, false⟩
  | .VRD_CTRL_INC_POLICY => ⟨.block, 0x60500000, 1, 0, 16, 256, 1, 1, .rw, 0, false⟩
  | .VRD_CTRL_PIN_EN => ⟨.block, 0x60500000, 1, 0, 16, 256, 2, 1, .rw, 0, false⟩
  | .VRD_CTRL_VALID_PIN_EN => ⟨.block, 0x60500000, 1, 0, 16, 256, 3, 1, .rw, 0, false⟩
  | .VRD_CTRL_DEFAULT_PIN => ⟨.block, 0x60500000, 1, 0, 16, 256, 4, 1, .rw, 0, false⟩
  | .VRD_CTRL_PIN_WIDTH => ⟨.block, 0x60500000, 1, 0, 16, 256, 5, 3, .rw, 4, false⟩
  | .VRD_LNET_LNET => ⟨.block, 0x60500004, 1, 0, 16, 256, 0, 10, .rs, 0, false⟩
  | .VRD_DEFAULT_RESULT => ⟨.block, 0x60500008, 1, 0, 16, 256, 0, 16, .rw, 0, false⟩
  | .VRD_INGRESS_SLACK => ⟨.block, 0x6050000C, 1, 0, 16, 256, 0, 12, .rw, 64, false⟩
  | .VRD_PORTS_MAP => ⟨.block, 0x60500010, 1, 0, 16, 256, 0, 16, .rw, 0, false⟩
  | .VRD_PIN_MATCH_MASK => ⟨.block, 0x60500014, 1, 0, 16, 256, 0, 16, .rw, 0, false⟩
  | .VRD_PIN_MATCH_MATCH => ⟨.block, 0x60500014, 1, 0, 16, 256, 16, 16, .rw, 0, false⟩
  | .VRD_STATUS_LAST_TAG => ⟨.block, 0x60500018, 1, 0, 16, 256, 0, 14, .rs, 0, false⟩
  | .VRD_STATUS_LAST_EPOCH => ⟨.block, 0x60500018, 1, 0, 16, 256, 16, 16, .rs, 0, false⟩
  | .VRD_VSTREAM_STREAM => ⟨.block, 0x6050001C, 1, 0, 16, 256, 0, 12, .rs, 0, false⟩
  | .VRD_CNT_VERDICT_COUNT => ⟨.block, 0x60500020, 1, 0, 16, 256, 0, 64, .rs, 0, false⟩
  | .VRD_CNT_DEFAULT_TIMEOUT => ⟨.block, 0x60500028, 1, 0, 16, 256, 0, 32, .rs, 0, false⟩
  | .VRD_CNT_DEFAULT_INCOMPLETE => ⟨.block, 0x60500028, 1, 0, 16, 256, 32, 32, .rs, 0, false⟩
  | .VRD_CNT_DEFAULT2_OVERRUN => ⟨.block, 0x60500030, 1, 0, 16, 256, 0, 32, .rs, 0, false⟩
  | .VRD_CNT_DEFAULT2_POISON => ⟨.block, 0x60500030, 1, 0, 16, 256, 32, 32, .rs, 0, false⟩
  | .VRD_CNT_VOID_VOID => ⟨.block, 0x60500038, 1, 0, 16, 256, 0, 32, .rs, 0, false⟩
  | .VRD_CNT_VOID_CORRECTED => ⟨.block, 0x60500038, 1, 0, 16, 256, 32, 32, .rs, 0, false⟩
  | .VRD_CNT_INGRESS_LATE_BLOCK => ⟨.block, 0x60500040, 1, 0, 16, 256, 0, 32, .rs, 0, false⟩
  | .VRD_CNT_INGRESS_DUP_BLOCK => ⟨.block, 0x60500040, 1, 0, 16, 256, 32, 32, .rs, 0, false⟩
  | .VRD_CNT_LATE_RESULT => ⟨.block, 0x60500048, 1, 0, 16, 256, 0, 32, .rs, 0, false⟩
  | .VRD_CNT_LATE_FLAG => ⟨.block, 0x60500048, 1, 0, 16, 256, 32, 32, .rs, 0, false⟩
  | .VRD_CNT_INGRESS2_EVICTED => ⟨.block, 0x60500050, 1, 0, 16, 256, 0, 32, .rs, 0, false⟩
  | .VRD_CNT_INGRESS2_POOL_FULL => ⟨.block, 0x60500050, 1, 0, 16, 256, 32, 32, .rs, 0, false⟩
  | .VRD_CNT_OTHER_TOKENS => ⟨.block, 0x60500058, 1, 0, 16, 256, 0, 32, .rs, 0, false⟩
  | .FAB_STATUS_LIVE_UNITS => ⟨.block, 0x60100000, 1, 0, 1, 0, 0, 16, .rs, 0, false⟩
  | .FAB_STATUS_READY_UNITS => ⟨.block, 0x60100000, 1, 0, 1, 0, 16, 16, .rs, 0x780, false⟩
  | .FAB_FIRST_ERR_UNIT => ⟨.block, 0x60100008, 1, 0, 1, 0, 0, 16, .rs, 0, false⟩
  | .FAB_FIRST_ERR_TAG => ⟨.block, 0x60100008, 1, 0, 1, 0, 16, 14, .rs, 0, false⟩
  | .FAB_FIRST_ERR_CODE => ⟨.block, 0x60100008, 1, 0, 1, 0, 30, 4, .rs, 0, false⟩
  | .FAB_FIRST_ERR_VALID => ⟨.block, 0x60100008, 1, 0, 1, 0, 34, 1, .w1c, 0, false⟩
  | .FAB_CNT_ALIGN_SKEW => ⟨.block, 0x60100010, 1, 0, 1, 0, 0, 32, .rs, 0, false⟩
  | .FAB_CNT_ALIGN_STEER_DEFAULT => ⟨.block, 0x60100010, 1, 0, 1, 0, 32, 32, .rs, 0, false⟩
  | .FAB_CNT_STORE_EXPIRED => ⟨.block, 0x60100018, 1, 0, 1, 0, 0, 32, .rs, 0, false⟩
  | .FAB_CNT_STORE_STOP_CYCLES => ⟨.block, 0x60100018, 1, 0, 1, 0, 32, 32, .rs, 0, false⟩
  | .FAB_CNT_DISCARD_NOROUTE => ⟨.block, 0x60100020, 1, 0, 1, 0, 0, 32, .rs, 0, false⟩
  | .FAB_CNT_DISCARD_STALE => ⟨.block, 0x60100020, 1, 0, 1, 0, 32, 32, .rs, 0, false⟩
  | .FAB_CNT_CHECK_RESIDUE => ⟨.block, 0x60100028, 1, 0, 1, 0, 0, 32, .rs, 0, false⟩
  | .FAB_CNT_CHECK_HDR_UNCORR => ⟨.block, 0x60100028, 1, 0, 1, 0, 32, 32, .rs, 0, false⟩
  | .FAB_CNT_MISC_FORMAT => ⟨.block, 0x60100030, 1, 0, 1, 0, 0, 32, .rs, 0, false⟩
  | .FAB_CNT_MISC_INJ_DROP => ⟨.block, 0x60100030, 1, 0, 1, 0, 32, 32, .rs, 0, false⟩
  | .FAB_CNT_HDR_CORRECTED => ⟨.block, 0x60100038, 1, 0, 1, 0, 0, 32, .rs, 0, false⟩
  | .FAB_CNT_HDR_READY_MISMATCH => ⟨.block, 0x60100038, 1, 0, 1, 0, 32, 32, .rs, 0, false⟩
  | .FAB_UCFG_MODE => ⟨.compute, 0x18000, 1, 0, 1, 0, 0, 1, .rw, 1, false⟩
  | .FAB_UCFG_INPUTS => ⟨.compute, 0x18000, 1, 0, 1, 0, 1, 4, .rw, 0, false⟩
  | .FAB_UCFG_SLOT => ⟨.compute, 0x18000, 1, 0, 1, 0, 5, 4, .rw, 0, false⟩
  | .FAB_UCFG_HELD => ⟨.compute, 0x18000, 1, 0, 1, 0, 9, 1, .rs, 0, false⟩
  | .FAB_UHOLD_LIMIT => ⟨.compute, 0x18004, 1, 0, 1, 0, 0, 12, .rw, 0, false⟩
  | .FAB_UFMT_FMT => ⟨.compute, 0x18008, 1, 0, 1, 0, 0, 24, .rw, 0, false⟩
  | .FAB_UOCC_OCC => ⟨.compute, 0x18010, 1, 0, 1, 0, 0, 20, .rs, 0, false⟩
  | .FAB_UCNT_FIRES => ⟨.compute, 0x18018, 1, 0, 1, 0, 0, 32, .rs, 0, false⟩
  | .FAB_UCNT_EXPIRED => ⟨.compute, 0x18018, 1, 0, 1, 0, 32, 32, .rs, 0, false⟩
  | .FAB_ROUTE_VALID => ⟨.port, 0x1C000, 1, 0, 8, 8, 0, 1, .rw, 0, false⟩
  | .FAB_ROUTE_SRC => ⟨.port, 0x1C000, 1, 0, 8, 8, 1, 3, .rw, 0, false⟩
  | .FAB_ROUTE_STREAM => ⟨.port, 0x1C000, 1, 0, 8, 8, 4, 12, .rw, 0, false⟩
  | .FAB_ROUTE_ANY_STREAM => ⟨.port, 0x1C000, 1, 0, 8, 8, 16, 1, .rw, 0, false⟩
  | .FAB_ROUTE_OUT => ⟨.port, 0x1C000, 1, 0, 8, 8, 17, 5, .rw, 0, false⟩
  | .FAB_ROUTE_INPUT => ⟨.port, 0x1C000, 1, 0, 8, 8, 22, 2, .rw, 0, false⟩
  | .FAB_ROUTE_DELAY => ⟨.port, 0x1C000, 1, 0, 8, 8, 24, 6, .rw, 0, false⟩
  | .FAB_ROUTE_STEER => ⟨.port, 0x1C000, 1, 0, 8, 8, 30, 1, .rw, 0, false⟩
  | .FAB_ROUTE_STEER_CTRL => ⟨.port, 0x1C000, 1, 0, 8, 8, 31, 1, .rw, 0, false⟩
  | .FAB_ROUTE_SLOT => ⟨.port, 0x1C000, 1, 0, 8, 8, 32, 4, .rw, 0, false⟩
  | .FAB_STEER_CTRL_ENABLE => ⟨.port, 0x1C040, 1, 0, 1, 0, 0, 1, .rw, 0, false⟩
  | .FAB_STEER_CTRL_DEFAULT => ⟨.port, 0x1C040, 1, 0, 1, 0, 1, 2, .rw, 0, false⟩
  | .FAB_STEER_CTRL_WAIT => ⟨.port, 0x1C040, 1, 0, 1, 0, 3, 12, .rw, 0, false⟩
  | .FAB_STEER_OUT => ⟨.port, 0x1C048, 1, 0, 4, 4, 0, 5, .rw, 0, false⟩
  | .FAB_STEER_INPUT => ⟨.port, 0x1C048, 1, 0, 4, 4, 5, 2, .rw, 0, false⟩
  | .FAB_PSTAT_DLY_OCC => ⟨.port, 0x1C058, 1, 0, 1, 0, 0, 7, .rs, 0, false⟩
  | .FAB_PSTAT_STEER_DATA_OCC => ⟨.port, 0x1C058, 1, 0, 1, 0, 7, 5, .rs, 0, false⟩
  | .FAB_PSTAT_STEER_CTRL_OCC => ⟨.port, 0x1C058, 1, 0, 1, 0, 12, 5, .rs, 0, false⟩
  | .FAB_PCNT_FORWARDED => ⟨.port, 0x1C060, 1, 0, 1, 0, 0, 32, .rs, 0, false⟩
  | .FAB_PCNT_STOPPED => ⟨.port, 0x1C060, 1, 0, 1, 0, 32, 32, .rs, 0, false⟩
  | .ELD_REV_LPASS => ⟨.block, 0x60200000, 1, 0, 1, 0, 0, 8, .ro, 0, false⟩
  | .ELD_REV_ARITH => ⟨.block, 0x60200000, 1, 0, 1, 0, 8, 8, .ro, 3, false⟩
  | .ELD_REV_TABLE_VER => ⟨.block, 0x60200000, 1, 0, 1, 0, 16, 8, .ro, 1, false⟩
  | .ELD_CNT_CLIP_COUNT => ⟨.block, 0x60200008, 1, 0, 1, 0, 0, 32, .rs, 0, false⟩
  | .ELD_CNT_CLIP_ESC => ⟨.block, 0x60200008, 1, 0, 1, 0, 32, 32, .rs, 0, false⟩
  | .ELD_CNT_ESC2_ESC_OVF => ⟨.block, 0x60200010, 1, 0, 1, 0, 0, 32, .rs, 0, false⟩
  | .ELD_CNT_ESC2_SCALE_RANGE => ⟨.block, 0x60200010, 1, 0, 1, 0, 32, 32, .rs, 0, false⟩
  | .ELD_CNT_PASS_BLOCKS => ⟨.block, 0x60200018, 1, 0, 1, 0, 0, 32, .rs, 0, false⟩
  | .ELD_CNT_PASS_F32_SAT => ⟨.block, 0x60200018, 1, 0, 1, 0, 32, 32, .rs, 0, false⟩
  | .ELD_CNT_ACC_ACC_WAIT => ⟨.block, 0x60200020, 1, 0, 1, 0, 0, 32, .rs, 0, false⟩
  | .ELD_CNT_ACC_ACC_EXPIRED => ⟨.block, 0x60200020, 1, 0, 1, 0, 32, 32, .rs, 0, false⟩
  | .ELD_PASS_W4 => ⟨.eland, 0x18100, 1, 0, 1, 0, 0, 1, .rw, 0, false⟩
  | .ELD_PASS_IN_Q4 => ⟨.eland, 0x18100, 1, 0, 1, 0, 1, 1, .rw, 0, false⟩
  | .ELD_PASS_OUT_FMT => ⟨.eland, 0x18100, 1, 0, 1, 0, 2, 2, .rw, 0, false⟩
  | .ELD_PASS_NB_IN_M1 => ⟨.eland, 0x18100, 1, 0, 1, 0, 4, 6, .rw, 0, false⟩
  | .ELD_PASS_NB_OUT_M1 => ⟨.eland, 0x18100, 1, 0, 1, 0, 10, 4, .rw, 0, false⟩
  | .ELD_PASS_EMIT_HI => ⟨.eland, 0x18100, 1, 0, 1, 0, 14, 1, .rw, 0, false⟩
  | .ELD_PASS_ESC_EN => ⟨.eland, 0x18100, 1, 0, 1, 0, 15, 1, .rw, 0, false⟩
  | .ELD_PASS_RELU => ⟨.eland, 0x18100, 1, 0, 1, 0, 16, 1, .rw, 0, false⟩
  | .ELD_PASS_TABLE_EN => ⟨.eland, 0x18100, 1, 0, 1, 0, 17, 1, .rw, 0, false⟩
  | .ELD_PASS_TRACK => ⟨.eland, 0x18100, 1, 0, 1, 0, 18, 1, .rw, 0, false⟩
  | .ELD_BASE_XBW => ⟨.eland, 0x18104, 1, 0, 1, 0, 0, 8, .rw, 0, false⟩
  | .ELD_BASE_XBA => ⟨.eland, 0x18104, 1, 0, 1, 0, 8, 8, .rw, 0, false⟩
  | .ELD_BASE_XA_NOM => ⟨.eland, 0x18104, 1, 0, 1, 0, 16, 8, .rw, 0, false⟩
  | .ELD_BASE_TABLE_IN => ⟨.eland, 0x18104, 1, 0, 1, 0, 24, 5, .rw, 0, false⟩
  | .ELD_OUT_DSTREAM => ⟨.eland, 0x18108, 1, 0, 1, 0, 0, 12, .rw, 0, false⟩
  | .ELD_OUT_SSTREAM => ⟨.eland, 0x18108, 1, 0, 1, 0, 12, 12, .rw, 0, false⟩
  | .ELD_OUT2_CSTREAM => ⟨.eland, 0x1810C, 1, 0, 1, 0, 0, 12, .rw, 0, false⟩
  | .ELD_WBASE_TILE => ⟨.eland, 0x18110, 1, 0, 1, 0, 0, 22, .rw, 0, false⟩
  | .ELD_SBASE_SIDE => ⟨.eland, 0x18114, 1, 0, 1, 0, 0, 22, .rw, 0, false⟩
  | .ELD_CBASE_CHAN => ⟨.eland, 0x18118, 1, 0, 1, 0, 0, 22, .rw, 0, false⟩
  | .ELD_TBASE_TABLE => ⟨.eland, 0x1811C, 1, 0, 1, 0, 0, 22, .rw, 0, false⟩
  | .ELD_OUTBLK_OUT_EXP => ⟨.eland, 0x18140, 1, 0, 32, 4, 0, 8, .rw, 0, false⟩
  | .ELD_OUTBLK_ZO => ⟨.eland, 0x18140, 1, 0, 32, 4, 8, 8, .rw, 0, false⟩
  | .ELD_OUTBLK_NCH => ⟨.eland, 0x18140, 1, 0, 32, 4, 16, 7, .rw, 0, false⟩
  | .ELD_ESTAT_SETS_USED => ⟨.eland, 0x181C0, 1, 0, 1, 0, 0, 5, .rs, 0, false⟩
  | .ELD_ECNT_CLIP => ⟨.eland, 0x181C8, 1, 0, 1, 0, 0, 32, .rs, 0, false⟩
  | .ELD_ECNT_ESC => ⟨.eland, 0x181C8, 1, 0, 1, 0, 32, 32, .rs, 0, false⟩
  | .ELD_ECNT2_ESC_OVF => ⟨.eland, 0x181D0, 1, 0, 1, 0, 0, 32, .rs, 0, false⟩
  | .ELD_ECNT2_SCALE_RANGE => ⟨.eland, 0x181D0, 1, 0, 1, 0, 32, 32, .rs, 0, false⟩
  | .CND_CTRL_ADAPT_EN => ⟨.block, 0x60300000, 1, 0, 1, 0, 0, 1, .rw, 0, false⟩
  | .CND_TBL_INDEX_INDEX => ⟨.block, 0x60300008, 1, 0, 1, 0, 0, 16, .rw, 0, true⟩
  | .CND_TBL_INDEX_COPY => ⟨.block, 0x60300008, 1, 0, 1, 0, 16, 1, .rw, 0, true⟩
  | .CND_TBL_LO_DATA => ⟨.block, 0x60300010, 1, 0, 1, 0, 0, 64, .rw, 0, true⟩
  | .CND_TBL_HI_DATA => ⟨.block, 0x60300018, 1, 0, 1, 0, 0, 64, .rw, 0, true⟩
  | .CND_STAT_BASE_ADDR => ⟨.block, 0x60300020, 1, 0, 1, 0, 0, 40, .rw, 0, false⟩
  | .CND_OSTAT_BASE_ADDR => ⟨.block, 0x60300028, 1, 0, 1, 0, 0, 40, .rw, 0, false⟩
  | .CND_CNT_CLIP_CLIP => ⟨.block, 0x60300030, 1, 0, 1, 0, 0, 32, .rs, 0, false⟩
  | .CND_CNT_CLIP_ESC => ⟨.block, 0x60300030, 1, 0, 1, 0, 32, 32, .rs, 0, false⟩
  | .CND_CNT_ESC2_ESC_OVF => ⟨.block, 0x60300038, 1, 0, 1, 0, 0, 32, .rs, 0, false⟩
  | .CND_CNT_ESC2_RAW_BITS => ⟨.block, 0x60300038, 1, 0, 1, 0, 32, 32, .rs, 0, false⟩
  | .CND_CNT_ADAPT_RISE => ⟨.block, 0x60300040, 1, 0, 1, 0, 0, 32, .rs, 0, false⟩
  | .CND_CNT_ADAPT_FALL => ⟨.block, 0x60300040, 1, 0, 1, 0, 32, 32, .rs, 0, false⟩
  | .CND_CNT_LIMIT_CEILING => ⟨.block, 0x60300048, 1, 0, 1, 0, 0, 32, .rs, 0, false⟩
  | .CND_CNT_LIMIT_RESTART => ⟨.block, 0x60300048, 1, 0, 1, 0, 32, 32, .rs, 0, false⟩
  | .CND_CNT_MISC_NOSLOT => ⟨.block, 0x60300050, 1, 0, 1, 0, 0, 32, .rs, 0, false⟩
  | .CND_CNT_MISC_REC_LOST => ⟨.block, 0x60300050, 1, 0, 1, 0, 32, 16, .rs, 0, false⟩
  | .CND_CNT_MISC_OREC_LOST => ⟨.block, 0x60300050, 1, 0, 1, 0, 48, 16, .rs, 0, false⟩
  | .CND_CNT_MISC2_REPEAT => ⟨.block, 0x60300058, 1, 0, 1, 0, 0, 32, .rs, 0, false⟩
  | .CND_BSTATE_EXP => ⟨.block, 0x60310000, 1, 0, 1024, 8, 0, 6, .rs, 0, false⟩
  | .CND_BSTATE_FALL_CNT => ⟨.block, 0x60310000, 1, 0, 1024, 8, 6, 4, .rs, 0, false⟩
  | .CND_BSTATE_CEILING => ⟨.block, 0x60310000, 1, 0, 1024, 8, 10, 1, .rs, 0, false⟩
  | .CND_BSTATE_FLOOR => ⟨.block, 0x60310000, 1, 0, 1024, 8, 11, 1, .rs, 0, false⟩
  | .CND_BSTATE_CONSTANT => ⟨.block, 0x60310000, 1, 0, 1024, 8, 12, 1, .rs, 0, false⟩
  | .CND_BSTATE_WINDOW => ⟨.block, 0x60310000, 1, 0, 1024, 8, 32, 32, .rs, 0, false⟩
  | .FAB_FC_CTRL_RUN => ⟨.fawn, 0x18100, 1, 0, 1, 0, 0, 1, .rw, 0, false⟩
  | .FAB_FC_CTRL_RECV_LIMIT => ⟨.fawn, 0x18100, 1, 0, 1, 0, 4, 12, .rw, 0, false⟩
  | .FAB_FC_ENTRY_PC => ⟨.fawn, 0x18104, 1, 0, 1, 0, 0, 12, .rw, 0, false⟩
  | .FAB_FC_STATUS_PC => ⟨.fawn, 0x18108, 1, 0, 1, 0, 0, 12, .rs, 0, false⟩
  | .FAB_FC_STATUS_STATE => ⟨.fawn, 0x18108, 1, 0, 1, 0, 12, 2, .rs, 0, false⟩
  | .FAB_FC_STATUS_PZ => ⟨.fawn, 0x18108, 1, 0, 1, 0, 14, 1, .rs, 0, false⟩
  | .FAB_FC_STATUS_EPOCH_LO => ⟨.fawn, 0x18108, 1, 0, 1, 0, 15, 8, .rs, 0, false⟩
  | .FAB_FC_LEVEL_LEVEL => ⟨.fawn, 0x1810C, 1, 0, 1, 0, 0, 8, .ro, 3, false⟩
  | .FAB_FC_WIN_BASE => ⟨.fawn, 0x18110, 1, 0, 8, 8, 0, 22, .rw, 0, false⟩
  | .FAB_FC_WIN_VALID => ⟨.fawn, 0x18110, 1, 0, 8, 8, 22, 1, .rw, 0, false⟩
  | .FAB_FC_WIN_SIZE_M1 => ⟨.fawn, 0x18110, 1, 0, 8, 8, 32, 17, .rw, 0, false⟩
  | .FAB_FC_JOB_RANK => ⟨.fawn, 0x18150, 1, 0, 1, 0, 0, 8, .rw, 0, true⟩
  | .FAB_FC_JOB_COUNT => ⟨.fawn, 0x18150, 1, 0, 1, 0, 8, 8, .rw, 0, true⟩
  | .FAB_FC_JOB_ID => ⟨.fawn, 0x18150, 1, 0, 1, 0, 16, 16, .rw, 0, true⟩
  | .FAB_FC_CNT_STALL_RECV => ⟨.fawn, 0x18158, 1, 0, 1, 0, 0, 32, .rs, 0, false⟩
  | .FAB_FC_CNT_STALL_SEND => ⟨.fawn, 0x18158, 1, 0, 1, 0, 32, 32, .rs, 0, false⟩
  | .FAB_FC_CNT_EVT_MISSING => ⟨.fawn, 0x18160, 1, 0, 1, 0, 0, 32, .rs, 0, false⟩
  | .FAB_FC_CNT_EVT_BAD_SEND => ⟨.fawn, 0x18160, 1, 0, 1, 0, 32, 32, .rs, 0, false⟩
  | .FAB_FC_CNT_ECC_CORRECTED => ⟨.fawn, 0x18168, 1, 0, 1, 0, 0, 32, .rs, 0, false⟩
  | .FAB_FC_CNT_ECC_UNCORR => ⟨.fawn, 0x18168, 1, 0, 1, 0, 32, 32, .rs, 0, false⟩
  | .FAB_FC_FAULT_CODE => ⟨.fawn, 0x18170, 1, 0, 1, 0, 0, 4, .rs, 0, false⟩
  | .FAB_FC_FAULT_PC => ⟨.fawn, 0x18170, 1, 0, 1, 0, 4, 12, .rs, 0, false⟩
  | .FAB_FC_FAULT_ADDR => ⟨.fawn, 0x18170, 1, 0, 1, 0, 16, 40, .rs, 0, false⟩
  | .FAB_FC_CNT_INSTR_COUNT => ⟨.fawn, 0x18178, 1, 0, 1, 0, 0, 64, .rs, 0, false⟩
  | .FAB_FC_SREG_VALUE => ⟨.fawn, 0x18200, 1, 0, 32, 4, 0, 32, .ro, 0, false⟩
  | .FAB_FC_VREG_VALUE => ⟨.fawn, 0x18280, 1, 0, 8, 32, 0, 256, .ro, 0, false⟩
  | .FAB_SC_CNT_VALUE => ⟨.steward, 0x18400, 1, 0, 16, 4, 0, 32, .rw, 0, true⟩
  | .NSL_STATE_STATE => ⟨.block, 0x60400000, 1, 0, 16, 256, 0, 3, .rs, 0, false⟩
  | .NSL_STATE_BANK => ⟨.block, 0x60400000, 1, 0, 16, 256, 3, 4, .rs, 0, false⟩
  | .NSL_STATE_STAGED_BANK => ⟨.block, 0x60400000, 1, 0, 16, 256, 7, 4, .rs, 0, false⟩
  | .NSL_STATE_HAS_STAGED => ⟨.block, 0x60400000, 1, 0, 16, 256, 11, 1, .rs, 0, false⟩
  | .NSL_IMAGE_ID => ⟨.block, 0x60400008, 1, 0, 16, 256, 0, 32, .rs, 0, false⟩
  | .NSL_IMAGE_BANK_ID => ⟨.block, 0x60400008, 1, 0, 16, 256, 32, 32, .rs, 0, false⟩
  | .NSL_TAGS_BASE => ⟨.block, 0x60400010, 1, 0, 16, 256, 0, 14, .rs, 0, false⟩
  | .NSL_TAGS_COUNT => ⟨.block, 0x60400010, 1, 0, 16, 256, 16, 15, .rs, 0, false⟩
  | .NSL_SCHED_II => ⟨.block, 0x60400018, 1, 0, 16, 256, 0, 12, .rs, 0, false⟩
  | .NSL_SCHED_STEP => ⟨.block, 0x60400018, 1, 0, 16, 256, 16, 8, .rs, 0, false⟩
  | .NSL_PAD_SLACK => ⟨.block, 0x60400020, 1, 0, 16, 256, 0, 10, .rs, 0, false⟩
  | .NSL_PAD_SHIFT => ⟨.block, 0x60400020, 1, 0, 16, 256, 16, 10, .rs, 0, false⟩
  | .NSL_PAD_CYCLES => ⟨.block, 0x60400020, 1, 0, 16, 256, 32, 16, .rs, 0, false⟩
  | .NSL_LEAVE_UNITS => ⟨.block, 0x60400028, 1, 0, 16, 256, 0, 16, .rs, 0, false⟩
  | .NSL_LEAVE_MAX_BUSY => ⟨.block, 0x60400028, 1, 0, 16, 256, 16, 9, .rs, 0, false⟩
  | .NSL_REGIONS_MASK => ⟨.block, 0x60400030, 1, 0, 16, 256, 0, 8, .rs, 0, false⟩
  | .NSL_REGIONS_LEAD => ⟨.block, 0x60400030, 1, 0, 16, 256, 8, 3, .rs, 0, false⟩
  | .NSL_LOAD_STATUS => ⟨.block, 0x60400038, 1, 0, 16, 256, 0, 16, .rs, 0, false⟩
  | .NSL_LOAD_CHECK => ⟨.block, 0x60400038, 1, 0, 16, 256, 16, 4, .rs, 0, false⟩
  | .NSL_LOAD_UNIT => ⟨.block, 0x60400038, 1, 0, 16, 256, 32, 16, .rs, 0, false⟩
  | .NSL_DIGEST_VALUE => ⟨.block, 0x60400040, 16, 256, 8, 8, 0, 64, .rs, 0, false⟩
  | .NSL_BDIGEST_VALUE => ⟨.block, 0x60400080, 16, 256, 8, 8, 0, 64, .rs, 0, false⟩
  | .NSL_CNT_LOADS => ⟨.block, 0x604000C0, 1, 0, 16, 256, 0, 32, .rs, 0, false⟩
  | .NSL_CNT_REFUSED => ⟨.block, 0x604000C0, 1, 0, 16, 256, 32, 32, .rs, 0, false⟩
  | .NSL_CTRL_SIG_REQUIRED => ⟨.block, 0x60401000, 1, 0, 1, 0, 0, 1, .rw, 0, true⟩
  | .NSL_KEYS_COUNT => ⟨.block, 0x60401008, 1, 0, 1, 0, 0, 4, .rs, 0, false⟩
  | .NSL_LAST_STATUS => ⟨.block, 0x60401010, 1, 0, 1, 0, 0, 16, .rs, 0, false⟩
  | .NSL_LAST_SLOT => ⟨.block, 0x60401010, 1, 0, 1, 0, 16, 4, .rs, 0, false⟩
  | .NSL_SMP_CTRL_ENABLE => ⟨.block, 0x60402000, 1, 0, 16, 64, 0, 1, .rw, 0, false⟩
  | .NSL_SMP_CTRL_ACC_PRESCALE => ⟨.block, 0x60402000, 1, 0, 16, 64, 8, 24, .rw, 1, false⟩
  | .NSL_SMP_CTRL_REJ_PRESCALE => ⟨.block, 0x60402000, 1, 0, 16, 64, 32, 24, .rw, 0, false⟩
  | .NSL_SMP_MATCH_ACC_MASK => ⟨.block, 0x60402008, 1, 0, 16, 64, 0, 16, .rw, 0, false⟩
  | .NSL_SMP_MATCH_ACC_MATCH => ⟨.block, 0x60402008, 1, 0, 16, 64, 16, 16, .rw, 0, false⟩
  | .NSL_SMP_RING_BASE => ⟨.block, 0x60402010, 1, 0, 16, 64, 0, 40, .rw, 0, false⟩
  | .NSL_SMP_RLEN_LEN => ⟨.block, 0x60402018, 1, 0, 16, 64, 0, 32, .rw, 0, false⟩
  | .NSL_SMP_SEQ_NEXT => ⟨.block, 0x60402020, 1, 0, 16, 64, 0, 32, .rs, 0, false⟩
  | .NSL_SMP_SEQ_OLDEST => ⟨.block, 0x60402020, 1, 0, 16, 64, 32, 32, .rs, 0, false⟩
  | .NSL_SMP_CNT_ACCEPTED => ⟨.block, 0x60402028, 1, 0, 16, 64, 0, 32, .rs, 0, false⟩
  | .NSL_SMP_CNT_REJECTED => ⟨.block, 0x60402028, 1, 0, 16, 64, 32, 32, .rs, 0, false⟩
  | .NSL_SMP_CNT2_OTHER => ⟨.block, 0x60402030, 1, 0, 16, 64, 0, 32, .rs, 0, false⟩
  | .NSL_SMP_CNT2_LOST => ⟨.block, 0x60402030, 1, 0, 16, 64, 32, 32, .rs, 0, false⟩
  | .NSL_SMP_CNT3_DROPPED => ⟨.block, 0x60402038, 1, 0, 16, 64, 0, 32, .rs, 0, false⟩
  | .NSL_JOB_STATE_STATE => ⟨.block, 0x60403000, 1, 0, 8, 64, 0, 3, .rs, 0, false⟩
  | .NSL_JOB_STATE_DET => ⟨.block, 0x60403000, 1, 0, 8, 64, 3, 1, .rs, 0, false⟩
  | .NSL_JOB_STATE_SLOT => ⟨.block, 0x60403000, 1, 0, 8, 64, 4, 4, .rs, 0, false⟩
  | .NSL_JOB_STATE_CLUSTERS => ⟨.block, 0x60403000, 1, 0, 8, 64, 8, 8, .rs, 0, false⟩
  | .NSL_JOB_STATE_STATUS => ⟨.block, 0x60403000, 1, 0, 8, 64, 16, 16, .rs, 0, false⟩
  | .NSL_JOB_STATE_STEPS => ⟨.block, 0x60403000, 1, 0, 8, 64, 32, 32, .rs, 0, false⟩
  | .NSL_JOB_LIMIT_CYCLES => ⟨.block, 0x60403008, 1, 0, 8, 64, 0, 32, .rw, 0x1000000, true⟩
  | .NSL_JOB_LIMIT_LEAVE => ⟨.block, 0x60403008, 1, 0, 8, 64, 32, 16, .rs, 0, false⟩
  | .NSL_JOB_POS_PASS => ⟨.block, 0x60403010, 1, 0, 8, 64, 0, 16, .rs, 0, false⟩
  | .NSL_JOB_POS_SEQ => ⟨.block, 0x60403010, 1, 0, 8, 64, 16, 32, .rs, 0, false⟩
  | .NSL_JOB_CNT_GCLIP => ⟨.block, 0x60403018, 1, 0, 8, 64, 0, 32, .rs, 0, false⟩
  | .NSL_JOB_CNT_SCLIP => ⟨.block, 0x60403018, 1, 0, 8, 64, 32, 32, .rs, 0, false⟩
  | .NSL_JOB_CNT_WCLIP => ⟨.block, 0x60403020, 1, 0, 8, 64, 0, 32, .rs, 0, false⟩
  | .NSL_JOB_CNT_REVOKES => ⟨.block, 0x60403020, 1, 0, 8, 64, 32, 32, .rs, 0, false⟩
  | .SPB_CTRL_ENABLE => ⟨.block, 0x60600000, 1, 0, 1, 0, 0, 1, .rw, 0, false⟩
  | .SPB_SEGTAB_BASE => ⟨.block, 0x60600008, 1, 0, 1, 0, 0, 40, .rw, 0, false⟩
  | .SPB_SEG_WR => ⟨.block, 0x60600010, 1, 0, 1, 0, 0, 32, .rs, 0, false⟩
  | .SPB_SEG_RD => ⟨.block, 0x60600010, 1, 0, 1, 0, 32, 32, .rw, 0, true⟩
  | .SPB_LOST_IDX_NEXT => ⟨.block, 0x60600018, 1, 0, 1, 0, 0, 8, .rs, 0, false⟩
  | .SPB_LOST_IDX_TOTAL => ⟨.block, 0x60600018, 1, 0, 1, 0, 32, 32, .rs, 0, false⟩
  | .SPB_FORCE_TERM => ⟨.block, 0x60600020, 1, 0, 1, 0, 0, 8, .wo, 0, true⟩
  | .SPB_ENV_INDEX_INDEX => ⟨.block, 0x60600028, 1, 0, 1, 0, 0, 16, .rw, 0, true⟩
  | .SPB_ENV_INDEX_COPY => ⟨.block, 0x60600028, 1, 0, 1, 0, 16, 1, .rw, 0, true⟩
  | .SPB_ENV_LO_DATA => ⟨.block, 0x60600030, 1, 0, 1, 0, 0, 64, .rw, 0, true⟩
  | .SPB_ENV_HI_DATA => ⟨.block, 0x60600038, 1, 0, 1, 0, 0, 64, .rw, 0, true⟩
  | .SPB_CNT_TRIG_CAPTURED => ⟨.block, 0x60600040, 1, 0, 1, 0, 0, 32, .rs, 0, false⟩
  | .SPB_CNT_TRIG_LOST => ⟨.block, 0x60600040, 1, 0, 1, 0, 32, 32, .rs, 0, false⟩
  | .SPB_CNT_ROW_GAP_ROWS => ⟨.block, 0x60600048, 1, 0, 1, 0, 0, 32, .rs, 0, false⟩
  | .SPB_CNT_ROW_LATE_SAMPLE => ⟨.block, 0x60600048, 1, 0, 1, 0, 32, 32, .rs, 0, false⟩
  | .SPB_CNT_MISC_MASK_FAIL => ⟨.block, 0x60600050, 1, 0, 1, 0, 0, 32, .rs, 0, false⟩
  | .SPB_CNT_MISC_BAD_RELEASE => ⟨.block, 0x60600050, 1, 0, 1, 0, 32, 32, .rs, 0, false⟩
  | .SPB_CNT_MISC2_POISON_ROWS => ⟨.block, 0x60600058, 1, 0, 1, 0, 0, 32, .rs, 0, false⟩
  | .SPB_CNT_MISC2_VOIDED => ⟨.block, 0x60600058, 1, 0, 1, 0, 32, 32, .rs, 0, false⟩
  | .SPB_LOST_ENTRY => ⟨.block, 0x60601000, 1, 0, 256, 16, 0, 128, .rs, 0, false⟩
  | .SPB_GCFG_EN => ⟨.block, 0x60602000, 1, 0, 64, 128, 0, 1, .rw, 0, false⟩
  | .SPB_GCFG_REDUCE => ⟨.block, 0x60602000, 1, 0, 64, 128, 1, 2, .rw, 0, false⟩
  | .SPB_GCFG_AVG_K => ⟨.block, 0x60602000, 1, 0, 64, 128, 3, 5, .rw, 0, false⟩
  | .SPB_GCFG_HOLD_MODE => ⟨.block, 0x60602000, 1, 0, 64, 128, 8, 1, .rw, 0, false⟩
  | .SPB_GCFG_PRIO => ⟨.block, 0x60602000, 1, 0, 64, 128, 9, 2, .rw, 0, false⟩
  | .SPB_GCFG_MASK_EN => ⟨.block, 0x60602000, 1, 0, 64, 128, 11, 1, .rw, 0, false⟩
  | .SPB_GCFG_ROW_WAIT => ⟨.block, 0x60602000, 1, 0, 64, 128, 16, 12, .rw, 64, false⟩
  | .SPB_GHOLD_HOLD => ⟨.block, 0x60602004, 1, 0, 64, 128, 0, 32, .rw, 0, false⟩
  | .SPB_GDEPTH_PRE => ⟨.block, 0x60602008, 1, 0, 64, 128, 0, 16, .rw, 0, false⟩
  | .SPB_GDEPTH_POST => ⟨.block, 0x60602008, 1, 0, 64, 128, 16, 16, .rw, 0, false⟩
  | .SPB_GDEAD_DEADBAND => ⟨.block, 0x6060200C, 1, 0, 64, 128, 0, 16, .rw, 0, false⟩
  | .SPB_GCMASK_UNITS => ⟨.block, 0x60602010, 1, 0, 64, 128, 0, 128, .rw, 0, false⟩
  | .SPB_GRING_BASE => ⟨.block, 0x60602020, 1, 0, 64, 128, 0, 40, .rw, 0, false⟩
  | .SPB_GRLEN_SLOTS => ⟨.block, 0x60602028, 1, 0, 64, 128, 0, 32, .rw, 0, false⟩
  | .SPB_GRLEN_SLOT_BYTES => ⟨.block, 0x60602028, 1, 0, 64, 128, 32, 16, .rs, 0, false⟩
  | .SPB_GAREA_BASE => ⟨.block, 0x60602030, 1, 0, 64, 128, 0, 40, .rw, 0, false⟩
  | .SPB_GALEN_LEN => ⟨.block, 0x60602038, 1, 0, 64, 128, 0, 40, .rw, 0, false⟩
  | .SPB_GSHARE_SHARE => ⟨.block, 0x60602040, 1, 0, 64, 128, 0, 16, .rw, 0, false⟩
  | .SPB_GSHARE_BURST => ⟨.block, 0x60602040, 1, 0, 64, 128, 16, 24, .rw, 0, false⟩
  | .SPB_GMASK_FIRST => ⟨.block, 0x60602048, 1, 0, 64, 128, 0, 16, .rw, 0, false⟩
  | .SPB_GMASK_COUNT => ⟨.block, 0x60602048, 1, 0, 64, 128, 16, 13, .rw, 0, false⟩
  | .SPB_GCMD_ARM => ⟨.block, 0x6060204C, 1, 0, 64, 128, 0, 1, .wo, 0, true⟩
  | .SPB_GCMD_STOP => ⟨.block, 0x6060204C, 1, 0, 64, 128, 1, 1, .wo, 0, true⟩
  | .SPB_GSTAT_STATE => ⟨.block, 0x60602050, 1, 0, 64, 128, 0, 3, .rs, 0, false⟩
  | .SPB_GSTAT_MASK_FAIL => ⟨.block, 0x60602050, 1, 0, 64, 128, 3, 1, .rs, 0, false⟩
  | .SPB_GSTAT_PRE_AVAIL => ⟨.block, 0x60602050, 1, 0, 64, 128, 16, 16, .rs, 0, false⟩
  | .SPB_GSTAT_NCH => ⟨.block, 0x60602050, 1, 0, 64, 128, 32, 13, .rs, 0, false⟩
  | .SPB_GSTAT_NBLK => ⟨.block, 0x60602050, 1, 0, 64, 128, 45, 7, .rs, 0, false⟩
  | .SPB_GCNT_CAPTURED => ⟨.block, 0x60602058, 1, 0, 64, 128, 0, 32, .rs, 0, false⟩
  | .SPB_GCNT_LOST => ⟨.block, 0x60602058, 1, 0, 64, 128, 32, 32, .rs, 0, false⟩
  | .SPB_GCNT2_GAP_ROWS => ⟨.block, 0x60602060, 1, 0, 64, 128, 0, 32, .rs, 0, false⟩
  | .SPB_GCNT2_ROWS => ⟨.block, 0x60602060, 1, 0, 64, 128, 32, 32, .rs, 0, false⟩
  | .SPB_GCNT3_PRE_SHORT => ⟨.block, 0x60602068, 1, 0, 64, 128, 0, 32, .rs, 0, false⟩
  | .SPB_CMP_CHAN => ⟨.block, 0x60610000, 1, 0, 1024, 16, 0, 16, .rw, 0, false⟩
  | .SPB_CMP_SLOPE => ⟨.block, 0x60610000, 1, 0, 1024, 16, 16, 2, .rw, 0, false⟩
  | .SPB_CMP_LEXP => ⟨.block, 0x60610000, 1, 0, 1024, 16, 24, 8, .rw, 0, false⟩
  | .SPB_CMP_LEVEL => ⟨.block, 0x60610000, 1, 0, 1024, 16, 32, 24, .rw, 0, false⟩
  | .SPB_CMPH_HYST => ⟨.block, 0x60610008, 1, 0, 1024, 16, 0, 24, .rw, 0, false⟩
  | .SPB_CMPH_ARMED => ⟨.block, 0x60610008, 1, 0, 1024, 16, 24, 1, .rs, 0, false⟩
  | .SPB_CMPH_FIRES => ⟨.block, 0x60610008, 1, 0, 1024, 16, 32, 32, .rs, 0, false⟩
  | .SPB_VT_SLOT => ⟨.block, 0x60620000, 1, 0, 32, 16, 0, 4, .rw, 0, false⟩
  | .SPB_VT_MODE => ⟨.block, 0x60620000, 1, 0, 32, 16, 4, 1, .rw, 0, false⟩
  | .SPB_VT_EN => ⟨.block, 0x60620000, 1, 0, 32, 16, 5, 1, .rw, 0, false⟩
  | .SPB_VT_CAUSE_REQ => ⟨.block, 0x60620000, 1, 0, 32, 16, 6, 1, .rw, 0, false⟩
  | .SPB_VT_FLAG_VETO => ⟨.block, 0x60620000, 1, 0, 32, 16, 8, 7, .rw, 0, false⟩
  | .SPB_VT_MASK => ⟨.block, 0x60620000, 1, 0, 32, 16, 16, 16, .rw, 0, false⟩
  | .SPB_VT_MATCH => ⟨.block, 0x60620000, 1, 0, 32, 16, 32, 16, .rw, 0, false⟩
  | .SPB_CO_MIN => ⟨.block, 0x60630000, 1, 0, 128, 128, 0, 4, .rw, 1, false⟩
  | .SPB_CO_WINDOW => ⟨.block, 0x60630000, 1, 0, 128, 128, 4, 13, .rw, 1, false⟩
  | .SPB_CO_VWIN => ⟨.block, 0x60630000, 1, 0, 128, 128, 17, 13, .rw, 0, false⟩
  | .SPB_COIN_TERM => ⟨.block, 0x60630008, 128, 128, 8, 8, 0, 11, .rw, 0, false⟩
  | .SPB_COIN_EN => ⟨.block, 0x60630008, 128, 128, 8, 8, 11, 1, .rw, 0, false⟩
  | .SPB_COIN_VETO => ⟨.block, 0x60630008, 128, 128, 8, 8, 12, 1, .rw, 0, false⟩
  | .SPB_COIN_DELAY => ⟨.block, 0x60630008, 128, 128, 8, 8, 16, 12, .rw, 0, false⟩
  | .SPB_COCNT_FIRES => ⟨.block, 0x60630048, 1, 0, 128, 128, 0, 32, .rs, 0, false⟩
  | .SPB_LINE_DIR => ⟨.block, 0x60640000, 1, 0, 8, 16, 0, 1, .rw, 0, false⟩
  | .SPB_LINE_SRC => ⟨.block, 0x60640000, 1, 0, 8, 16, 1, 7, .rw, 0, false⟩
  | .SPB_LINE_WIDTH => ⟨.block, 0x60640000, 1, 0, 8, 16, 8, 3, .rw, 4, false⟩
  | .SPB_LINE_DLY => ⟨.block, 0x60640000, 1, 0, 8, 16, 16, 12, .rw, 0, false⟩
  | .SPB_LCNT_EDGES => ⟨.block, 0x60640008, 1, 0, 8, 16, 0, 32, .rs, 0, false⟩
  | .SPB_LCNT_DRIVEN => ⟨.block, 0x60640008, 1, 0, 8, 16, 32, 32, .rs, 0, false⟩
  | .MEM_CTRL_SCRUB_EN => ⟨.block, 0x60700000, 1, 0, 1, 0, 0, 1, .rw, 1, false⟩
  | .MEM_CTRL_RET_EN => ⟨.block, 0x60700000, 1, 0, 1, 0, 1, 1, .rw, 1, false⟩
  | .MEM_STAGE_BASE => ⟨.block, 0x60700008, 1, 0, 1, 0, 0, 40, .rw, 0x6f0000000, false⟩
  | .MEM_GOLD_BASE => ⟨.block, 0x60700010, 1, 0, 1, 0, 0, 40, .rw, 0x100000000, false⟩
  | .MEM_GOLD_SPAN_SPAN => ⟨.block, 0x60700018, 1, 0, 1, 0, 0, 4, .rw, 4, false⟩
  | .MEM_RET_BASE => ⟨.block, 0x60700020, 1, 0, 1, 0, 0, 40, .rw, 0x122000000, false⟩
  | .MEM_RET_LEN => ⟨.block, 0x60700028, 1, 0, 1, 0, 0, 40, .rw, 0x40000000, false⟩
  | .MEM_RET_HOLD_MIN => ⟨.block, 0x60700030, 1, 0, 1, 0, 0, 32, .rw, 0x10000, false⟩
  | .MEM_SCRUB_PERIOD => ⟨.block, 0x60700038, 1, 0, 1, 0, 0, 16, .rw, 0x3840, false⟩
  | .MEM_SCRUB_POS => ⟨.block, 0x60700038, 1, 0, 1, 0, 16, 48, .rs, 0, false⟩
  | .MEM_TEMP_DEG => ⟨.block, 0x60700040, 1, 0, 1, 0, 0, 8, .rs, 0, false⟩
  | .MEM_TEMP_REFRESH => ⟨.block, 0x60700040, 1, 0, 1, 0, 8, 3, .rs, 1, false⟩
  | .MEM_FIRST_UE_ADDR => ⟨.block, 0x60700048, 1, 0, 1, 0, 0, 40, .rs, 0, false⟩
  | .MEM_FIRST_UE_VALID => ⟨.block, 0x60700048, 1, 0, 1, 0, 63, 1, .w1c, 0, false⟩
  | .MEM_CNT_ECC_CORRECTED => ⟨.block, 0x60700050, 1, 0, 1, 0, 0, 32, .rs, 0, false⟩
  | .MEM_CNT_ECC_UNCORR => ⟨.block, 0x60700050, 1, 0, 1, 0, 32, 32, .rs, 0, false⟩
  | .MEM_CNT_POISON_READS => ⟨.block, 0x60700058, 1, 0, 1, 0, 0, 32, .rs, 0, false⟩
  | .MEM_CNT_GOLD_RESTORES => ⟨.block, 0x60700060, 1, 0, 1, 0, 0, 32, .rs, 0, false⟩
  | .MEM_CNT_GOLD_SLOW => ⟨.block, 0x60700060, 1, 0, 1, 0, 32, 32, .rs, 0, false⟩
  | .MEM_CNT_GOLD2_REPAIRED => ⟨.block, 0x60700068, 1, 0, 1, 0, 0, 32, .rs, 0, false⟩
  | .MEM_CNT_GOLD2_FAILED => ⟨.block, 0x60700068, 1, 0, 1, 0, 32, 32, .rs, 0, false⟩
  | .MEM_CNT_RET_WRITTEN => ⟨.block, 0x60700070, 1, 0, 1, 0, 0, 32, .rs, 0, false⟩
  | .MEM_CNT_RET_DROPPED => ⟨.block, 0x60700070, 1, 0, 1, 0, 32, 32, .rs, 0, false⟩
  | .MEM_CNT_RET2_MISSING => ⟨.block, 0x60700078, 1, 0, 1, 0, 0, 32, .rs, 0, false⟩
  | .MEM_CLASS_LIMIT => ⟨.block, 0x60700110, 1, 0, 8, 16, 0, 20, .rw, 0, false⟩
  | .MEM_CLASS_CNT_BYTES => ⟨.block, 0x60700108, 1, 0, 9, 16, 0, 64, .rs, 0, false⟩
  | .OPX_SUMMARY_UP => ⟨.block, 0x60800000, 1, 0, 1, 0, 0, 16, .rs, 0, false⟩
  | .OPX_SUMMARY_DARK => ⟨.block, 0x60800000, 1, 0, 1, 0, 16, 16, .rs, 0, false⟩
  | .OPX_VER_MINOR => ⟨.block, 0x60800008, 1, 0, 1, 0, 0, 8, .ro, 0, false⟩
  | .OPX_VER_MAJOR => ⟨.block, 0x60800008, 1, 0, 1, 0, 8, 8, .ro, 1, false⟩
  | .OPX_VER_MIN_MAJOR => ⟨.block, 0x60800008, 1, 0, 1, 0, 16, 8, .ro, 1, false⟩
  | .OPX_PCTRL_EN => ⟨.block, 0x60801000, 1, 0, 16, 512, 0, 1, .rw, 0, true⟩
  | .OPX_PCTRL_ROLE => ⟨.block, 0x60801000, 1, 0, 16, 512, 1, 2, .rw, 0, false⟩
  | .OPX_PCTRL_DEEP => ⟨.block, 0x60801000, 1, 0, 16, 512, 3, 1, .rw, 0, true⟩
  | .OPX_PCTRL_DEEP_OK => ⟨.block, 0x60801000, 1, 0, 16, 512, 4, 1, .rw, 0, true⟩
  | .OPX_PSTAT_STATE => ⟨.block, 0x60801008, 1, 0, 16, 512, 0, 3, .rs, 0, false⟩
  | .OPX_PSTAT_LAST_CAUSE => ⟨.block, 0x60801008, 1, 0, 16, 512, 3, 3, .rs, 0, false⟩
  | .OPX_PSTAT_PARTNER_SYS => ⟨.block, 0x60801008, 1, 0, 16, 512, 6, 6, .rs, 0, false⟩
  | .OPX_PSTAT_PARTNER_PORT => ⟨.block, 0x60801008, 1, 0, 16, 512, 12, 4, .rs, 0, false⟩
  | .OPX_PSTAT_PARTNER_ROLE => ⟨.block, 0x60801008, 1, 0, 16, 512, 16, 3, .rs, 0, false⟩
  | .OPX_PSTAT_SAME_SYS => ⟨.block, 0x60801008, 1, 0, 16, 512, 19, 1, .rs, 0, false⟩
  | .OPX_PSTAT_PARTNER_MAJOR => ⟨.block, 0x60801008, 1, 0, 16, 512, 20, 8, .rs, 0, false⟩
  | .OPX_PSTAT_PARTNER_MINOR => ⟨.block, 0x60801008, 1, 0, 16, 512, 28, 8, .rs, 0, false⟩
  | .OPX_PSESS_LOCAL => ⟨.block, 0x60801010, 1, 0, 16, 512, 0, 16, .rs, 0, false⟩
  | .OPX_PSESS_PARTNER => ⟨.block, 0x60801010, 1, 0, 16, 512, 16, 16, .rs, 0, false⟩
  | .OPX_PRX_BASE => ⟨.block, 0x60801018, 1, 0, 16, 512, 0, 40, .rw, 0, false⟩
  | .OPX_PRX_LEN => ⟨.block, 0x60801020, 1, 0, 16, 512, 0, 40, .rw, 0, false⟩
  | .OPX_PVRING_BASE => ⟨.block, 0x60801028, 1, 0, 16, 512, 0, 40, .rw, 0, false⟩
  | .OPX_PVRING_LEN => ⟨.block, 0x60801030, 1, 0, 16, 512, 0, 32, .rw, 0, false⟩
  | .OPX_PVRING_NEXT => ⟨.block, 0x60801030, 1, 0, 16, 512, 32, 32, .rs, 0, false⟩
  | .OPX_PCNT_RETRY_SENT => ⟨.block, 0x60801038, 1, 0, 16, 512, 0, 32, .rs, 0, false⟩
  | .OPX_PCNT_RETRY_SERVED => ⟨.block, 0x60801038, 1, 0, 16, 512, 32, 32, .rs, 0, false⟩
  | .OPX_PCNT_CRC_CRC => ⟨.block, 0x60801040, 1, 0, 16, 512, 0, 32, .rs, 0, false⟩
  | .OPX_PCNT_CRC_SEQ => ⟨.block, 0x60801040, 1, 0, 16, 512, 32, 32, .rs, 0, false⟩
  | .OPX_PCNT_VIOL_VIOL => ⟨.block, 0x60801048, 1, 0, 16, 512, 0, 32, .rs, 0, false⟩
  | .OPX_PCNT_VIOL_NAK_SENT => ⟨.block, 0x60801048, 1, 0, 16, 512, 32, 32, .rs, 0, false⟩
  | .OPX_PCNT_NAK_NAK_RECEIVED => ⟨.block, 0x60801050, 1, 0, 16, 512, 0, 32, .rs, 0, false⟩
  | .OPX_PCNT_NAK_EXPRESS_LOST => ⟨.block, 0x60801050, 1, 0, 16, 512, 32, 32, .rs, 0, false⟩
  | .OPX_PCNT_LINK_DROPS => ⟨.block, 0x60801058, 1, 0, 16, 512, 0, 32, .rs, 0, false⟩
  | .OPX_PCNT_LINK_DARK => ⟨.block, 0x60801058, 1, 0, 16, 512, 32, 32, .rs, 0, false⟩
  | .OPX_PCNT_MISC_BUSY => ⟨.block, 0x60801060, 1, 0, 16, 512, 0, 32, .rs, 0, false⟩
  | .OPX_PCNT_MISC_DISCARDED => ⟨.block, 0x60801060, 1, 0, 16, 512, 32, 16, .rs, 0, false⟩
  | .OPX_PCNT_MISC_DEEP_DENIED => ⟨.block, 0x60801060, 1, 0, 16, 512, 48, 16, .rs, 0, false⟩
  | .OPX_PLAST_NAK_IN => ⟨.block, 0x60801068, 1, 0, 16, 512, 0, 8, .rs, 0, false⟩
  | .OPX_PLAST_NAK_OUT => ⟨.block, 0x60801068, 1, 0, 16, 512, 8, 8, .rs, 0, false⟩
  | .OPX_LCTRL_PATTERN => ⟨.block, 0x60801100, 16, 512, 8, 32, 0, 2, .rw, 0, true⟩
  | .OPX_LCTRL_CHECK => ⟨.block, 0x60801100, 16, 512, 8, 32, 2, 1, .rw, 0, true⟩
  | .OPX_LCTRL_LOOP => ⟨.block, 0x60801100, 16, 512, 8, 32, 3, 2, .rw, 0, true⟩
  | .OPX_LCTRL_INJ => ⟨.block, 0x60801100, 16, 512, 8, 32, 5, 2, .rw, 0, true⟩
  | .OPX_LCTRL_DFE_FREEZE => ⟨.block, 0x60801100, 16, 512, 8, 32, 7, 1, .rw, 0, true⟩
  | .OPX_LCTRL_INJ_INTERVAL => ⟨.block, 0x60801100, 16, 512, 8, 32, 16, 16, .rw, 0, false⟩
  | .OPX_LSTAT_LOS => ⟨.block, 0x60801108, 16, 512, 8, 32, 0, 1, .rs, 1, false⟩
  | .OPX_LSTAT_LOL => ⟨.block, 0x60801108, 16, 512, 8, 32, 1, 1, .rs, 1, false⟩
  | .OPX_LSTAT_ALIGNED => ⟨.block, 0x60801108, 16, 512, 8, 32, 2, 1, .rs, 0, false⟩
  | .OPX_LSTAT_FIBRE => ⟨.block, 0x60801108, 16, 512, 8, 32, 3, 4, .rs, 0, false⟩
  | .OPX_LSTAT_SKEW => ⟨.block, 0x60801108, 16, 512, 8, 32, 7, 2, .rs, 0, false⟩
  | .OPX_LCNT_PAT_ERR => ⟨.block, 0x60801110, 16, 512, 8, 32, 0, 32, .rs, 0, false⟩
  | .OPX_LCNT_BAD_HDR => ⟨.block, 0x60801110, 16, 512, 8, 32, 32, 32, .rs, 0, false⟩
  | .OPX_LDFE_TAPS => ⟨.block, 0x60801118, 16, 512, 8, 32, 0, 60, .rs, 0, false⟩
  | .TB_VALUE_TB => ⟨.block, 0x60900000, 1, 0, 1, 0, 0, 64, .rs, 0, true⟩
  | .TB_EPOCH_COUNT => ⟨.block, 0x60900008, 1, 0, 1, 0, 0, 32, .rs, 0, true⟩
  | .TB_INC_INC => ⟨.block, 0x60900010, 1, 0, 1, 0, 0, 64, .rw, 0xd55555555555, true⟩
  | .TB_STEP_VALUE => ⟨.block, 0x60900018, 1, 0, 1, 0, 0, 64, .rw, 0, true⟩
  | .TB_STEPCTL_GO => ⟨.block, 0x60900020, 1, 0, 1, 0, 0, 1, .wo, 0, true⟩
  | .TB_STEPCTL_MODE => ⟨.block, 0x60900020, 1, 0, 1, 0, 1, 1, .rw, 0, true⟩
  | .TB_STEPCTL_PENDING => ⟨.block, 0x60900020, 1, 0, 1, 0, 2, 1, .rs, 0, true⟩
  | .TB_STEPCTL_EPOCH => ⟨.block, 0x60900020, 1, 0, 1, 0, 32, 32, .rw, 0, true⟩
  | .TB_LATE_WINDOW => ⟨.block, 0x60900028, 1, 0, 1, 0, 0, 32, .rw, 0x3e8, true⟩
  | .TB_MASTER_SELF => ⟨.block, 0x60900030, 1, 0, 1, 0, 0, 1, .rw, 0, true⟩
  | .TB_MASTER_VALID => ⟨.block, 0x60900030, 1, 0, 1, 0, 1, 1, .rw, 0, true⟩
  | .TB_MASTER_SYS => ⟨.block, 0x60900030, 1, 0, 1, 0, 2, 6, .rw, 0, true⟩
  | .TB_MASTER_TIMEOUT => ⟨.block, 0x60900030, 1, 0, 1, 0, 16, 16, .rw, 10, true⟩
  | .TB_STATE_STATE => ⟨.block, 0x60900038, 1, 0, 1, 0, 0, 3, .rs, 0, true⟩
  | .TB_STATE_PPS_PRESENT => ⟨.block, 0x60900038, 1, 0, 1, 0, 3, 1, .rs, 0, true⟩
  | .TB_STATE_REF_LOST => ⟨.block, 0x60900038, 1, 0, 1, 0, 4, 1, .w1c, 0, true⟩
  | .TB_STATE_SYNC_PORT => ⟨.block, 0x60900038, 1, 0, 1, 0, 8, 4, .rs, 0, true⟩
  | .TB_STATE_SYNC_SEQ => ⟨.block, 0x60900038, 1, 0, 1, 0, 16, 16, .rs, 0, true⟩
  | .TB_STATE_SYNC_AGE => ⟨.block, 0x60900038, 1, 0, 1, 0, 32, 32, .rs, 0, true⟩
  | .TB_FWD_MASK => ⟨.block, 0x60900040, 1, 0, 1, 0, 0, 16, .rw, 0, true⟩
  | .TB_CAPCTL_PPS => ⟨.block, 0x60900048, 1, 0, 1, 0, 0, 1, .rw, 0, true⟩
  | .TB_CAPCTL_TRIG => ⟨.block, 0x60900048, 1, 0, 1, 0, 1, 8, .rw, 0, true⟩
  | .TB_CAPCTL_SOFT => ⟨.block, 0x60900048, 1, 0, 1, 0, 9, 1, .wo, 0, true⟩
  | .TB_CAPIDX_NEXT => ⟨.block, 0x60900050, 1, 0, 1, 0, 0, 6, .rs, 0, true⟩
  | .TB_CAPIDX_TOTAL => ⟨.block, 0x60900050, 1, 0, 1, 0, 32, 32, .rs, 0, true⟩
  | .TB_TRXIDX_NEXT => ⟨.block, 0x60900058, 1, 0, 1, 0, 0, 6, .rs, 0, true⟩
  | .TB_TRXIDX_TOTAL => ⟨.block, 0x60900058, 1, 0, 1, 0, 32, 32, .rs, 0, true⟩
  | .TB_PULSECFG_POLARITY => ⟨.block, 0x60900060, 1, 0, 1, 0, 0, 4, .rw, 0, true⟩
  | .TB_CNT_TIME_SYNC_RX => ⟨.block, 0x60900068, 1, 0, 1, 0, 0, 32, .rs, 0, true⟩
  | .TB_CNT_TIME_SYNC_FWD => ⟨.block, 0x60900068, 1, 0, 1, 0, 32, 32, .rs, 0, true⟩
  | .TB_CNT_TIME2_RESP_SENT => ⟨.block, 0x60900070, 1, 0, 1, 0, 0, 32, .rs, 0, true⟩
  | .TB_CNT_TIME2_DROPPED => ⟨.block, 0x60900070, 1, 0, 1, 0, 32, 32, .rs, 0, true⟩
  | .TB_CNT_MISC_INC_REFUSED => ⟨.block, 0x60900078, 1, 0, 1, 0, 0, 16, .rs, 0, true⟩
  | .TB_CNT_MISC_STEPS => ⟨.block, 0x60900078, 1, 0, 1, 0, 16, 16, .rs, 0, true⟩
  | .TB_CNT_MISC_HOLDOVERS => ⟨.block, 0x60900078, 1, 0, 1, 0, 32, 16, .rs, 0, true⟩
  | .TB_CNT_MISC_PPS_GLITCH => ⟨.block, 0x60900078, 1, 0, 1, 0, 48, 16, .rs, 0, true⟩
  | .TB_PDELAY_DELAY => ⟨.block, 0x60900080, 1, 0, 16, 8, 0, 32, .rw, 0, true⟩
  | .TB_CAP_ENTRY => ⟨.block, 0x60901000, 1, 0, 64, 16, 0, 128, .rs, 0, true⟩
  | .TB_TRX_RECORD => ⟨.block, 0x60902000, 1, 0, 64, 64, 0, 512, .rs, 0, true⟩
  | .TB_ACT_TIME => ⟨.block, 0x60904000, 1, 0, 128, 64, 0, 64, .rw, 0, true⟩
  | .TB_ACTP_PERIOD => ⟨.block, 0x60904008, 1, 0, 128, 64, 0, 64, .rw, 0, true⟩
  | .TB_ACTCTL_ARM => ⟨.block, 0x60904010, 1, 0, 128, 64, 0, 1, .rw, 0, true⟩
  | .TB_ACTCTL_KIND => ⟨.block, 0x60904010, 1, 0, 128, 64, 1, 2, .rw, 0, true⟩
  | .TB_ACTCTL_PERIODIC => ⟨.block, 0x60904010, 1, 0, 128, 64, 3, 1, .rw, 0, true⟩
  | .TB_ACTCTL_INDEX => ⟨.block, 0x60904010, 1, 0, 128, 64, 4, 4, .rw, 0, true⟩
  | .TB_ACTCTL_WIDTH => ⟨.block, 0x60904010, 1, 0, 128, 64, 8, 16, .rw, 1, true⟩
  | .TB_ACTCTL_MSG => ⟨.block, 0x60904010, 1, 0, 128, 64, 24, 4, .rw, 0, true⟩
  | .TB_ACTCTL_PORTS => ⟨.block, 0x60904010, 1, 0, 128, 64, 32, 16, .rw, 0, true⟩
  | .TB_ACTSTAT_STATUS => ⟨.block, 0x60904018, 1, 0, 128, 64, 0, 16, .rs, 0, true⟩
  | .TB_ACTSTAT_ARMED => ⟨.block, 0x60904018, 1, 0, 128, 64, 16, 1, .rs, 0, true⟩
  | .TB_ACTSTAT_LATE => ⟨.block, 0x60904018, 1, 0, 128, 64, 17, 1, .rs, 0, true⟩
  | .TB_ACTSTAT_STEPPED => ⟨.block, 0x60904018, 1, 0, 128, 64, 18, 1, .rs, 0, true⟩
  | .TB_ACTSTAT_FIRES => ⟨.block, 0x60904018, 1, 0, 128, 64, 32, 32, .rs, 0, true⟩
  | .TB_ACTLATE_LATENESS => ⟨.block, 0x60904020, 1, 0, 128, 64, 0, 48, .rs, 0, true⟩
  | .TB_ACTLATE_SKIPPED => ⟨.block, 0x60904020, 1, 0, 128, 64, 48, 16, .rs, 0, true⟩
  | .TB_ACTNEXT_NEXT => ⟨.block, 0x60904028, 1, 0, 128, 64, 0, 64, .rs, 0, true⟩
  | .HST_STATUS_CH_READY => ⟨.block, 0x60A00000, 1, 0, 1, 0, 0, 2, .rs, 0, false⟩
  | .HST_STATUS_BG_MODE => ⟨.block, 0x60A00000, 1, 0, 1, 0, 2, 2, .rs, 0, false⟩
  | .HST_STATUS_FSP_OP => ⟨.block, 0x60A00000, 1, 0, 1, 0, 4, 1, .rs, 0, false⟩
  | .HST_STATUS_FROZEN => ⟨.block, 0x60A00000, 1, 0, 1, 0, 5, 1, .rs, 0, false⟩
  | .HST_IDENT_MR5 => ⟨.block, 0x60A00008, 1, 0, 1, 0, 0, 8, .rw, 0, true⟩
  | .HST_SLOTS_BUSY => ⟨.block, 0x60A00010, 1, 0, 1, 0, 0, 64, .rs, 0, false⟩
  | .HST_STAGE_USED => ⟨.block, 0x60A00018, 1, 0, 1, 0, 0, 11, .rs, 0, false⟩
  | .HST_STAGE_DIRTY => ⟨.block, 0x60A00018, 1, 0, 1, 0, 11, 11, .rs, 0, false⟩
  | .HST_CNT_CMD_TAKEN => ⟨.block, 0x60A00020, 1, 0, 1, 0, 0, 32, .rs, 0, false⟩
  | .HST_CNT_CMD_REPLIED => ⟨.block, 0x60A00020, 1, 0, 1, 0, 32, 32, .rs, 0, false⟩
  | .HST_CNT_CMD2_CRC_BAD => ⟨.block, 0x60A00028, 1, 0, 1, 0, 0, 32, .rs, 0, false⟩
  | .HST_CNT_CMD2_REFUSED => ⟨.block, 0x60A00028, 1, 0, 1, 0, 32, 32, .rs, 0, false⟩
  | .HST_CNT_ACCESS_RESERVED => ⟨.block, 0x60A00030, 1, 0, 1, 0, 0, 32, .rs, 0, false⟩
  | .HST_CNT_ACCESS_WRITE_RO => ⟨.block, 0x60A00030, 1, 0, 1, 0, 32, 32, .rs, 0, false⟩
  | .HST_CNT_STAGE_MISS => ⟨.block, 0x60A00038, 1, 0, 1, 0, 0, 32, .rs, 0, false⟩
  | .HST_CNT_STAGE_WRITE_DROP => ⟨.block, 0x60A00038, 1, 0, 1, 0, 32, 32, .rs, 0, false⟩
  | .HST_CNT_VIOL_TIMING => ⟨.block, 0x60A00040, 1, 0, 1, 0, 0, 32, .rs, 0, false⟩
  | .HST_CNT_VIOL_STATE => ⟨.block, 0x60A00040, 1, 0, 1, 0, 32, 32, .rs, 0, false⟩
  | .HST_CNT_VIOL2_UNSUPPORTED => ⟨.block, 0x60A00048, 1, 0, 1, 0, 0, 32, .rs, 0, false⟩
  | .HST_CNT_VIOL2_WCK => ⟨.block, 0x60A00048, 1, 0, 1, 0, 32, 32, .rs, 0, false⟩
  | .HST_CNT_REF_REFAB => ⟨.block, 0x60A00050, 1, 0, 1, 0, 0, 32, .rs, 0, false⟩
  | .HST_CNT_REF_REFPB => ⟨.block, 0x60A00050, 1, 0, 1, 0, 32, 32, .rs, 0, false⟩
  | .HST_LAST_VIOL_CODE => ⟨.block, 0x60A00058, 1, 0, 1, 0, 0, 8, .rs, 0, false⟩
  | .HST_LAST_VIOL_CH => ⟨.block, 0x60A00058, 1, 0, 1, 0, 8, 1, .rs, 0, false⟩
  | .HST_LAST_VIOL_ADDR => ⟨.block, 0x60A00058, 1, 0, 1, 0, 16, 32, .rs, 0, false⟩
  | .HST_CNT_BURST_CH0 => ⟨.block, 0x60A00060, 1, 0, 1, 0, 0, 32, .rs, 0, false⟩
  | .HST_CNT_BURST_CH1 => ⟨.block, 0x60A00060, 1, 0, 1, 0, 32, 32, .rs, 0, false⟩
  | .BOOT_STATE_STATE => ⟨.block, 0x60B00000, 1, 0, 1, 0, 0, 4, .rs, 1, true⟩
  | .BOOT_STATE_BOOT_SRC => ⟨.block, 0x60B00000, 1, 0, 1, 0, 4, 2, .ro, 0, true⟩
  | .BOOT_STATE_DEV_MODE => ⟨.block, 0x60B00000, 1, 0, 1, 0, 6, 1, .ro, 0, true⟩
  | .BOOT_STATE_LAST_STATUS => ⟨.block, 0x60B00000, 1, 0, 1, 0, 16, 16, .rs, 0, true⟩
  | .BOOT_STATE_ROM_VERSION => ⟨.block, 0x60B00000, 1, 0, 1, 0, 32, 32, .ro, 0, true⟩
  | .BOOT_FWVER_VERSION => ⟨.block, 0x60B00008, 1, 0, 1, 0, 0, 32, .rs, 0, true⟩
  | .BOOT_FWVER_ID => ⟨.block, 0x60B00008, 1, 0, 1, 0, 32, 32, .rs, 0, true⟩
  | .BOOT_FWSTAGED_VERSION => ⟨.block, 0x60B00010, 1, 0, 1, 0, 0, 32, .rs, 0, true⟩
  | .BOOT_FWSTAGED_ID => ⟨.block, 0x60B00010, 1, 0, 1, 0, 32, 32, .rs, 0, true⟩
  | .BOOT_FWSTAT_STAGE => ⟨.block, 0x60B00018, 1, 0, 1, 0, 0, 3, .rs, 0, true⟩
  | .BOOT_FWSTAT_REVERTED => ⟨.block, 0x60B00018, 1, 0, 1, 0, 3, 1, .w1c, 0, true⟩
  | .BOOT_FWSTAT_CONFIRM_NONCE => ⟨.block, 0x60B00018, 1, 0, 1, 0, 32, 32, .rs, 0, true⟩
  | .BOOT_FWCTL_CONFIRM_MS => ⟨.block, 0x60B00020, 1, 0, 1, 0, 0, 16, .rw, 0x1388, true⟩
  | .BOOT_FWCTL_QUIESCE_MS => ⟨.block, 0x60B00020, 1, 0, 1, 0, 16, 16, .rw, 100, true⟩
  | .BOOT_FWTIME_CONFIRM_LEFT => ⟨.block, 0x60B00028, 1, 0, 1, 0, 0, 32, .rs, 0, true⟩
  | .BOOT_CNT_ACTIVATIONS => ⟨.block, 0x60B00030, 1, 0, 1, 0, 0, 16, .rs, 0, true⟩
  | .BOOT_CNT_REVERTS => ⟨.block, 0x60B00030, 1, 0, 1, 0, 16, 16, .rs, 0, true⟩
  | .BOOT_CNT_REFUSED => ⟨.block, 0x60B00030, 1, 0, 1, 0, 32, 16, .rs, 0, true⟩
  | .SEC_STATUS_PUF_STATE => ⟨.block, 0x60C00000, 1, 0, 1, 0, 0, 2, .rs, 0, false⟩
  | .SEC_STATUS_IDENTITY => ⟨.block, 0x60C00000, 1, 0, 1, 0, 2, 1, .rs, 0, false⟩
  | .SEC_STATUS_DEV_KEY => ⟨.block, 0x60C00000, 1, 0, 1, 0, 3, 1, .rs, 0, false⟩
  | .SEC_IDFP_VALUE => ⟨.block, 0x60C00008, 1, 0, 4, 8, 0, 64, .rs, 0, false⟩
  | .SEC_KEMFP_VALUE => ⟨.block, 0x60C00028, 1, 0, 4, 8, 0, 64, .rs, 0, false⟩
  | .SEC_CNT_VERIFIED => ⟨.block, 0x60C00048, 1, 0, 1, 0, 0, 32, .rs, 0, false⟩
  | .SEC_CNT_FAILED => ⟨.block, 0x60C00048, 1, 0, 1, 0, 32, 32, .rs, 0, false⟩
  | .SEC_ATTEST_SEQ => ⟨.block, 0x60C00050, 1, 0, 1, 0, 0, 32, .rs, 0, false⟩
  | .INT_CTRL_DECIDE_MS => ⟨.block, 0x60D00000, 1, 0, 1, 0, 0, 16, .rw, 0x3e8, true⟩
  | .INT_CTRL_REPLAY_LIMIT => ⟨.block, 0x60D00000, 1, 0, 1, 0, 16, 16, .rw, 0x3e8, true⟩
  | .INT_CTRL_TRANS_LIMIT => ⟨.block, 0x60D00000, 1, 0, 1, 0, 32, 4, .rw, 2, true⟩
  | .INT_CTRL_TRANS_WINDOW => ⟨.block, 0x60D00000, 1, 0, 1, 0, 48, 16, .rw, 0x5a0, true⟩
  | .INT_STATE_DRAIN => ⟨.block, 0x60D00008, 1, 0, 1, 0, 0, 1, .rs, 0, false⟩
  | .INT_STATE_REPLACE => ⟨.block, 0x60D00008, 1, 0, 1, 0, 1, 1, .rs, 0, false⟩
  | .INT_STATE_DECIDING => ⟨.block, 0x60D00008, 1, 0, 1, 0, 2, 1, .rs, 0, false⟩
  | .INT_STATE_REMAP_STAGED => ⟨.block, 0x60D00008, 1, 0, 1, 0, 3, 1, .rs, 0, false⟩
  | .INT_STATE_DRAIN_CAUSE => ⟨.block, 0x60D00008, 1, 0, 1, 0, 4, 2, .rs, 0, false⟩
  | .INT_STATE_OVERFLOW => ⟨.block, 0x60D00008, 1, 0, 1, 0, 6, 1, .rs, 0, false⟩
  | .INT_STATE_SPARE_BAD => ⟨.block, 0x60D00008, 1, 0, 1, 0, 8, 8, .rs, 0, false⟩
  | .INT_STATE_SUSPECTS => ⟨.block, 0x60D00008, 1, 0, 1, 0, 16, 5, .rs, 0, false⟩
  | .INT_DRAIN_TB_TB => ⟨.block, 0x60D00010, 1, 0, 1, 0, 0, 64, .rs, 0, false⟩
  | .INT_DECIDE_LEFT => ⟨.block, 0x60D00018, 1, 0, 1, 0, 0, 32, .rs, 0, false⟩
  | .INT_REPLAY_QUEUED => ⟨.block, 0x60D00020, 1, 0, 1, 0, 0, 5, .rs, 0, false⟩
  | .INT_REPLAY_ACTIVE => ⟨.block, 0x60D00020, 1, 0, 1, 0, 5, 8, .rs, 0, false⟩
  | .INT_REPLAY_LEAVE => ⟨.block, 0x60D00020, 1, 0, 1, 0, 16, 16, .rw, 40, true⟩
  | .INT_SIG_BASE => ⟨.block, 0x60D00028, 1, 0, 1, 0, 0, 40, .rw, 0x16a000000, false⟩
  | .INT_SIG_LEN => ⟨.block, 0x60D00030, 1, 0, 1, 0, 0, 32, .rw, 0x1000, false⟩
  | .INT_SIGIDX_NEXT => ⟨.block, 0x60D00038, 1, 0, 1, 0, 0, 32, .rs, 0, false⟩
  | .INT_SIGIDX_TOTAL => ⟨.block, 0x60D00038, 1, 0, 1, 0, 32, 32, .rs, 0, false⟩
  | .INT_RPL_BASE => ⟨.block, 0x60D00040, 1, 0, 1, 0, 0, 40, .rw, 0x162000000, false⟩
  | .INT_RPL_LEN => ⟨.block, 0x60D00048, 1, 0, 1, 0, 0, 40, .rw, 0x8000000, false⟩
  | .INT_CNT_CHECK_FAILED => ⟨.block, 0x60D00050, 1, 0, 1, 0, 0, 32, .rs, 0, false⟩
  | .INT_CNT_CHECK_LATE => ⟨.block, 0x60D00050, 1, 0, 1, 0, 32, 32, .rs, 0, false⟩
  | .INT_CNT_ARB_MAIN => ⟨.block, 0x60D00058, 1, 0, 1, 0, 0, 32, .rs, 0, false⟩
  | .INT_CNT_ARB_REPLAY => ⟨.block, 0x60D00058, 1, 0, 1, 0, 32, 32, .rs, 0, false⟩
  | .INT_CNT_ARB2_NONE => ⟨.block, 0x60D00060, 1, 0, 1, 0, 0, 32, .rs, 0, false⟩
  | .INT_CNT_ARB2_NO_REPLAY => ⟨.block, 0x60D00060, 1, 0, 1, 0, 32, 32, .rs, 0, false⟩
  | .INT_CNT_SEQ_MISMATCH => ⟨.block, 0x60D00068, 1, 0, 1, 0, 0, 32, .rs, 0, false⟩
  | .INT_CNT_SEQ_OVERFLOW => ⟨.block, 0x60D00068, 1, 0, 1, 0, 32, 32, .rs, 0, false⟩
  | .INT_SUSPECT_ENTRY => ⟨.block, 0x60D00100, 1, 0, 16, 16, 0, 128, .rs, 0, false⟩
  | .CHIP_REPRO_KEY => ⟨.block, 0x60000040, 1, 0, 1, 0, 0, 32, .rs, 0x1430103, true⟩
  | .CHIP_LOCK_CTRL_ENABLE => ⟨.block, 0x60000100, 1, 0, 1, 0, 0, 1, .rw, 0, true⟩
  | .CHIP_LOCK_CTRL_PORT => ⟨.block, 0x60000100, 1, 0, 1, 0, 1, 4, .rw, 0, true⟩
  | .CHIP_LOCK_CTRL_SLOTS => ⟨.block, 0x60000100, 1, 0, 1, 0, 5, 16, .rw, 0, true⟩
  | .CHIP_LOCK_CTRL_CP_EVERY => ⟨.block, 0x60000100, 1, 0, 1, 0, 32, 16, .rw, 1, true⟩
  | .CHIP_LOCK_CTRL_TIMEOUT => ⟨.block, 0x60000100, 1, 0, 1, 0, 48, 16, .rw, 100, true⟩
  | .CHIP_LOCK_STAT_ACTIVE => ⟨.block, 0x60000108, 1, 0, 1, 0, 0, 1, .rs, 0, true⟩
  | .CHIP_LOCK_STAT_HELD => ⟨.block, 0x60000108, 1, 0, 1, 0, 1, 13, .rs, 0, true⟩
  | .CHIP_LOCK_CP_UNIT => ⟨.block, 0x60000110, 1, 0, 8, 8, 0, 16, .rw, 0, true⟩
  | .CHIP_LOCK_CP_SLOT => ⟨.block, 0x60000110, 1, 0, 8, 8, 16, 4, .rw, 0, true⟩
  | .CHIP_LOCK_CP_VALID => ⟨.block, 0x60000110, 1, 0, 8, 8, 20, 1, .rw, 0, true⟩
  | .CHIP_LOCK_DIV0_VALID => ⟨.block, 0x60000150, 1, 0, 1, 0, 0, 1, .w1c, 0, true⟩
  | .CHIP_LOCK_DIV0_KIND => ⟨.block, 0x60000150, 1, 0, 1, 0, 1, 3, .rs, 0, true⟩
  | .CHIP_LOCK_DIV0_SLOT => ⟨.block, 0x60000150, 1, 0, 1, 0, 4, 4, .rs, 0, true⟩
  | .CHIP_LOCK_DIV0_CP => ⟨.block, 0x60000150, 1, 0, 1, 0, 8, 3, .rs, 0, true⟩
  | .CHIP_LOCK_DIV0_UNIT => ⟨.block, 0x60000150, 1, 0, 1, 0, 11, 16, .rs, 0, true⟩
  | .CHIP_LOCK_DIV0_EVENT => ⟨.block, 0x60000150, 1, 0, 1, 0, 32, 32, .rs, 0, true⟩
  | .CHIP_LOCK_DIV1_LOCAL => ⟨.block, 0x60000158, 1, 0, 1, 0, 0, 64, .rs, 0, true⟩
  | .CHIP_LOCK_DIV2_PARTNER => ⟨.block, 0x60000160, 1, 0, 1, 0, 0, 64, .rs, 0, true⟩
  | .CHIP_LOCK_DIV3_TB => ⟨.block, 0x60000168, 1, 0, 1, 0, 0, 64, .rs, 0, true⟩
  | .CHIP_LOCK_CNT_COMPARED => ⟨.block, 0x60000170, 1, 0, 1, 0, 0, 32, .rs, 0, true⟩
  | .CHIP_LOCK_CNT_EXCLUDED => ⟨.block, 0x60000170, 1, 0, 1, 0, 32, 32, .rs, 0, true⟩
  | .CHIP_LOCK_CNT2_DIVERGED => ⟨.block, 0x60000178, 1, 0, 1, 0, 0, 32, .rs, 0, true⟩
  | .CHIP_LOCK_CNT2_MISSING => ⟨.block, 0x60000178, 1, 0, 1, 0, 32, 32, .rs, 0, true⟩
  | .LV_PLIMIT_UNITS => ⟨.block, 0x60E00000, 1, 0, 1, 0, 0, 11, .rw, 0x578, false⟩
  | .LV_RESERVE_RESTORE => ⟨.block, 0x60E00008, 1, 0, 1, 0, 0, 7, .rw, 16, false⟩
  | .LV_SIZE_READOUT => ⟨.block, 0x60E00010, 1, 0, 1, 0, 0, 8, .rw, 8, false⟩
  | .LV_SIZE_SCRUB => ⟨.block, 0x60E00010, 1, 0, 1, 0, 8, 8, .rw, 2, false⟩
  | .LV_STATUS_FREE => ⟨.block, 0x60E00018, 1, 0, 1, 0, 0, 11, .rs, 0, false⟩
  | .LV_STATUS_RESERVED => ⟨.block, 0x60E00018, 1, 0, 1, 0, 11, 11, .rs, 0, false⟩
  | .LV_STATUS_GRANTED => ⟨.block, 0x60E00018, 1, 0, 1, 0, 22, 11, .rs, 0, false⟩
  | .LV_CLASS_GRANTED => ⟨.block, 0x60E00020, 1, 0, 6, 8, 0, 11, .rs, 0, false⟩
  | .LV_CLASS_PENDING => ⟨.block, 0x60E00020, 1, 0, 6, 8, 11, 11, .rs, 0, false⟩
  | .LV_RGN_CAP_CAP => ⟨.block, 0x60E00060, 1, 0, 8, 8, 0, 8, .rw, 144, false⟩
  | .LV_RGN_CAP_HELD => ⟨.block, 0x60E00060, 1, 0, 8, 8, 8, 10, .rs, 0, false⟩
  | .LV_CNT_GRANTS => ⟨.block, 0x60E000A0, 1, 0, 1, 0, 0, 32, .rs, 0, false⟩
  | .LV_CNT_REVOKED => ⟨.block, 0x60E000A0, 1, 0, 1, 0, 32, 32, .rs, 0, false⟩
  | .LV_CNT2_BLOCKED => ⟨.block, 0x60E000A8, 1, 0, 1, 0, 0, 32, .rs, 0, false⟩
  | .LV_CNT2_OVER_BUSY => ⟨.block, 0x60E000A8, 1, 0, 1, 0, 32, 32, .rs, 0, false⟩
  | .THM_STATUS_TJ => ⟨.block, 0x60F00000, 1, 0, 1, 0, 0, 8, .rs, 0, false⟩
  | .THM_STATUS_SENSOR => ⟨.block, 0x60F00000, 1, 0, 1, 0, 8, 4, .rs, 0, false⟩
  | .THM_STATUS_LEVEL => ⟨.block, 0x60F00000, 1, 0, 1, 0, 12, 2, .rs, 0, false⟩
  | .THM_STATUS_DRAIN => ⟨.block, 0x60F00000, 1, 0, 1, 0, 14, 1, .rs, 0, false⟩
  | .THM_STATUS_BAD => ⟨.block, 0x60F00000, 1, 0, 1, 0, 16, 16, .rs, 0, false⟩
  | .THM_SENS_DEG => ⟨.block, 0x60F00008, 1, 0, 16, 8, 0, 8, .rs, 0, false⟩
  | .THM_DRAIN_TB_TB => ⟨.block, 0x60F00088, 1, 0, 1, 0, 0, 64, .rs, 0, false⟩
  | .THM_PEAK_TJ => ⟨.block, 0x60F00090, 1, 0, 1, 0, 0, 8, .w1c, 0, false⟩
  | .THM_CNT_WARN => ⟨.block, 0x60F00098, 1, 0, 1, 0, 0, 16, .rs, 0, false⟩
  | .THM_CNT_REVOKE => ⟨.block, 0x60F00098, 1, 0, 1, 0, 16, 16, .rs, 0, false⟩
  | .THM_CNT_DRAIN => ⟨.block, 0x60F00098, 1, 0, 1, 0, 32, 16, .rs, 0, false⟩
  | .LOG_TRACE_POINTS => ⟨.block, 0x61000000, 1, 0, 1, 0, 0, 6, .rw, 0, true⟩
  | .LOG_TRACE_SLOTS => ⟨.block, 0x61000000, 1, 0, 1, 0, 16, 16, .rw, 0, true⟩
  | .LOG_ALARM_ACK => ⟨.block, 0x61000008, 1, 0, 1, 0, 0, 64, .rw, 0, true⟩
  | .LOG_STATUS_INTAKE => ⟨.block, 0x61000010, 1, 0, 1, 0, 0, 7, .rs, 0, true⟩
  | .LOG_STATUS_ALARM_INTAKE => ⟨.block, 0x61000010, 1, 0, 1, 0, 7, 5, .rs, 0, true⟩
  | .LOG_STATUS_SUPPRESSING => ⟨.block, 0x61000010, 1, 0, 1, 0, 12, 5, .rs, 0, true⟩
  | .LOG_STATUS_PIN => ⟨.block, 0x61000010, 1, 0, 1, 0, 17, 1, .rs, 0, true⟩
  | .LOG_CNT_WRITTEN => ⟨.block, 0x61000018, 1, 0, 1, 0, 0, 32, .rs, 0, true⟩
  | .LOG_CNT_SUMMARIES => ⟨.block, 0x61000018, 1, 0, 1, 0, 32, 32, .rs, 0, true⟩
  | .LOG_CNT2_MERGED => ⟨.block, 0x61000020, 1, 0, 1, 0, 0, 32, .rs, 0, true⟩
  | .LOG_CNT2_MON_CMDS => ⟨.block, 0x61000020, 1, 0, 1, 0, 32, 32, .rs, 0, true⟩
  | .LOG_MON_BAUD => ⟨.block, 0x61000028, 1, 0, 1, 0, 0, 3, .rs, 0, true⟩

/-- Part of the list of all fields (CHIP). -/
def allCHIP0 : List Reg :=
  [.CHIP_ID_PART, .CHIP_STEP_STEP, .CHIP_STEP_ARITH, .CHIP_SYSID_ID, .CHIP_EPOCH_CURRENT, .CHIP_EPOCH_PENDING, 
   .CHIP_COMMIT_CYCLE_C, .CHIP_SPARE_USED, .CHIP_FROZEN_CORES_MASK, .CHIP_FROZEN_UNITS_COUNT, .CHIP_SNAP_SEQ, 
   .CHIP_REPRO_KEY, .CHIP_LOCK_CTRL_ENABLE, .CHIP_LOCK_CTRL_PORT, .CHIP_LOCK_CTRL_SLOTS, .CHIP_LOCK_CTRL_CP_EVERY, 
   .CHIP_LOCK_CTRL_TIMEOUT, .CHIP_LOCK_STAT_ACTIVE, .CHIP_LOCK_STAT_HELD, .CHIP_LOCK_CP_UNIT, .CHIP_LOCK_CP_SLOT, 
   .CHIP_LOCK_CP_VALID, .CHIP_LOCK_DIV0_VALID, .CHIP_LOCK_DIV0_KIND, .CHIP_LOCK_DIV0_SLOT, .CHIP_LOCK_DIV0_CP, 
   .CHIP_LOCK_DIV0_UNIT, .CHIP_LOCK_DIV0_EVENT, .CHIP_LOCK_DIV1_LOCAL, .CHIP_LOCK_DIV2_PARTNER, .CHIP_LOCK_DIV3_TB, 
   .CHIP_LOCK_CNT_COMPARED, .CHIP_LOCK_CNT_EXCLUDED, .CHIP_LOCK_CNT2_DIVERGED, .CHIP_LOCK_CNT2_MISSING]

/-- Part of the list of all fields (VRD). -/
def allVRD0 : List Reg :=
  [.VRD_CTRL_ENABLE, .VRD_CTRL_INC_POLICY, .VRD_CTRL_PIN_EN, .VRD_CTRL_VALID_PIN_EN, .VRD_CTRL_DEFAULT_PIN, 
   .VRD_CTRL_PIN_WIDTH, .VRD_LNET_LNET, .VRD_DEFAULT_RESULT, .VRD_INGRESS_SLACK, .VRD_PORTS_MAP, .VRD_PIN_MATCH_MASK, 
   .VRD_PIN_MATCH_MATCH, .VRD_STATUS_LAST_TAG, .VRD_STATUS_LAST_EPOCH, .VRD_VSTREAM_STREAM, .VRD_CNT_VERDICT_COUNT, 
   .VRD_CNT_DEFAULT_TIMEOUT, .VRD_CNT_DEFAULT_INCOMPLETE, .VRD_CNT_DEFAULT2_OVERRUN, .VRD_CNT_DEFAULT2_POISON, 
   .VRD_CNT_VOID_VOID, .VRD_CNT_VOID_CORRECTED, .VRD_CNT_INGRESS_LATE_BLOCK, .VRD_CNT_INGRESS_DUP_BLOCK, .VRD_CNT_LATE_RESULT, 
   .VRD_CNT_LATE_FLAG, .VRD_CNT_INGRESS2_EVICTED, .VRD_CNT_INGRESS2_POOL_FULL, .VRD_CNT_OTHER_TOKENS]

/-- Part of the list of all fields (FAB). -/
def allFAB0 : List Reg :=
  [.FAB_STATUS_LIVE_UNITS, .FAB_STATUS_READY_UNITS, .FAB_FIRST_ERR_UNIT, .FAB_FIRST_ERR_TAG, .FAB_FIRST_ERR_CODE, 
   .FAB_FIRST_ERR_VALID, .FAB_CNT_ALIGN_SKEW, .FAB_CNT_ALIGN_STEER_DEFAULT, .FAB_CNT_STORE_EXPIRED, .FAB_CNT_STORE_STOP_CYCLES, 
   .FAB_CNT_DISCARD_NOROUTE, .FAB_CNT_DISCARD_STALE, .FAB_CNT_CHECK_RESIDUE, .FAB_CNT_CHECK_HDR_UNCORR, .FAB_CNT_MISC_FORMAT, 
   .FAB_CNT_MISC_INJ_DROP, .FAB_CNT_HDR_CORRECTED, .FAB_CNT_HDR_READY_MISMATCH]

/-- Part of the list of all fields (UNIT). -/
def allUNIT0 : List Reg :=
  [.FAB_UCFG_MODE, .FAB_UCFG_INPUTS, .FAB_UCFG_SLOT, .FAB_UCFG_HELD, .FAB_UHOLD_LIMIT, .FAB_UFMT_FMT, .FAB_UOCC_OCC, 
   .FAB_UCNT_FIRES, .FAB_UCNT_EXPIRED, .FAB_ROUTE_VALID, .FAB_ROUTE_SRC, .FAB_ROUTE_STREAM, .FAB_ROUTE_ANY_STREAM, 
   .FAB_ROUTE_OUT, .FAB_ROUTE_INPUT, .FAB_ROUTE_DELAY, .FAB_ROUTE_STEER, .FAB_ROUTE_STEER_CTRL, .FAB_ROUTE_SLOT, 
   .FAB_STEER_CTRL_ENABLE, .FAB_STEER_CTRL_DEFAULT, .FAB_STEER_CTRL_WAIT, .FAB_STEER_OUT, .FAB_STEER_INPUT, 
   .FAB_PSTAT_DLY_OCC, .FAB_PSTAT_STEER_DATA_OCC, .FAB_PSTAT_STEER_CTRL_OCC, .FAB_PCNT_FORWARDED, .FAB_PCNT_STOPPED, 
   .ELD_PASS_W4, .ELD_PASS_IN_Q4, .ELD_PASS_OUT_FMT, .ELD_PASS_NB_IN_M1, .ELD_PASS_NB_OUT_M1, .ELD_PASS_EMIT_HI, 
   .ELD_PASS_ESC_EN, .ELD_PASS_RELU, .ELD_PASS_TABLE_EN, .ELD_PASS_TRACK, .ELD_BASE_XBW]

/-- Part of the list of all fields (UNIT). -/
def allUNIT1 : List Reg :=
  [.ELD_BASE_XBA, .ELD_BASE_XA_NOM, .ELD_BASE_TABLE_IN, .ELD_OUT_DSTREAM, .ELD_OUT_SSTREAM, .ELD_OUT2_CSTREAM, 
   .ELD_WBASE_TILE, .ELD_SBASE_SIDE, .ELD_CBASE_CHAN, .ELD_TBASE_TABLE, .ELD_OUTBLK_OUT_EXP, .ELD_OUTBLK_ZO, 
   .ELD_OUTBLK_NCH, .ELD_ESTAT_SETS_USED, .ELD_ECNT_CLIP, .ELD_ECNT_ESC, .ELD_ECNT2_ESC_OVF, .ELD_ECNT2_SCALE_RANGE, 
   .FAB_FC_CTRL_RUN, .FAB_FC_CTRL_RECV_LIMIT, .FAB_FC_ENTRY_PC, .FAB_FC_STATUS_PC, .FAB_FC_STATUS_STATE, .FAB_FC_STATUS_PZ, 
   .FAB_FC_STATUS_EPOCH_LO, .FAB_FC_LEVEL_LEVEL, .FAB_FC_WIN_BASE, .FAB_FC_WIN_VALID, .FAB_FC_WIN_SIZE_M1, 
   .FAB_FC_JOB_RANK, .FAB_FC_JOB_COUNT, .FAB_FC_JOB_ID, .FAB_FC_CNT_STALL_RECV, .FAB_FC_CNT_STALL_SEND, .FAB_FC_CNT_EVT_MISSING, 
   .FAB_FC_CNT_EVT_BAD_SEND, .FAB_FC_CNT_ECC_CORRECTED, .FAB_FC_CNT_ECC_UNCORR, .FAB_FC_FAULT_CODE, .FAB_FC_FAULT_PC]
   

/-- Part of the list of all fields (UNIT). -/
def allUNIT2 : List Reg :=
  [.FAB_FC_FAULT_ADDR, .FAB_FC_CNT_INSTR_COUNT, .FAB_FC_SREG_VALUE, .FAB_FC_VREG_VALUE, .FAB_SC_CNT_VALUE]
   

/-- Part of the list of all fields (ELD). -/
def allELD0 : List Reg :=
  [.ELD_REV_LPASS, .ELD_REV_ARITH, .ELD_REV_TABLE_VER, .ELD_CNT_CLIP_COUNT, .ELD_CNT_CLIP_ESC, .ELD_CNT_ESC2_ESC_OVF, 
   .ELD_CNT_ESC2_SCALE_RANGE, .ELD_CNT_PASS_BLOCKS, .ELD_CNT_PASS_F32_SAT, .ELD_CNT_ACC_ACC_WAIT, .ELD_CNT_ACC_ACC_EXPIRED]
   

/-- Part of the list of all fields (CND). -/
def allCND0 : List Reg :=
  [.CND_CTRL_ADAPT_EN, .CND_TBL_INDEX_INDEX, .CND_TBL_INDEX_COPY, .CND_TBL_LO_DATA, .CND_TBL_HI_DATA, .CND_STAT_BASE_ADDR, 
   .CND_OSTAT_BASE_ADDR, .CND_CNT_CLIP_CLIP, .CND_CNT_CLIP_ESC, .CND_CNT_ESC2_ESC_OVF, .CND_CNT_ESC2_RAW_BITS, 
   .CND_CNT_ADAPT_RISE, .CND_CNT_ADAPT_FALL, .CND_CNT_LIMIT_CEILING, .CND_CNT_LIMIT_RESTART, .CND_CNT_MISC_NOSLOT, 
   .CND_CNT_MISC_REC_LOST, .CND_CNT_MISC_OREC_LOST, .CND_CNT_MISC2_REPEAT, .CND_BSTATE_EXP, .CND_BSTATE_FALL_CNT, 
   .CND_BSTATE_CEILING, .CND_BSTATE_FLOOR, .CND_BSTATE_CONSTANT, .CND_BSTATE_WINDOW]

/-- Part of the list of all fields (NSL). -/
def allNSL0 : List Reg :=
  [.NSL_STATE_STATE, .NSL_STATE_BANK, .NSL_STATE_STAGED_BANK, .NSL_STATE_HAS_STAGED, .NSL_IMAGE_ID, .NSL_IMAGE_BANK_ID, 
   .NSL_TAGS_BASE, .NSL_TAGS_COUNT, .NSL_SCHED_II, .NSL_SCHED_STEP, .NSL_PAD_SLACK, .NSL_PAD_SHIFT, .NSL_PAD_CYCLES, 
   .NSL_LEAVE_UNITS, .NSL_LEAVE_MAX_BUSY, .NSL_REGIONS_MASK, .NSL_REGIONS_LEAD, .NSL_LOAD_STATUS, .NSL_LOAD_CHECK, 
   .NSL_LOAD_UNIT, .NSL_DIGEST_VALUE, .NSL_BDIGEST_VALUE, .NSL_CNT_LOADS, .NSL_CNT_REFUSED, .NSL_CTRL_SIG_REQUIRED, 
   .NSL_KEYS_COUNT, .NSL_LAST_STATUS, .NSL_LAST_SLOT, .NSL_SMP_CTRL_ENABLE, .NSL_SMP_CTRL_ACC_PRESCALE, .NSL_SMP_CTRL_REJ_PRESCALE, 
   .NSL_SMP_MATCH_ACC_MASK, .NSL_SMP_MATCH_ACC_MATCH, .NSL_SMP_RING_BASE, .NSL_SMP_RLEN_LEN, .NSL_SMP_SEQ_NEXT, 
   .NSL_SMP_SEQ_OLDEST, .NSL_SMP_CNT_ACCEPTED, .NSL_SMP_CNT_REJECTED, .NSL_SMP_CNT2_OTHER]

/-- Part of the list of all fields (NSL). -/
def allNSL1 : List Reg :=
  [.NSL_SMP_CNT2_LOST, .NSL_SMP_CNT3_DROPPED, .NSL_JOB_STATE_STATE, .NSL_JOB_STATE_DET, .NSL_JOB_STATE_SLOT, 
   .NSL_JOB_STATE_CLUSTERS, .NSL_JOB_STATE_STATUS, .NSL_JOB_STATE_STEPS, .NSL_JOB_LIMIT_CYCLES, .NSL_JOB_LIMIT_LEAVE, 
   .NSL_JOB_POS_PASS, .NSL_JOB_POS_SEQ, .NSL_JOB_CNT_GCLIP, .NSL_JOB_CNT_SCLIP, .NSL_JOB_CNT_WCLIP, .NSL_JOB_CNT_REVOKES]
   

/-- Part of the list of all fields (SPB). -/
def allSPB0 : List Reg :=
  [.SPB_CTRL_ENABLE, .SPB_SEGTAB_BASE, .SPB_SEG_WR, .SPB_SEG_RD, .SPB_LOST_IDX_NEXT, .SPB_LOST_IDX_TOTAL, 
   .SPB_FORCE_TERM, .SPB_ENV_INDEX_INDEX, .SPB_ENV_INDEX_COPY, .SPB_ENV_LO_DATA, .SPB_ENV_HI_DATA, .SPB_CNT_TRIG_CAPTURED, 
   .SPB_CNT_TRIG_LOST, .SPB_CNT_ROW_GAP_ROWS, .SPB_CNT_ROW_LATE_SAMPLE, .SPB_CNT_MISC_MASK_FAIL, .SPB_CNT_MISC_BAD_RELEASE, 
   .SPB_CNT_MISC2_POISON_ROWS, .SPB_CNT_MISC2_VOIDED, .SPB_LOST_ENTRY, .SPB_GCFG_EN, .SPB_GCFG_REDUCE, .SPB_GCFG_AVG_K, 
   .SPB_GCFG_HOLD_MODE, .SPB_GCFG_PRIO, .SPB_GCFG_MASK_EN, .SPB_GCFG_ROW_WAIT, .SPB_GHOLD_HOLD, .SPB_GDEPTH_PRE, 
   .SPB_GDEPTH_POST, .SPB_GDEAD_DEADBAND, .SPB_GCMASK_UNITS, .SPB_GRING_BASE, .SPB_GRLEN_SLOTS, .SPB_GRLEN_SLOT_BYTES, 
   .SPB_GAREA_BASE, .SPB_GALEN_LEN, .SPB_GSHARE_SHARE, .SPB_GSHARE_BURST, .SPB_GMASK_FIRST]

/-- Part of the list of all fields (SPB). -/
def allSPB1 : List Reg :=
  [.SPB_GMASK_COUNT, .SPB_GCMD_ARM, .SPB_GCMD_STOP, .SPB_GSTAT_STATE, .SPB_GSTAT_MASK_FAIL, .SPB_GSTAT_PRE_AVAIL, 
   .SPB_GSTAT_NCH, .SPB_GSTAT_NBLK, .SPB_GCNT_CAPTURED, .SPB_GCNT_LOST, .SPB_GCNT2_GAP_ROWS, .SPB_GCNT2_ROWS, 
   .SPB_GCNT3_PRE_SHORT, .SPB_CMP_CHAN, .SPB_CMP_SLOPE, .SPB_CMP_LEXP, .SPB_CMP_LEVEL, .SPB_CMPH_HYST, .SPB_CMPH_ARMED, 
   .SPB_CMPH_FIRES, .SPB_VT_SLOT, .SPB_VT_MODE, .SPB_VT_EN, .SPB_VT_CAUSE_REQ, .SPB_VT_FLAG_VETO, .SPB_VT_MASK, 
   .SPB_VT_MATCH, .SPB_CO_MIN, .SPB_CO_WINDOW, .SPB_CO_VWIN, .SPB_COIN_TERM, .SPB_COIN_EN, .SPB_COIN_VETO, 
   .SPB_COIN_DELAY, .SPB_COCNT_FIRES, .SPB_LINE_DIR, .SPB_LINE_SRC, .SPB_LINE_WIDTH, .SPB_LINE_DLY, .SPB_LCNT_EDGES]
   

/-- Part of the list of all fields (SPB). -/
def allSPB2 : List Reg :=
  [.SPB_LCNT_DRIVEN]

/-- Part of the list of all fields (MEM). -/
def allMEM0 : List Reg :=
  [.MEM_CTRL_SCRUB_EN, .MEM_CTRL_RET_EN, .MEM_STAGE_BASE, .MEM_GOLD_BASE, .MEM_GOLD_SPAN_SPAN, .MEM_RET_BASE, 
   .MEM_RET_LEN, .MEM_RET_HOLD_MIN, .MEM_SCRUB_PERIOD, .MEM_SCRUB_POS, .MEM_TEMP_DEG, .MEM_TEMP_REFRESH, .MEM_FIRST_UE_ADDR, 
   .MEM_FIRST_UE_VALID, .MEM_CNT_ECC_CORRECTED, .MEM_CNT_ECC_UNCORR, .MEM_CNT_POISON_READS, .MEM_CNT_GOLD_RESTORES, 
   .MEM_CNT_GOLD_SLOW, .MEM_CNT_GOLD2_REPAIRED, .MEM_CNT_GOLD2_FAILED, .MEM_CNT_RET_WRITTEN, .MEM_CNT_RET_DROPPED, 
   .MEM_CNT_RET2_MISSING, .MEM_CLASS_LIMIT, .MEM_CLASS_CNT_BYTES]

/-- Part of the list of all fields (OPX). -/
def allOPX0 : List Reg :=
  [.OPX_SUMMARY_UP, .OPX_SUMMARY_DARK, .OPX_VER_MINOR, .OPX_VER_MAJOR, .OPX_VER_MIN_MAJOR, .OPX_PCTRL_EN, 
   .OPX_PCTRL_ROLE, .OPX_PCTRL_DEEP, .OPX_PCTRL_DEEP_OK, .OPX_PSTAT_STATE, .OPX_PSTAT_LAST_CAUSE, .OPX_PSTAT_PARTNER_SYS, 
   .OPX_PSTAT_PARTNER_PORT, .OPX_PSTAT_PARTNER_ROLE, .OPX_PSTAT_SAME_SYS, .OPX_PSTAT_PARTNER_MAJOR, .OPX_PSTAT_PARTNER_MINOR, 
   .OPX_PSESS_LOCAL, .OPX_PSESS_PARTNER, .OPX_PRX_BASE, .OPX_PRX_LEN, .OPX_PVRING_BASE, .OPX_PVRING_LEN, .OPX_PVRING_NEXT, 
   .OPX_PCNT_RETRY_SENT, .OPX_PCNT_RETRY_SERVED, .OPX_PCNT_CRC_CRC, .OPX_PCNT_CRC_SEQ, .OPX_PCNT_VIOL_VIOL, 
   .OPX_PCNT_VIOL_NAK_SENT, .OPX_PCNT_NAK_NAK_RECEIVED, .OPX_PCNT_NAK_EXPRESS_LOST, .OPX_PCNT_LINK_DROPS, 
   .OPX_PCNT_LINK_DARK, .OPX_PCNT_MISC_BUSY, .OPX_PCNT_MISC_DISCARDED, .OPX_PCNT_MISC_DEEP_DENIED, .OPX_PLAST_NAK_IN, 
   .OPX_PLAST_NAK_OUT, .OPX_LCTRL_PATTERN]

/-- Part of the list of all fields (OPX). -/
def allOPX1 : List Reg :=
  [.OPX_LCTRL_CHECK, .OPX_LCTRL_LOOP, .OPX_LCTRL_INJ, .OPX_LCTRL_DFE_FREEZE, .OPX_LCTRL_INJ_INTERVAL, .OPX_LSTAT_LOS, 
   .OPX_LSTAT_LOL, .OPX_LSTAT_ALIGNED, .OPX_LSTAT_FIBRE, .OPX_LSTAT_SKEW, .OPX_LCNT_PAT_ERR, .OPX_LCNT_BAD_HDR, 
   .OPX_LDFE_TAPS]

/-- Part of the list of all fields (TB). -/
def allTB0 : List Reg :=
  [.TB_VALUE_TB, .TB_EPOCH_COUNT, .TB_INC_INC, .TB_STEP_VALUE, .TB_STEPCTL_GO, .TB_STEPCTL_MODE, .TB_STEPCTL_PENDING, 
   .TB_STEPCTL_EPOCH, .TB_LATE_WINDOW, .TB_MASTER_SELF, .TB_MASTER_VALID, .TB_MASTER_SYS, .TB_MASTER_TIMEOUT, 
   .TB_STATE_STATE, .TB_STATE_PPS_PRESENT, .TB_STATE_REF_LOST, .TB_STATE_SYNC_PORT, .TB_STATE_SYNC_SEQ, .TB_STATE_SYNC_AGE, 
   .TB_FWD_MASK, .TB_CAPCTL_PPS, .TB_CAPCTL_TRIG, .TB_CAPCTL_SOFT, .TB_CAPIDX_NEXT, .TB_CAPIDX_TOTAL, .TB_TRXIDX_NEXT, 
   .TB_TRXIDX_TOTAL, .TB_PULSECFG_POLARITY, .TB_CNT_TIME_SYNC_RX, .TB_CNT_TIME_SYNC_FWD, .TB_CNT_TIME2_RESP_SENT, 
   .TB_CNT_TIME2_DROPPED, .TB_CNT_MISC_INC_REFUSED, .TB_CNT_MISC_STEPS, .TB_CNT_MISC_HOLDOVERS, .TB_CNT_MISC_PPS_GLITCH, 
   .TB_PDELAY_DELAY, .TB_CAP_ENTRY, .TB_TRX_RECORD, .TB_ACT_TIME]

/-- Part of the list of all fields (TB). -/
def allTB1 : List Reg :=
  [.TB_ACTP_PERIOD, .TB_ACTCTL_ARM, .TB_ACTCTL_KIND, .TB_ACTCTL_PERIODIC, .TB_ACTCTL_INDEX, .TB_ACTCTL_WIDTH, 
   .TB_ACTCTL_MSG, .TB_ACTCTL_PORTS, .TB_ACTSTAT_STATUS, .TB_ACTSTAT_ARMED, .TB_ACTSTAT_LATE, .TB_ACTSTAT_STEPPED, 
   .TB_ACTSTAT_FIRES, .TB_ACTLATE_LATENESS, .TB_ACTLATE_SKIPPED, .TB_ACTNEXT_NEXT]

/-- Part of the list of all fields (HST). -/
def allHST0 : List Reg :=
  [.HST_STATUS_CH_READY, .HST_STATUS_BG_MODE, .HST_STATUS_FSP_OP, .HST_STATUS_FROZEN, .HST_IDENT_MR5, .HST_SLOTS_BUSY, 
   .HST_STAGE_USED, .HST_STAGE_DIRTY, .HST_CNT_CMD_TAKEN, .HST_CNT_CMD_REPLIED, .HST_CNT_CMD2_CRC_BAD, .HST_CNT_CMD2_REFUSED, 
   .HST_CNT_ACCESS_RESERVED, .HST_CNT_ACCESS_WRITE_RO, .HST_CNT_STAGE_MISS, .HST_CNT_STAGE_WRITE_DROP, .HST_CNT_VIOL_TIMING, 
   .HST_CNT_VIOL_STATE, .HST_CNT_VIOL2_UNSUPPORTED, .HST_CNT_VIOL2_WCK, .HST_CNT_REF_REFAB, .HST_CNT_REF_REFPB, 
   .HST_LAST_VIOL_CODE, .HST_LAST_VIOL_CH, .HST_LAST_VIOL_ADDR, .HST_CNT_BURST_CH0, .HST_CNT_BURST_CH1]

/-- Part of the list of all fields (BOOT). -/
def allBOOT0 : List Reg :=
  [.BOOT_STATE_STATE, .BOOT_STATE_BOOT_SRC, .BOOT_STATE_DEV_MODE, .BOOT_STATE_LAST_STATUS, .BOOT_STATE_ROM_VERSION, 
   .BOOT_FWVER_VERSION, .BOOT_FWVER_ID, .BOOT_FWSTAGED_VERSION, .BOOT_FWSTAGED_ID, .BOOT_FWSTAT_STAGE, .BOOT_FWSTAT_REVERTED, 
   .BOOT_FWSTAT_CONFIRM_NONCE, .BOOT_FWCTL_CONFIRM_MS, .BOOT_FWCTL_QUIESCE_MS, .BOOT_FWTIME_CONFIRM_LEFT, 
   .BOOT_CNT_ACTIVATIONS, .BOOT_CNT_REVERTS, .BOOT_CNT_REFUSED]

/-- Part of the list of all fields (SEC). -/
def allSEC0 : List Reg :=
  [.SEC_STATUS_PUF_STATE, .SEC_STATUS_IDENTITY, .SEC_STATUS_DEV_KEY, .SEC_IDFP_VALUE, .SEC_KEMFP_VALUE, .SEC_CNT_VERIFIED, 
   .SEC_CNT_FAILED, .SEC_ATTEST_SEQ]

/-- Part of the list of all fields (INT). -/
def allINT0 : List Reg :=
  [.INT_CTRL_DECIDE_MS, .INT_CTRL_REPLAY_LIMIT, .INT_CTRL_TRANS_LIMIT, .INT_CTRL_TRANS_WINDOW, .INT_STATE_DRAIN, 
   .INT_STATE_REPLACE, .INT_STATE_DECIDING, .INT_STATE_REMAP_STAGED, .INT_STATE_DRAIN_CAUSE, .INT_STATE_OVERFLOW, 
   .INT_STATE_SPARE_BAD, .INT_STATE_SUSPECTS, .INT_DRAIN_TB_TB, .INT_DECIDE_LEFT, .INT_REPLAY_QUEUED, .INT_REPLAY_ACTIVE, 
   .INT_REPLAY_LEAVE, .INT_SIG_BASE, .INT_SIG_LEN, .INT_SIGIDX_NEXT, .INT_SIGIDX_TOTAL, .INT_RPL_BASE, .INT_RPL_LEN, 
   .INT_CNT_CHECK_FAILED, .INT_CNT_CHECK_LATE, .INT_CNT_ARB_MAIN, .INT_CNT_ARB_REPLAY, .INT_CNT_ARB2_NONE, 
   .INT_CNT_ARB2_NO_REPLAY, .INT_CNT_SEQ_MISMATCH, .INT_CNT_SEQ_OVERFLOW, .INT_SUSPECT_ENTRY]

/-- Part of the list of all fields (LV). -/
def allLV0 : List Reg :=
  [.LV_PLIMIT_UNITS, .LV_RESERVE_RESTORE, .LV_SIZE_READOUT, .LV_SIZE_SCRUB, .LV_STATUS_FREE, .LV_STATUS_RESERVED, 
   .LV_STATUS_GRANTED, .LV_CLASS_GRANTED, .LV_CLASS_PENDING, .LV_RGN_CAP_CAP, .LV_RGN_CAP_HELD, .LV_CNT_GRANTS, 
   .LV_CNT_REVOKED, .LV_CNT2_BLOCKED, .LV_CNT2_OVER_BUSY]

/-- Part of the list of all fields (THM). -/
def allTHM0 : List Reg :=
  [.THM_STATUS_TJ, .THM_STATUS_SENSOR, .THM_STATUS_LEVEL, .THM_STATUS_DRAIN, .THM_STATUS_BAD, .THM_SENS_DEG, 
   .THM_DRAIN_TB_TB, .THM_PEAK_TJ, .THM_CNT_WARN, .THM_CNT_REVOKE, .THM_CNT_DRAIN]

/-- Part of the list of all fields (LOG). -/
def allLOG0 : List Reg :=
  [.LOG_TRACE_POINTS, .LOG_TRACE_SLOTS, .LOG_ALARM_ACK, .LOG_STATUS_INTAKE, .LOG_STATUS_ALARM_INTAKE, .LOG_STATUS_SUPPRESSING, 
   .LOG_STATUS_PIN, .LOG_CNT_WRITTEN, .LOG_CNT_SUMMARIES, .LOG_CNT2_MERGED, .LOG_CNT2_MON_CMDS, .LOG_MON_BAUD]
   

/-- Every field, in the order of the tables. -/
def all : List Reg :=
  allCHIP0 ++ allVRD0 ++ allFAB0 ++ allUNIT0 ++ allUNIT1 ++ allUNIT2 ++ allELD0 ++ allCND0 ++ allNSL0 ++ allNSL1 ++ allSPB0 ++ allSPB1 ++ allSPB2 ++ allMEM0 ++ allOPX0 ++ allOPX1 ++ allTB0 ++ allTB1 ++ allHST0 ++ allBOOT0 ++ allSEC0 ++ allINT0 ++ allLV0 ++ allTHM0 ++ allLOG0

/-- Width of a field in bits. -/
def width (r : Reg) : Nat := r.info.width

end Reg
end Sys2Proof
end

