-- ==== Sys2Proof/Machine/AcqTypes.lean ====
section
/-! DEFINITION. State of the sampler and refinement jobs (R210 to R229), Springbok (R230 to R255), the package memory
(R256 to R272) and the silent-error defence (R364 to R398): plain data. -/
namespace Sys2Proof

/-- A selected event waiting for its sample record (R210 to R213). -/
structure SampleReq where
  slot : Nat := 0
  num : Nat := 0
  tag : Nat := 0
  epoch : Nat := 0
  markTB : Nat := 0
  /-- TB at the ingress mark, by which the retention entry is found (R266). -/
  ingressTB : Nat := 0
  entry : Nat := 0
  accepted : Bool := false
  weight : Nat := 0
  cyc : Nat := 0
  deriving DecidableEq, Repr

/-- A sample record in a ring: sequence number, byte position and length (R213, R214). -/
structure SampleRec where
  seq : Nat := 0
  pos : Nat := 0
  len : Nat := 0
  deriving DecidableEq, Repr

/-- A slot's sampler: selection counters, the ring's records oldest first and its next byte position. -/
structure Sampler where
  accCnt : Nat := 0
  rejCnt : Nat := 0
  waiting : List SampleReq := []
  recs : List SampleRec := []
  nextPos : Nat := 0
  deriving DecidableEq, Repr

/-- A block of 64 parameters: the moment codes with their block scale codes (R221, R222), the parameters in binary32, and what they
are: the weights of a row of an engine's tile, or learned scale codes of a record (R140, R223). -/
structure ParamBlock where
  /-- The engine whose weights these are, or whose channels the scale codes belong to. -/
  unit : Nat := 0
  /-- The tile and the row of a row block; the record and its group of 64 codes. -/
  tile : Nat := 0
  row : Nat := 0
  isScale : Bool := false
  w4 : Bool := false
  /-- The channel descriptor of a row block in the base bank. -/
  desc : Nat := 0
  mCodes : List Int := []
  mCode : Nat := 0
  rCodes : List Int := []
  rCode : Nat := 0
  w : List (BitVec 32) := []
  deriving DecidableEq, Repr

/-- A refinement job beside its registers (R215 to R227). -/
structure Job where
  slot : Nat := 0
  count : Nat := 0
  fixed : Bool := false
  first : Nat := 0
  last : Nat := 0
  batch : Nat := 0
  passes : Nat := 0
  image : Nat := 0
  cand : Nat := 0
  candLen : Nat := 0
  lr : Nat := 0
  beta1 : Nat := 0
  beta2 : Nat := 0
  eps : Nat := 0
  /-- IMAGE_ID of the slot's network when the job started (BASE_ID, R215, R226). -/
  baseId : Nat := 0
  img : Image := {}
  layouts : List (List Nat) := []
  scaleRecs : List Nat := []
  /-- Clusters joined, by rank: 17 × region + cluster (R216). -/
  joined : List Nat := []
  /-- Clusters to leave at the next step boundary (R218). -/
  leaving : List Nat := []
  /-- Clusters granted and waiting to join at a step boundary (R216). -/
  granted : List Nat := []
  leavePerCluster : Nat := 0
  stepStart : Option Nat := none
  /-- The clusters that leave do so because their leave was revoked (R218). -/
  revoked : Bool := false
  /-- Parameter blocks trained (R221). -/
  blocks : List ParamBlock := []
  /-- The base bank at the job's first step (R224): its units' register fields and its data by unit and offset. -/
  baseRegs : KMap (Reg × Nat) Nat := []
  baseData : List PassChunk := []
  /-- Bytes that the job's programs have written into the scratch of the layouts' FAWN records, by record and offset (R224). -/
  consts : KMap (Nat × Nat) Nat := []
  hasV : Bool := false
  /-- A unit of the job froze, or it consumed poisoned data (R227); the base network is gone (R226). -/
  faulted : Bool := false
  poisoned : Bool := false
  baseGone : Bool := false
  deriving DecidableEq, Repr

/-- An input row of a group in assembly (R232): the raw samples of the blocks converted. -/
structure RowAsm where
  num : Nat := 0
  first : Nat := 0
  blocks : List (Nat × List Nat) := []
  deriving DecidableEq, Repr

/-- A row: its number, time, the values by channel index (none when missing), and MISSING (R232, R233). -/
structure Row where
  row : Nat := 0
  tb : Nat := 0
  cyc : Nat := 0
  vals : List (Option Int) := []
  missing : Nat := 0
  deriving DecidableEq, Repr

/-- What a pre-trigger ring slot or a segment holds: a row or a gap marker (R250). -/
inductive RingItem where
  | row (r : Row)
  | gap (row lost tb lengthTb : Nat) (poison : Bool)
  deriving DecidableEq, Repr

/-- A group's configuration: its registers and its channels with width and SIGNED, in channel-index order (R230, R254). -/
structure GroupCfg where
  en : Bool := false
  reduce : Nat := 0
  avgK : Nat := 0
  holdMode : Bool := false
  hold : Nat := 0
  prio : Nat := 0
  maskEn : Bool := false
  rowWait : Nat := 0
  pre : Nat := 0
  post : Nat := 0
  deadband : Nat := 0
  units : Nat := 0
  ringBase : Nat := 0
  slots : Nat := 0
  areaBase : Nat := 0
  areaLen : Nat := 0
  share : Nat := 0
  burst : Nat := 0
  maskFirst : Nat := 0
  maskCount : Nat := 0
  chans : List (Nat × Nat × Bool) := []
  deriving DecidableEq, Repr

/-- A segment being captured or complete (R245 to R247). Its entries are kept as rows and gap markers, in order. -/
structure Segment where
  seq : Nat := 0
  group : Nat := 0
  addr : Nat := 0
  reserve : Nat := 0
  trigTB : Nat := 0
  edgeTB : Nat := 0
  verdict : Nat := 0
  /-- The lowest-numbered verdict term whose pulse the trigger used, 32 for none. -/
  verdictTerm : Nat := 32
  trigRow : Option Nat := none
  preAct : Nat := 0
  epoch : Nat := 0
  source : Nat := 0
  count : Nat := 0
  /-- The configuration in force at the trigger (R241). -/
  cfg : GroupCfg := {}
  preShort : Bool := false
  corrected : Bool := false
  voided : Bool := false
  trunc : Bool := false
  items : List RingItem := []
  /-- Ring slots still to copy, oldest first, with the place of each in `items` (R245). -/
  precopy : List (Nat × Nat) := []
  /-- Rows closed for the segment that wait to be written or lost (R249). -/
  waiting : Nat := 0
  /-- The last row has closed, or the capture was cut short. -/
  ended : Bool := false
  complete : Bool := false
  /-- FLAGS and length, once complete. -/
  flags : Nat := 0
  len : Nat := 64
  /-- The trigger row is settled: the rows that had closed by the trigger have been written or lost (R245). -/
  resolved : Bool := false
  /-- Verdicts whose MODE 0 pulse the trigger used, slot and TB of the verdict mark, until each is validated or voided (R236). -/
  pendingVerdicts : List (Nat × Nat) := []
  deriving DecidableEq, Repr

/-- A run of lost rows not yet recorded (R250): the first row, how many, its time, and whether they were lost to a segment. -/
structure GapRun where
  row : Nat := 0
  lost : Nat := 0
  tb : Nat := 0
  inSeg : Bool := false
  deriving DecidableEq, Repr

/-- A group beside its registers (R230 to R252). -/
structure Group where
  /-- The configuration that a capture in progress keeps after a commit changed the group's (R241). -/
  heldCfg : Option GroupCfg := none
  /-- Rows in assembly. -/
  asm : List RowAsm := []
  /-- The event number whose row closed last (R232). -/
  lastClosed : Option Nat := none
  /-- Next row number (R233). -/
  nextRow : Nat := 0
  /-- AVG interval: input rows taken, the sums by channel (none once missing) and the missing blocks. -/
  avgCnt : Nat := 0
  avgSum : List (Option Int) := []
  avgMissing : Nat := 0
  /-- The pre-trigger ring's contents, oldest first, each with its slot (R245). -/
  ring : List (Nat × RingItem) := []
  /-- Next ring slot. -/
  ringPos : Nat := 0
  /-- The run of lost rows not yet recorded (R250). -/
  gap : Option GapRun := none
  /-- Rows closed in the last 192 cycles, newest first, with the cycle of each (R242). -/
  closes : List (Nat × Nat) := []
  /-- Rows closed and not yet written or lost, oldest first, each with the segment it goes to, or the ring (R249). -/
  waiting : List (Row × Option Nat) := []
  credit : Nat := 0
  /-- The capture in progress, or the segment whose copy and hold-off a WAIT group waits for. -/
  cur : Option Nat := none
  trigCyc : Nat := 0
  /-- Cycle of the last trigger, captured or lost. -/
  lastTrig : Option Nat := none
  /-- Input rows closed since the trigger (HOLD_MODE 1). -/
  rowsSince : Nat := 0
  /-- Close of the segment's last row. -/
  lastRowClose : Nat := 0
  /-- The first row usable as trigger or pre-trigger row (R245). -/
  freeFrom : Nat := 0
  /-- Byte offset in the segment area where the next segment starts. -/
  areaNext : Nat := 0
  deriving DecidableEq, Repr

/-- A pulse on a term: its cycle, and what a segment records of it (R235, R239). -/
structure Pulse where
  term : Nat := 0
  cyc : Nat := 0
  edgeTB : Nat := 0
  verdict : Nat := 0
  slot : Nat := 0
  markTB : Nat := 0
  corrected : Bool := false
  /-- The MODE 0 pulse of a verdict not yet validated, or voided since (R236). -/
  unvalidated : Bool := false
  voided : Bool := false
  deriving DecidableEq, Repr

/-- A drive of a trigger line (R238): the times at which it begins and ends, in 1/32 cycles. -/
structure LineDrive where
  start32 : Nat := 0
  end32 : Nat := 0
  deriving DecidableEq, Repr

/-- Springbok beside its registers. -/
structure SpbState where
  groups : KMap Nat Group := []
  segs : List Segment := []
  pulses : List Pulse := []
  /-- used(i) of each coincidence unit's input: unit and input to cycle (R240). -/
  used : KMap (Nat × Nat) Nat := []
  /-- Last cycle in which a coincidence unit fired. -/
  firedAt : KMap Nat Nat := []
  /-- Cycle of the commit that last changed a unit: it has seen nothing before (R240, R255). -/
  coSince : KMap Nat Nat := []
  /-- Drives of each line, those to come too, in the order they began. -/
  lines : KMap Nat (List LineDrive) := []
  /-- Units that have fired in this cycle, with their pulses: the triggers they make act as it ends (R240, R244, R246). -/
  fires : List (Nat × List Pulse) := []
  /-- Last falling edge on a line, in 1/32 cycles (R239). -/
  lastEdge : KMap Nat Nat := []
  /-- Drives that used an unvalidated verdict: line, slot, TB of the verdict mark, TB of the drive (R383). -/
  drives : List (Nat × Nat × Nat × Nat) := []
  envStaged : KMap Nat (Nat × Nat) := []
  envCommitted : KMap Nat (Nat × Nat) := []
  /-- Comparators that have seen a value since they were last changed (R234). -/
  cmpSeen : List Nat := []
  /-- Cycle in which a row was last served, and the groups to be passed over (R249). -/
  servedAt : Option Nat := none
  passed : List Nat := []
  deriving DecidableEq, Repr

/-- A restore-list entry of a steward (R264). -/
structure RestoreEntry where
  addr : Nat := 0
  detected : Nat := 0
  /-- Holds an entry of the device-wide restore queue. -/
  queued : Bool := false
  failed : Bool := false
  deriving DecidableEq, Repr

/-- A retention-ring entry (R266, R267). -/
structure RetEntry where
  slot : Nat := 0
  tag : Nat := 0
  epoch : Nat := 0
  num : Nat := 0
  mark : Nat := 0
  markTB : Nat := 0
  pos : Nat := 0
  len : Nat := 0
  tokens : List Token := []
  written : Bool := false
  /-- Validated, or its corrected entry issued. -/
  settled : Bool := false
  sampling : Bool := false
  replaying : Bool := false
  deriving DecidableEq, Repr

/-- The memory stack's and the cluster SRAMs' state beside the byte contents. -/
structure MemState where
  /-- Restore lists by steward (R264). -/
  restore : KMap Nat (List RestoreEntry) := []
  /-- The cycle in which the last commit acted, and the clusters it addressed (R36). -/
  committed : Option (Nat × List Nat) := none
  /-- Words written by a restore and the cycle, for R265's second-error rule. -/
  restored : List (Nat × Nat) := []
  /-- Golden bits: (steward, page) (R263). -/
  golden : List (Nat × Nat) := []
  /-- Retention entries, oldest first. -/
  ret : List RetEntry := []
  retPos : Nat := 0
  /-- Entries queued at an ingress mark and not yet written. -/
  retQueue : List RetEntry := []
  /-- Requests in the acquisition queue (R249, R271). -/
  acq : Nat := 0
  /-- Class credits in units of 64 bytes (R270). -/
  credits : KMap Nat Nat := []
  /-- Next byte of each steward's scrub walk, in bytes of its SRAM (R17). -/
  scrubAt : KMap Nat Nat := []
  /-- The cycle from which the next scrub pass is due (R269). -/
  scrubDue : Nat := 0
  /-- Stack refreshes made. -/
  refreshes : Nat := 0
  deriving DecidableEq, Repr

/-- A replay request or a running replay (R373 to R378). -/
structure Replay where
  slot : Nat := 0
  tag : Nat := 0
  epoch : Nat := 0
  num : Nat := 0
  entry : Nat := 0
  markTB : Nat := 0
  /-- TB at the ingress mark. -/
  ingressTB : Nat := 0
  bank : Nat := 0
  validCyc : Nat := 0
  /-- Ports that carried the voided verdict (R381). -/
  ports : Nat := 0
  posts : List CheckPost := []
  /-- The event was injected. -/
  inj : Bool := true
  overflow : Bool := false
  vrdFail : Bool := false
  /-- Region of the spare site it runs on. -/
  site : Option Nat := none
  reason : Nat := 0
  deriving DecidableEq, Repr

/-- A corrected entry waiting to be issued (R381). -/
structure Corrected where
  slot : Nat := 0
  tag : Nat := 0
  num : Nat := 0
  epoch : Nat := 0
  entry : Nat := 0
  markTB : Nat := 0
  ingressTB : Nat := 0
  ports : Nat := 0
  inj : Bool := true
  due : Nat := 0
  deriving DecidableEq, Repr

/-- A failure signature waiting for SIGNATURE_WRITE: its CBOR bytes (R395, R396). -/
structure Signature where
  bytes : List Nat := []
  deriving DecidableEq, Repr

/-- A suspect: unit, cause, block scope, at a spare site not in service (R385 to R387). -/
structure Suspect where
  unit : Nat := 0
  cause : Nat := 0
  block : Bool := false
  spare : Bool := false
  deriving DecidableEq, Repr

/-- A staged remap with its re-padded delays and steering waits (R392, R393). -/
structure Remap where
  region : Nat := 0
  cluster : Nat := 0
  pads : List (Nat × Nat × Nat) := []
  waits : List (Nat × Nat) := []
  deriving DecidableEq, Repr

/-- The silent-error defence beside its registers. -/
structure IntState where
  queue : List Replay := []
  active : List Replay := []
  corrected : List Corrected := []
  sigs : List Signature := []
  /-- Number of the next signature (key 1). -/
  sigSeq : Nat := 0
  /-- Signatures by (kind, unit), for key 21. -/
  sigCount : KMap (Nat × Nat) Nat := []
  /-- The last 64 transients: unit and TB (R380). -/
  transients : List (Nat × Nat) := []
  /-- Suspects, entered or not: unit, cause, block scope, at an unused spare site. -/
  suspects : List Suspect := []
  /-- Cycle at which the open decision runs out (R388). -/
  decideBy : Option Nat := none
  /-- Cycle of the fault drain's start, while in force (R390). -/
  drainFrom : Option Nat := none
  /-- Cycle C of the remap commit that ended the latest drain (R391). -/
  drainEnd : Option Nat := none
  /-- Injections left: (unit, class) to count (R397). -/
  inject : KMap (Nat × Nat) Nat := []
  /-- The staged remap: region, cluster, re-padded delays and waits (R392, R393). -/
  remap : Option Remap := none
  /-- Clusters in service at their region's spare site: region to cluster (R18). -/
  spare : KMap Nat Nat := []
  /-- The epoch whose commit put each region's spare site into service (R393). -/
  spareAt : KMap Nat Nat := []
  deriving DecidableEq, Repr

end Sys2Proof
end

