-- ==== Sys2Proof/Machine/IoTypes.lean ====
section
/-! DEFINITION. State of the Opalxis ports (R273 to R297), the timebase (R298 to R319), the host port and its commands
(R320 to R344), start-up and security (R345 to R363), lock-step (R406 to R413), leave and heat (R415 to R429), the logs and
the monitor (R430 to R445) and the pins (R455 to R460): plain data. -/
namespace Sys2Proof

/-- A frame a port has sent and may send again (R290). -/
structure SentFrame where
  ftype : Nat := 0
  seq : Nat := 0
  payload : List Nat := []
  cyc : Nat := 0
  /-- It left the port: an express frame released while the port was not UP is kept and never sent (R293). -/
  sent : Bool := true
  deriving DecidableEq, Repr

/-- How far a DEEP request has come (R284). -/
inductive DeepPhase where
  | none
  /-- Waiting for the replay buffer to empty since this cycle. -/
  | drain (since : Nat)
  /-- Sending LPI blocks since this cycle; the request is the host's, or the answer to a partner's. -/
  | lpi (since sent received : Nat) (own : Bool)
  deriving DecidableEq, Repr

/-- One lane's receiver and transmitter (R274 to R281, R296). -/
structure OpxLane where
  /-- Scrambler synchronised: a MARKER has been seen since lock (R276). -/
  synced : Bool := false
  /-- Transmit scrambler state, 31 bits (R276). -/
  txScram : Nat := 0
  rxScram : Nat := 0
  /-- Mode 3: the CRC of the next sequenced frame of this lane is to be inverted. -/
  injCrc : Bool := false
  injected : Nat := 0
  /-- Cycle of the last injection (R296). -/
  injAt : Option Nat := none
  /-- The trial position in unit intervals, and the valid headers in a row found there (R278). -/
  trial : Nat := 0
  run : Nat := 0
  /-- Of a locked lane's last 64 headers, newest first: the header was invalid (R278). -/
  window : List Bool := []
  /-- The pattern checker: bits taken since it was turned on, and its register (R296). -/
  chkBits : Nat := 0
  chkReg : Nat := 0
  deriving DecidableEq, Repr

/-- What a port releases in one cycle on the verdict path (R65): the voided entries and their mark, the new entries and their
mark, whether a validation cycle passed, and LATE_CORRECTED entries each with its original mark. Times are TB values. -/
structure VRelease where
  voids : List Nat := []
  voidMark : Nat := 0
  entries : List Nat := []
  mark : Nat := 0
  valid : Bool := false
  corrected : List (Nat × Nat) := []
  deriving DecidableEq, Repr

/-- One port beside its registers. -/
structure OpxPort where
  /-- Next SEQ expected and next SEQ to send, of the normal and the express stream. -/
  rxN : Nat := 0
  rxE : Nat := 0
  txN : Nat := 0
  txE : Nat := 0
  replay : List SentFrame := []
  history : List SentFrame := []
  /-- A discard has been answered with a RETRY, last sent at this cycle, until the SEQ arrives (R291). -/
  retryN : Option Nat := none
  retryE : Option Nat := none
  /-- The express stream begins anew: the next payload SEQ received is taken as the expected one (R293). -/
  rxEAny : Bool := true
  /-- The receiver takes nothing of the stream until its next _FS block (R286, R291). -/
  skipN : Bool := false
  skipE : Bool := false
  /-- Sequenced normal frames waiting for a place in the replay buffer, oldest first: type and payload (R290). -/
  txWait : List (Nat × List Nat) := []
  /-- Sequenced frames accepted since the last ACK and the cycle of the first of them. -/
  unacked : Nat := 0
  unackedFrom : Option Nat := none
  nakAt : Option Nat := none
  /-- Cycle of the last WARN of each violation reason (R295). -/
  warned : KMap Nat Nat := []
  /-- Cycle at which the present state was entered. -/
  since : Nat := 0
  /-- Consecutive partner MARKER rows with RX_READY (R282). -/
  readyRows : Nat := 0
  lastMarker : Option Nat := none
  /-- The partner's SESSION, SYS and PORT at the last UP (R293). -/
  lastUp : Option (Nat × Nat × Nat) := none
  deep : DeepPhase := .none
  /-- Bytes waiting in the 64 KiB TOKEN write buffer, and the port owes a RETRY for room (R294). -/
  tokenBytes : Nat := 0
  owesRetry : Bool := false
  mcount : Nat := 0
  /-- Cycle of the first MARKER row since the port began to send, and the rows sent since (R279). -/
  markers : Option (Nat × Nat) := none
  lanes : KMap Nat OpxLane := []
  /-- What the present cycle releases, sent as the cycle ends. -/
  rel : VRelease := {}
  /-- TB at the latest verdict mark of a unit mapped to the port whose validation cycle has passed (R64). -/
  through : Option Nat := none
  roleOk : Bool := false
  versionOk : Bool := false
  deriving DecidableEq, Repr

/-- A PULSE pin's drive: the times at which the pin becomes active and inactive, in 1/32 cycles (R317). -/
structure PulseDrive where
  pin : Nat := 0
  start32 : Nat := 0
  end32 : Nat := 0
  deriving DecidableEq, Repr

/-- The timebase beside its registers. -/
structure TbState where
  tb : Nat := 0
  frac : Nat := 0
  /-- Instant of the last accepted PPS edge, in 1/32 cycles (R304). -/
  ppsAt : Option Nat := none
  /-- Cycle of the last accepted SYNC (R312). -/
  syncAt : Option Nat := none
  /-- Cycle of the last step and TB before it (R315). -/
  stepAt : Option (Nat × Nat) := none
  /-- Captures in the ring, newest first: instant in 1/32 cycles, source and entry (R305). -/
  caps : List (Nat × Nat × Nat) := []
  /-- Edges of the trigger lines whose compensated time is yet to come: that time in 1/32 cycles, the line, whether the timebase
  captures it, and whether it made a pulse (R239, R304). -/
  edges : List (Nat × Nat × Bool × Bool) := []
  /-- Slots that fire late, each with its cycle (R313). -/
  fireNext : List (Nat × Nat) := []
  pulses : List PulseDrive := []
  deriving DecidableEq, Repr

/-- One LPDDR5 channel (R320 to R326). -/
structure DramCh where
  /-- Open rows by bank. -/
  rows : KMap Nat Nat := []
  actAt : KMap Nat Nat := []
  preAt : KMap Nat Nat := []
  preAllAt : Option Nat := none
  refAllAt : Option Nat := none
  refAt : KMap Nat Nat := []
  exitAt : Option Nat := none
  selfRefresh : Bool := false
  powerDown : Bool := false
  wck : Bool := false
  initDone : Bool := false
  /-- Mode registers by set point and number (R323). -/
  mrs : KMap (Nat × Nat) Nat := []
  fspOp : Nat := 0
  fspWr : Nat := 0
  /-- Bursts of the write FIFO, oldest first (MPC). -/
  fifo : List (List Nat) := []
  deriving DecidableEq, Repr

/-- A command packet taken from a slot (R331, R335); slot 64 is the boot slot. -/
structure Packet where
  slot : Nat := 0
  seq : Nat := 0
  opcode : Nat := 0
  minor : Nat := 0
  major : Nat := 0
  plen : Nat := 0
  /-- Bytes 10 and 11, reserved (R7, R331). -/
  rsv : Nat := 0
  tag : Nat := 0
  params : List Nat := []
  cyc : Nat := 0
  /-- Runs on memory mover n, with the READOUT leave of a TO_PORT move granted or not (R336, R341). -/
  mover : Option Nat := none
  /-- What a mover's or control core 1's command has come to, its status and result, and the pages a mover's fills, until MOVER_DONE
  or core 0's mailbox writes the reply (R24, R336). -/
  outcome : Option (Nat × List Nat) := none
  fills : List Nat := []
  /-- Pages of its range that another mover's command is filling: its reply waits for them (R341, R343). -/
  waits : List Nat := []
  deriving DecidableEq, Repr

/-- State of a staging page (R329); a page not listed is ABSENT. -/
inductive PageState where
  | filling | resident | dirty
  deriving DecidableEq, Repr

/-- The host port beside its registers. -/
structure HostState where
  ch : KMap Nat DramCh := []
  pages : KMap Nat PageState := []
  /-- Bytes that the host has written into staging frames and that no flush has written to the stack, by staging offset; every
  other byte of a frame equals the stack's (R329, R330). -/
  stage : KMap Nat (BitVec 8) := []
  /-- The snapshot directory that the running firmware wrote: BASE, page and LEN (R328). -/
  snapDir : List (Nat × Nat × Nat) := []
  /-- Packets in progress by slot. -/
  busy : KMap Nat Packet := []
  /-- SEQ last taken from each slot, by firmware (slots 0 to 63) and by the ROM (slot 64) (R333). -/
  lastSeq : KMap Nat Nat := []
  /-- Slots whose CRC failed with COMMIT matched: SEQ and consecutive scans (R334). -/
  crcFails : KMap Nat (Nat × Nat) := []
  /-- Slots of ordinary commands taken and not yet run, in the order taken (R336). -/
  cmdQ : List Nat := []
  /-- Loader commands waiting for control core 1, oldest first (R194). -/
  loaderQ : List Nat := []
  /-- Slots of ordinary commands that control core 1 has taken from its mailbox to run (R24). -/
  handed : List Nat := []
  /-- MOVE and staging commands waiting for a mover, oldest first (R336). -/
  moverQ : List Nat := []
  /-- The slot last examined by a scan (R357). -/
  scanAt : Nat := 0
  /-- The cycle of the device's last write to the window, and the bytes before its writes of that cycle, each run at its window
  address, oldest first (R337). -/
  devAt : Nat := 0
  devOld : List (Nat × List Nat) := []
  deriving DecidableEq, Repr

/-- A firmware image the device holds: header fields and digest (R351, R352). -/
structure FwImage where
  version : Nat := 0
  id : Nat := 0
  signer : Nat := 0
  abi : Nat := 0
  digest : List Nat := []
  code0 : List Nat := []
  code1 : List Nat := []
  entry0 : Nat := 0
  entry1 : Nat := 0
  data0 : List Nat := []
  data1 : List Nat := []
  deriving DecidableEq, Repr

/-- Start-up and security beside their registers. -/
structure BootSt where
  /-- Straps sampled at reset: BOOT_SRC and DEV_MODE (R346). -/
  bootSrc : Nat := 0
  devMode : Bool := false
  /-- The seed S, and the public keys, once an identity exists (R349). -/
  seed : List Nat := []
  falconPk : List Nat := []
  kemPk : List Nat := []
  devKey : List Nat := []
  /-- Bytes of the image received so far (R354). -/
  intake : List Nat := []
  running : Option FwImage := none
  cand : Option FwImage := none
  /-- The image a revert would restore (R358). -/
  prev : Option FwImage := none
  /-- Cycle of FW_ACTIVATE while it waits for a quiescent point, and its slot (R356). -/
  activating : Option (Nat × Nat) := none
  activatedAt : Option Nat := none
  /-- Cycle of a revert's request (R358), and the slot of the FW_ABORT that asked for it, 64 for the timer. -/
  revertAt : Option (Nat × Nat) := none
  /-- A revert has occurred since the last ATTEST (R360). -/
  revertedSince : Bool := false
  deriving DecidableEq, Repr

/-- The key of a lock-step entry (R410). -/
structure LockEntry where
  slot : Nat := 0
  event : Nat := 0
  kind : Nat := 0
  cp : Nat := 0
  voided : Bool := false
  value : Nat := 0
  cyc : Nat := 0
  deriving DecidableEq, Repr

/-- Tokens of a checkpoint unit for one event: running CRC state and count (R408). -/
structure CpDigest where
  cp : Nat := 0
  slot : Nat := 0
  tag : Nat := 0
  epochLo : Nat := 0
  bytes : List Nat := []
  tokens : Nat := 0
  deriving DecidableEq, Repr

/-- Lock-step beside its registers. -/
structure LockState where
  mine : List LockEntry := []
  partner : List LockEntry := []
  digests : List CpDigest := []
  deriving DecidableEq, Repr

/-- A leave request or grant (R421, R422). -/
structure Leave where
  /-- Class 1 RESTORE to 5 SCRUB. -/
  cls : Nat := 0
  req : Nat := 0
  units : Nat := 0
  region : Option Nat := none
  /-- The refinement job that asks, for class 4. -/
  work : Nat := 0
  /-- A restore's grant drawn from the reserve (R423). -/
  reserve : Bool := false
  /-- Cycle of the request; in a grant, the cycle it reaches its requester. -/
  cyc : Nat := 0
  deriving DecidableEq, Repr

/-- Leave and heat beside their registers. -/
structure PowerState where
  pending : List Leave := []
  granted : List Leave := []
  /-- Requesters granted and passed over until the rest of their class has been (R422). -/
  passed : List (Nat × Nat) := []
  /-- Second in which OVER_BUSY last raised its record. -/
  overBusySec : Option Nat := none
  /-- Last cycle counted in LV_CNT.OVER_BUSY, by slot and region (R420). -/
  overBusyAt : KMap (Nat × Nat) Nat := []
  thermalFrom : Option Nat := none
  deriving DecidableEq, Repr

/-- A log record on its way to its ring (R430). -/
structure LogRec where
  tb : Nat := 0
  epoch : Nat := 0
  cls : Nat := 0
  summary : Bool := false
  source : Nat := 0
  code : Nat := 0
  unit : Nat := 0xFFFF
  rep : Nat := 0
  /-- Bytes 20 to 23 of a summary: the interval in µs. -/
  interval : Nat := 0
  args : List Nat := []
  cyc : Nat := 0
  deriving DecidableEq, Repr

/-- Suppressed records of a class not yet reported (R436). -/
structure Suppressed where
  since : Nat := 0
  lastTB : Nat := 0
  counts : KMap Nat Nat := []
  deriving DecidableEq, Repr

/-- The log collector, the rings' indices and the monitor. -/
structure LogState where
  intake : List LogRec := []
  alarm : List LogRec := []
  raised : KMap (Nat × Nat) Nat := []
  suppressed : KMap (Nat × Nat) Nat := []
  unreported : KMap Nat Suppressed := []
  seq : Nat := 0
  /-- Records written, by class (R431). -/
  total : KMap Nat Nat := []
  alarmLost : Nat := 0
  /-- Fault record of each frozen or halted master, by master key, for FROZEN (R441). -/
  frozenRecs : KMap Nat LogRec := []
  /-- Cycle from which a new baud rate waits for a valid command (R440). -/
  baudSince : Option Nat := none
  /-- The register words and masks that POKE has written in a cycle, and that cycle: those bits stand against any other master's
  write of the cycle (R442). -/
  pokes : List (Nat × Nat) := []
  pokedAt : Nat := 0
  deriving DecidableEq, Repr

/-- A frozen or halted master's kept state (R30, R443). Masters are keyed by number: 0 and 1 the control cores, 8 to 15 the
region managers, 16 the host port, 32 to 35 the movers, 0x10000 + address a fawn core or steward. -/
structure Frozen where
  master : Nat := 0
  halted : Bool := false
  addr : Nat := 0
  /-- Registers kept for inspection. -/
  kept : List Nat := []
  deriving DecidableEq, Repr

/-- A control core's program state (R443): program counter, 32 registers. -/
structure CtlCore where
  pc : Nat := 0
  regs : List Nat := []
  /-- Messages waiting in its 64-entry mailbox, oldest first (R24): to core 1 the slots of the commands it is to run, to core 0 the
  slots of the commands that core 1 has brought to an outcome. -/
  mbox : List Nat := []
  deriving DecidableEq, Repr

/-- Where an epoch commit stands (R33 to R35). -/
inductive CommitPhase where
  | idle
  /-- Held for the events of the epoch before the current one; the host slot that asked. -/
  | held (slot : Nat)
  /-- PREPARE sent at a cycle to regions; those that confirmed, the last at a cycle. -/
  | prepared (slot since : Nat) (regions confirmed : List Nat) (lastConf : Nat)
  /-- Broadcast: C and the new epoch. -/
  | broadcast (c epoch : Nat)
  deriving DecidableEq, Repr

/-- A snapshot buffer (R37): capture sequence number, epoch and the captured RS values. -/
structure SnapBuf (ρ : Type) where
  seq : Nat := 0
  epoch : Nat := 0
  vals : ρ
  deriving DecidableEq, Repr

/-- Why the device is held in reset (R452 to R462). -/
inductive ResetPhase where
  | running
  /-- RESETn low since a cycle. -/
  | resetn (since : Nat)
  /-- A rail stayed below its minimum (R454). -/
  | undervolt
  /-- The analogue trip has acted (R460); RESETn low since a cycle, if it is low. -/
  | tripped (low : Option Nat)
  /-- The junction is below 0 °C (R462). -/
  | cold
  deriving DecidableEq, Repr

/-- What leaves the device: the model's own journal, newest first. [DESIGN CHOICE, log 17] -/
inductive Output where
  /-- A frame on a port: type, header SEQ, payload bytes, departure cycle, whether its CRC was inverted (R296), and whether the manual
  has it begin an _FS block: a TIME frame, the first of an express run, the first of a resend (R285, R292). -/
  | frame (port ftype seq : Nat) (payload : List Nat) (cyc : Nat) (badCrc fs : Bool)
  /-- An error injected into a lane's block: mode 1 a payload bit, mode 2 a header bit (R296). -/
  | injection (port lane mode : Nat)
  /-- A burst the host read: channel and 64-bit words. -/
  | dq (ch : Nat) (words : List Nat)
  /-- A mode-register read. -/
  | mrr (ch mr value : Nat)
  /-- The answer of the monitor: data words and the status, 0 for OK. -/
  | monitor (data : List Nat) (status : Nat)
  /-- A pin drive began: pin group (0 VERD, 1 VALID, 2 TRIG, 3 PULSE), index, level, cycle, for TRIG in 1/32 cycles. -/
  | pin (group index level cyc : Nat)
  /-- A MARKER row on a port: the payloads of the lanes that send it, 32 bytes each. -/
  | marker (port mcount : Nat) (payload : List Nat)
  deriving DecidableEq, Repr

end Sys2Proof
end

