-- ==== Sys2Proof/Machine/State.lean ====
section
/-! DEFINITION. The whole state of the block as plain data, the reasons a step can stop, and the state after reset. -/
namespace Sys2Proof.Machine
open Sys2Proof

/-- No command of this device faults: R13 gives an outcome for every input, so nothing raises this one reason. It is here
because the interface asks for a type. Safe: it is never answered. [DESIGN CHOICE, log 5] -/
inductive Fault where
  /-- Raised by nothing. Safe. -/
  | none
  deriving DecidableEq, Repr

/-- Reasons the model answers no state. [DESIGN CHOICE, log 5] -/
inductive Refusal where
  /-- Raised by an arm of `exec` whose row has no meaning yet. Safe: the model says nothing about it. -/
  | notModelled (mnemonic : String)
  deriving DecidableEq, Repr

/-- Values of register fields by field and instance; a field not listed holds its reset value. [DEDUCED, log 97] -/
abbrev RegMap := KMap (Reg × Nat) Nat

/-- The state. Every register field of the manual is in `regs` by name; what the register tables do not hold is in the
structures of FabTypes, NetTypes, AcqTypes and IoTypes. -/
structure State where
  /-- FCLK cycles since reset (R10). -/
  cycle : Nat := 0
  /-- Commands waiting, first in, first out. -/
  pending : List Instr := []
  /-- What has left the device, newest first: the model's journal. -/
  out : List Output := []
  /-- The model's own counter of free values drawn. -/
  freeIdx : Nat := 0
  /-- Stepping, 0xA2 or 0xB0 (CHIP_STEP.STEP). -/
  stepping : Nat := 0xB0
  /-- Register fields in force. -/
  regs : RegMap := []
  /-- Staged writes waiting for a commit (R6, R32). -/
  staged : RegMap := []
  /-- The other configuration held: the epoch before the current one, with its register fields (R34). -/
  cfgOld : Option (Nat × RegMap) := none
  /-- Cycle from which no event of that older epoch is in flight (R34, R35). -/
  oldUntil : Nat := 0
  commit : CommitPhase := .idle
  fab : FabState := {}
  eland : KMap Nat ElandUnit := []
  cores : KMap Nat FawnCore := []
  cond : CondState := {}
  dsk : KMap Nat DskSlot := []
  vrd : KMap Nat VrdUnit := []
  nets : KMap Nat SlotNet := []
  keys : List NetKey := []
  samplers : KMap Nat Sampler := []
  jobs : KMap Nat Job := []
  spb : SpbState := {}
  memS : MemState := {}
  /-- Bytes behind internal addresses below 2^40: cluster SRAM, scratch, program memory, control-core memory, the memory
  stack. -/
  mem : List Host.Cell := []
  /-- Bytes of the host window that the device does not compute: command slots, the boot slot, reply slots (R327). -/
  win : List Host.Cell := []
  /-- Words of SRAM, scratch or stack with an uncorrectable error not yet found, by address (R181, R259). -/
  ue : List Nat := []
  /-- Words with a correctable error. -/
  ce : List Nat := []
  /-- Poisoned 32-byte words of the stack (R260). -/
  poison : List Nat := []
  ints : IntState := {}
  opx : KMap Nat OpxPort := []
  tb : TbState := {}
  host : HostState := {}
  boot : BootSt := {}
  lock : LockState := {}
  power : PowerState := {}
  logs : LogState := {}
  frozen : List Frozen := []
  ctl : KMap Nat CtlCore := []
  /-- The snapshot buffer that is served and the other one (R37). -/
  snap : SnapBuf RegMap := { vals := [] }
  snapOther : SnapBuf RegMap := { vals := [] }
  phase : ResetPhase := .running
  deriving DecidableEq, Repr

/-- The state right after reset, stepping B0, straps HOST and PRODUCTION: every register field at its table's reset value,
nothing staged, no network, no token, memory with nothing listed. [DESIGN CHOICE, log 7, 8] -/
def State.reset : State := {}

end Sys2Proof.Machine
end

