-- ==== Sys2Proof/Machine/Ops.lean ====
section
/-! DEFINITION. The named operations over the state that the meanings share: register fields, memory, free values, log
records, freezes. -/
namespace Sys2Proof.Machine
open Sys2Proof

/-! ### Register fields -/

/-- The value a field holds at reset: the table's, but for the fields whose table gives a choice by stepping, strap, class
or ROM (CHIP_STEP, ELD_REV, BOOT_STATE, MEM_CLASSk: instance i is class i + 1). -/
def State.resetVal (s : State) (r : Reg) (i : Nat) : Nat :=
  match r with
  | .CHIP_STEP_STEP => s.stepping
  | .ELD_REV_LPASS => if s.stepping == 0xA2 then 84 else 80
  | .BOOT_STATE_BOOT_SRC => s.boot.bootSrc
  | .BOOT_STATE_DEV_MODE => if s.boot.devMode then 1 else 0
  | .BOOT_STATE_ROM_VERSION => Config.romVersion % 2 ^ 32
  | .MEM_CLASS_LIMIT => nth 0 [13333, 2667, 40000, 20000, 13333, 667, 667, 133] i
  | r => r.info.reset

/-- A field in a given configuration (R34). -/
def State.regIn (s : State) (m : RegMap) (r : Reg) (i : Nat := 0) : Nat := (m.get? (r, i)).getD (s.resetVal r i)

/-- A field's value in force. -/
def State.reg (s : State) (r : Reg) (i : Nat := 0) : Nat := s.regIn s.regs r i

/-- A one-bit field as a truth value. -/
def State.flag (s : State) (r : Reg) (i : Nat := 0) : Bool := s.reg r i == 1

/-- Set a field in force, at its width. -/
def State.setReg (s : State) (r : Reg) (i v : Nat) : State := { s with regs := s.regs.put (r, i) (v % 2 ^ r.width) }

/-- Set or clear a one-bit field. -/
def State.setFlag (s : State) (r : Reg) (i : Nat) (b : Bool) : State := s.setReg r i (if b then 1 else 0)

/-- Add to a counter, which wraps at its width (R105, R139, R162, R344 and the other counter rules). [DEDUCED, log 21] -/
def State.bump (s : State) (r : Reg) (i : Nat := 0) (n : Nat := 1) : State := s.setReg r i (s.reg r i + n)

/-- Add to a counter that saturates at its width. [DEDUCED, log 21] -/
def State.bumpSat (s : State) (r : Reg) (i : Nat := 0) (n : Nat := 1) : State :=
  s.setReg r i (min (s.reg r i + n) (2 ^ r.width - 1))

/-- Set a field of a staged write (R6, R32). -/
def State.stageReg (s : State) (r : Reg) (i v : Nat) : State := { s with staged := s.staged.put (r, i) (v % 2 ^ r.width) }

/-- The configuration a commit would put in force: staged writes over the present one. -/
def State.nextCfg (s : State) : RegMap := s.staged ++ s.regs

/-- The epoch in force. -/
def State.epoch (s : State) : Nat := s.reg .CHIP_EPOCH_CURRENT

/-- The epoch after an epoch (R32: after 0xFFFF the epoch continues at 0x0001). -/
def epochAfter (e : Nat) : Nat := if e == 0xFFFF then 1 else e + 1

/-- The configuration a token's EPOCH_LO selects (R34, R92): the epoch in force and the one before it, or, from the broadcast
of a commit to its cycle C, the epoch in force and the new one; none for a stale token. [DEDUCED, log 27] -/
def State.cfgOf (s : State) (lo : Nat) : Option RegMap :=
  if lo == s.epoch % 256 then some s.regs
  else match s.commit with
    | .broadcast _ e => if lo == e % 256 then some s.nextCfg else none
    | _ => match s.cfgOld with
      | some (e, m) => if lo == e % 256 then some m else none
      | none => none

/-- A register of a slot's verdict unit in the configuration that an event of the given epoch completes under (R34). [DEDUCED, log 56] -/
def State.vrdReg (s : State) (epoch : Nat) (r : Reg) (slot : Nat) : Nat := s.regIn ((s.cfgOf (epoch % 256)).getD s.regs) r slot

/-- The full epoch that an EPOCH_LO selects. -/
def State.epochOf (s : State) (lo : Nat) : Option Nat :=
  if lo == s.epoch % 256 then some s.epoch
  else match s.commit with
    | .broadcast _ e => if lo == e % 256 then some e else none
    | _ => match s.cfgOld with
      | some (e, _) => if lo == e % 256 then some e else none
      | none => none

/-! ### Free values -/

/-- Draw a free value of `n` values: nothing constrains it but its range. [DESIGN CHOICE, log 12] -/
def State.free (s : State) (n : Nat) : Nat × State :=
  (Config.freeValue s.freeIdx % n, { s with freeIdx := s.freeIdx + 1 })

/-! ### Bytes behind internal and window addresses -/

/-- Read a byte: an address not listed reads zero. [DESIGN CHOICE, log 10] -/
def cellGet : List Host.Cell → Nat → BitVec 8
  | [], _ => 0
  | (k, v) :: m, a => if k = a then v else if a < k then 0 else cellGet m a

/-- Write a byte, keeping addresses rising and no zero listed. [DESIGN CHOICE, log 10] -/
def cellPut : List Host.Cell → Nat → BitVec 8 → List Host.Cell
  | [], a, b => if b = 0 then [] else [(a, b)]
  | (k, v) :: m, a, b =>
    if a < k then (if b = 0 then (k, v) :: m else (a, b) :: (k, v) :: m)
    else if a = k then (if b = 0 then m else (a, b) :: m)
    else (k, v) :: cellPut m a b

/-- The canonical form: addresses strictly rising from a bound, no entry zero. -/
def cellsWfFrom : Nat → List Host.Cell → Bool
  | _, [] => true
  | lo, (k, v) :: m => decide (lo ≤ k) && !(v == 0) && cellsWfFrom (k + 1) m

/-- The canonical form of a memory. [DESIGN CHOICE, log 10] -/
abbrev Memory.wf (m : List Host.Cell) : Bool := cellsWfFrom 0 m

/-- Read `n` bytes from an address. -/
def cellsRead (m : List Host.Cell) (a : Nat) : Nat → List Nat
  | 0 => []
  | n + 1 => (cellGet m a).toNat :: cellsRead m (a + 1) n

/-- Write bytes from an address. -/
def cellsWrite (m : List Host.Cell) (a : Nat) : List Nat → List Host.Cell
  | [] => m
  | b :: bs => cellsWrite (cellPut m a (BitVec.ofNat 8 b)) (a + 1) bs

/-- Remove every byte from `a` up to but not including `a + n`. -/
def cellsClear (m : List Host.Cell) (a n : Nat) : List Host.Cell :=
  m.filter fun c => !(decide (a ≤ c.1) && decide (c.1 < a + n))

/-- Bytes of internal memory. -/
def State.rd (s : State) (a n : Nat) : List Nat := cellsRead s.mem a n

/-- Store bytes of internal memory. -/
def State.wr (s : State) (a : Nat) (bs : List Nat) : State := { s with mem := cellsWrite s.mem a bs }

/-- A little-endian word of internal memory. -/
def State.rdLe (s : State) (a n : Nat) : Nat := leNat (s.rd a n)

/-- Bytes of the host window's SRAM. -/
def State.winRd (s : State) (a n : Nat) : List Nat := cellsRead s.win a n

/-- Store bytes of the host window's SRAM. -/
def State.winWr (s : State) (a : Nat) (bs : List Nat) : State := { s with win := cellsWrite s.win a bs }

/-! ### The internal address map (Table "Internal address map") -/

/-- Bytes of one site's SRAM. -/
def sramBytes : Nat := 0x400000
/-- First address of a site's SRAM. -/
def sramBase (region cluster : Nat) : Nat := region * 2 ^ 27 + cluster * 2 ^ 22
/-- First address of the SRAM of a unit's cluster. -/
def sramOf (u : Nat) : Nat := sramBase (UnitAddr.region u) (UnitAddr.cluster u)
/-- First address of a unit's space. -/
def unitSpace (u : Nat) : Nat :=
  0x40000000 + UnitAddr.region u * 2 ^ 26 + UnitAddr.cluster u * 2 ^ 21 + UnitAddr.unit u * 2 ^ 17
/-- First address of a fawn core's program memory. -/
def progBase (u : Nat) : Nat := unitSpace u + 0x10000
/-- The stack: 24 GiB from 0x01_0000_0000. -/
def stackLo : Nat := 0x100000000
/-- One past the stack's last byte. -/
def stackHi : Nat := 0x700000000

/-- What an internal address reaches. -/
inductive AddrKind where
  | sram (steward off : Nat)
  | unit (u off : Nat)
  | block
  | control (core : Nat)
  | stack
  | reserved
  deriving DecidableEq, Repr

/-- The map of Table "Internal address map". -/
def addrKind (a : Nat) : AddrKind :=
  if a < 0x40000000 then
    let c := a / 2 ^ 22 % 32
    if c ≤ 16 then .sram (UnitAddr.mk (a / 2 ^ 27) c 15) (a % 2 ^ 22) else .reserved
  else if a < 0x60000000 then
    let c := a / 2 ^ 21 % 32
    if c ≤ 16 then .unit (UnitAddr.mk ((a - 0x40000000) / 2 ^ 26) c (a / 2 ^ 17 % 16)) (a % 2 ^ 17) else .reserved
  else if a < 0x61100000 then .block
  else if decide (0x70000000 ≤ a) && decide (a < 0x70080000) then .control ((a - 0x70000000) / 0x40000)
  else if decide (stackLo ≤ a) && decide (a < stackHi) then .stack
  else .reserved

/-- Whether `n` bytes from an address lie wholly in the stack. -/
def inStack (a n : Nat) : Bool := decide (stackLo ≤ a) && decide (a + n ≤ stackHi)

/-- Whether two ranges share a byte. -/
def overlaps (a n b m : Nat) : Bool := decide (a < b + m) && decide (b < a + n) && decide (0 < n) && decide (0 < m)

/-! ### The log collector (R430 to R436) -/

/-- ALARM, FAULT, WARN, INFO, TRACE (Table "Log classes"). -/
def clsAlarm : Nat := 0
/-- FAULT. -/
def clsFault : Nat := 1
/-- WARN. -/
def clsWarn : Nat := 2
/-- INFO. -/
def clsInfo : Nat := 3
/-- TRACE. -/
def clsTrace : Nat := 4

/-- Sources, in the order of Table "Block register bases". -/
inductive Src where
  | chip | fab | eld | cnd | nsl | vrd | spb | mem | opx | tb | hst | boot | sec | int | lv | thm | log
  deriving DecidableEq, Repr

/-- The number of a source (R430). -/
def Src.code : Src → Nat
  | .chip => 0 | .fab => 1 | .eld => 2 | .cnd => 3 | .nsl => 4 | .vrd => 5 | .spb => 6 | .mem => 7 | .opx => 8
  | .tb => 9 | .hst => 10 | .boot => 11 | .sec => 12 | .int => 13 | .lv => 14 | .thm => 15 | .log => 16

/-- The intake threshold of a class (R432). -/
def clsThreshold (c : Nat) : Nat := if c == 4 then 16 else if c == 3 then 32 else if c == 2 then 48 else 56

/-- Count a suppressed record (R435, R436). [DEDUCED, log 91] -/
def logSuppress (l : LogState) (r : LogRec) : LogState :=
  let u := (l.unreported.get? r.cls).getD { since := r.cyc }
  { l with
    suppressed := l.suppressed.upd (r.cls, r.source) 0 (· + 1)
    unreported := l.unreported.put r.cls { u with lastTB := r.tb, counts := u.counts.upd r.source 0 (· + 1) } }

/-- The order in which records of one cycle enter: class, source, unit (R432). -/
def logBefore (a b : LogRec) : Bool :=
  a.cls < b.cls || (a.cls == b.cls && (a.source < b.source || (a.source == b.source && a.unit ≤ b.unit)))

/-- Put a record among those of its own cycle in R432's order, behind equals. -/
def logPlace (r : LogRec) : List LogRec → List LogRec
  | [] => [r]
  | x :: xs => if x.cyc < r.cyc || logBefore x r then x :: logPlace r xs else r :: x :: xs

/-- Judge again the records of one cycle in order, given how many stand ahead: those above their threshold are dropped. -/
def logRefilter (cyc ahead : Nat) : List LogRec → List LogRec × List LogRec
  | [] => ([], [])
  | x :: xs =>
    if x.cyc == cyc && !x.summary && decide (clsThreshold x.cls ≤ ahead) then
      let (k, d) := logRefilter cyc ahead xs
      (k, x :: d)
    else
      let (k, d) := logRefilter cyc (ahead + 1) xs
      (x :: k, d)

/-- The summary record of a class's unreported suppressions (R436), its interval in µs to nearest (R12). -/
def logSummaryRec (c : Nat) (u : Suppressed) (cyc epoch : Nat) : LogRec :=
  { tb := u.lastTB, epoch := epoch, cls := c, summary := true, source := 16, code := c, unit := 0xFFFF
    interval := min ((cyc - u.since + 600) / 1200) 0xFFFFFFFF
    args := ((List.range 17).map fun k => min (u.counts.getD k 0) 0xFFFF), cyc := cyc }

/-- Enter a record of class FAULT to TRACE (R432, R436): a summary of the class goes just ahead of an accepted one. [DEDUCED, log 91] -/
def logEnter (l : LogState) (r : LogRec) : LogState :=
  let placed := logPlace r l.intake
  let (keep, drop) := logRefilter r.cyc 0 placed
  let l1 := drop.foldl logSuppress { l with intake := keep }
  if drop.contains r then l1
  else match l.unreported.get? r.cls with
    | some u =>
      if l.intake.length < 60 then
        { l1 with
          intake := (keep.takeWhile (· != r)) ++ logSummaryRec r.cls u r.cyc r.epoch :: (keep.dropWhile (· != r))
          unreported := l1.unreported.del r.cls }
      else l1
    | none => l1

/-- Enter an ALARM: merged into a pending one of the same source and code, or placed (R433). -/
def logEnterAlarm (l : LogState) (r : LogRec) : LogState :=
  { l with
    alarm := if l.alarm.any (fun x => x.source == r.source && x.code == r.code)
      then updateFirst (fun x => x.source == r.source && x.code == r.code) (fun x => { x with rep := satN 16 (x.rep + 1) }) l.alarm
      else logPlace r l.alarm }

/-- Raise a record (R430, R432 to R435): it never waits and changes nothing but the collector. [DEDUCED, log 91] -/
def State.raise (s : State) (cls : Nat) (src : Src) (code : Nat) (unit : Nat := 0xFFFF) (args : List Nat := []) : State :=
  let r : LogRec := { tb := s.tb.tb, epoch := s.epoch, cls := cls, source := src.code, code := code, unit := unit
                      args := args.map (· % 2 ^ 64), cyc := s.cycle }
  let l := { s.logs with raised := s.logs.raised.upd (cls, src.code) 0 (· + 1) }
  if cls == clsAlarm then
    let merged := l.alarm.any (fun x => x.source == r.source && x.code == r.code)
    let s := { s with logs := logEnterAlarm l r }
    if merged then s.bump .LOG_CNT2_MERGED else s
  else { s with logs := logEnter l r }

/-- Raise a TRACE record of a point when its bit is set in LOG_TRACE.POINTS (R438). -/
def State.trace (s : State) (point : Nat) (src : Src) (args : List Nat) : State :=
  if bitAt (s.reg .LOG_TRACE_POINTS) point then s.raise clsTrace src (0x100 + point) 0xFFFF args else s

/-- A 64-byte record (Table "Log record"). -/
def logBytes (r : LogRec) (seq : Nat) : List Nat :=
  leBytes 4 seq ++ leBytes 8 r.tb ++ leBytes 2 r.epoch ++ [r.cls + (if r.summary then 8 else 0), r.source]
    ++ leBytes 2 r.code ++ leBytes 2 r.unit
    ++ (if r.summary then leBytes 4 r.interval else leBytes 2 r.rep ++ [0, 0])
    ++ bytesAt ((r.args.map (leBytes (if r.summary then 2 else 8))).foldr (· ++ ·) []) 0 40

/-! ### Freezes (R30, R31) -/

/-- Whether a master is frozen or halted. -/
def State.isFrozen (s : State) (m : Nat) : Bool := s.frozen.any (·.master == m)

/-- The bit of a master in CHIP_FROZEN_CORES.MASK: control cores, region managers and the host port have one (R40). -/
def coreBit (m : Nat) : Option Nat := if m < 2 || (8 ≤ m && m ≤ 16) then some m else none

/-- The block in which a master stands, as the source of its record. -/
def masterSrc (m : Nat) : Src := if m < 16 then .chip else if m == 16 then .hst else if m < 0x10000 then .mem else .fab

/-- A wait that ends with its instruction, or with the core stopped or frozen in it, counts its cycles in FAB_FC_CNT_STALL (R166). -/
def State.settleWait (s : State) (u : Nat) : State :=
  match s.cores.get? u with
  | none => s
  | some c =>
    let n := s.cycle - c.readyAt
    let s := { s with cores := s.cores.put u { c with waiting := 0 } }
    match c.waiting with
    | 1 => s.bump .FAB_FC_CNT_STALL_RECV u n
    | 2 => s.bump .FAB_FC_CNT_STALL_SEND u n
    | _ => s

/-- A fawn core that freezes waits no longer. -/
def State.settleMaster (s : State) (m : Nat) : State := if m < 0x10000 then s else s.settleWait (m - 0x10000)

/-- Freeze a master: it is kept with what it did, its bit or the count rises, and a FAULT-class record, for a control core an
ALARM-class one, names the master, the address and the epoch (R30, R31, R40). -/
def State.freeze (s : State) (m addr : Nat) (kept : List Nat := []) (halted : Bool := false) : State :=
  if s.isFrozen m then s
  else
    let cls := if m < 2 then clsAlarm else clsFault
    let unit := if m < 0x10000 then 0xFFFF else m - 0x10000
    let rec_ : LogRec := { tb := s.tb.tb, epoch := s.epoch, cls := cls, source := (masterSrc m).code, code := 1, unit := unit
                           args := [m, addr, s.epoch], cyc := s.cycle }
    let s := (s.raise cls (masterSrc m) 0x0001 unit [m, addr, s.epoch]).settleMaster m
    let s := { s with
      frozen := { master := m, halted := halted, addr := addr, kept := kept } :: s.frozen
      logs := { s.logs with frozenRecs := s.logs.frozenRecs.put m rec_ } }
    match coreBit m with
    | some b => s.setReg .CHIP_FROZEN_CORES_MASK 0 (s.reg .CHIP_FROZEN_CORES_MASK ||| 2 ^ b)
    | none => s.bump .CHIP_FROZEN_UNITS_COUNT

/-- Thaw a master (R31): it is no longer frozen; none when it was not. -/
def State.unfreeze (s : State) (m : Nat) : Option State :=
  if s.isFrozen m then
    let s := { s with frozen := s.frozen.filter (·.master != m)
                      logs := { s.logs with frozenRecs := s.logs.frozenRecs.del m } }
    some (match coreBit m with
    | some b => s.setReg .CHIP_FROZEN_CORES_MASK 0 (setBits (s.reg .CHIP_FROZEN_CORES_MASK) b 1 0)
    | none => s.setReg .CHIP_FROZEN_UNITS_COUNT 0 (s.reg .CHIP_FROZEN_UNITS_COUNT - 1))
  else none

/-! ### The timebase (R298, R299, R302) -/

/-- TB with its fraction and its wraps, in units of 2^−48 ns: COUNT, TB and TB_FRAC as one number (R298, R299). -/
def State.tbFull (s : State) : Nat := (s.reg .TB_EPOCH_COUNT * 2 ^ 64 + s.tb.tb) * 2 ^ 32 + s.tb.frac

/-- Set COUNT, TB and TB_FRAC from such a number (R299). -/
def State.setTbFull (s : State) (v : Int) : State :=
  let w := ux 128 v
  { s with tb := { s.tb with tb := w / 2 ^ 32 % 2 ^ 64, frac := w % 2 ^ 32 } }.setReg .TB_EPOCH_COUNT 0 (w / 2 ^ 96)

/-- The timebase at the next FCLK edge gains INC, a 32.32 number; a carry out of TB adds one to COUNT (R298, R299). -/
def tbAdvance (s : State) : State := s.setTbFull ((s.tbFull + s.reg .TB_INC_INC : Nat) : Int)

/-- TB and its wraps at a time in 1/32 cycles, at the present rate (R304). [DEDUCED, log 83] -/
def State.tbAt32 (s : State) (t32 : Nat) : Nat × Nat :=
  let d : Int := ((t32 : Int) - (32 * s.cycle : Nat)) * ((s.reg .TB_INC_INC : Nat) : Int)
  let w := ux 128 ((s.tbFull : Int) + roundDiv d 32)
  (w / 2 ^ 32 % 2 ^ 64, w / 2 ^ 96)

/-! ### The memory stack's words (R258 to R260, R270) -/

/-- The 32-byte words that `n` bytes from an address touch. -/
def stackWords (a n : Nat) : List Nat :=
  if n == 0 then [] else (List.range ((a + n - 1) / 32 - a / 32 + 1)).map fun k => (a / 32 + k) * 32

/-- The 32-byte words of the 64-byte bursts that carry `n` bytes from an address: two check words to a burst (R256). -/
def burstWords (a n : Nat) : List Nat :=
  if n == 0 then [] else (List.range (2 * ((a + n - 1) / 64 - a / 64 + 1))).map fun k => a / 64 * 64 + 32 * k

/-- Bytes that the bursts for `n` bytes from an address transfer (R256). -/
def burstBytes (a n : Nat) : Nat := 32 * (burstWords a n).length

/-- Count bytes of a traffic class (R272) and spend its credit of 64-byte units; RESTORE has none (R270). [DEDUCED, log 77] -/
def State.traffic (s : State) (cls n : Nat) : State :=
  let s := s.bump .MEM_CLASS_CNT_BYTES cls n
  if cls == 0 then s
  else { s with memS := { s.memS with credits := s.memS.credits.put cls (s.memS.credits.getD cls 0 - (n + 63) / 64) } }

/-- What a burst's read finds in one of its check words: an uncorrectable error is counted, recorded and written back as POISON,
a single-bit error is corrected, counted and written back, both at scrub priority (R258, R259). [DEDUCED, log 77] -/
def State.stackFix (s : State) (w : Nat) : State :=
  if s.ue.contains w then
    let s := { s with ue := s.ue.filter (· != w), ce := s.ce.filter (· != w)
                      poison := if s.poison.contains w then s.poison else w :: s.poison }
    let s := (s.bump .MEM_CNT_ECC_UNCORR).traffic 8 64
    let s := if s.flag .MEM_FIRST_UE_VALID then s
      else (s.setReg .MEM_FIRST_UE_ADDR 0 w).setReg .MEM_FIRST_UE_VALID 0 1
    s.raise clsFault .mem 0x000A 0xFFFF [w]
  else if s.ce.contains w then
    (({ s with ce := s.ce.filter (· != w) } : State).bump .MEM_CNT_ECC_CORRECTED).traffic 8 64
  else s

/-- One word's delivery: whether it is poisoned. A word found uncorrectable counts as that and not as a poisoned read (R259). -/
def State.stackCheck (s : State) (w : Nat) : Bool × State :=
  let t := s.stackFix w
  (t.poison.contains w, if s.poison.contains w && !s.ue.contains w then t.bump .MEM_CNT_POISON_READS else t)

/-- The words of the bursts for `n` bytes from an address are read (R256): those of them asked for that are delivered poisoned. -/
def State.stackCheckAll (s : State) (a n : Nat) : List Nat × State :=
  (burstWords a n).foldl (fun (acc : List Nat × State) w =>
    if decide (a < w + 32) && decide (w < a + n) then
      let (p, s) := acc.2.stackCheck w
      (if p then acc.1 ++ [w] else acc.1, s)
    else (acc.1, acc.2.stackFix w)) ([], s)

/-- Read `n` bytes of the stack in a traffic class: the bytes and the words that read poisoned. -/
def State.stackRead (s : State) (a n cls : Nat) : List Nat × List Nat × State :=
  let (p, s) := s.stackCheckAll a n
  (s.rd a n, p, s.traffic cls (burstBytes a n))

/-- A byte of a staging frame: what the host wrote, else what the stack holds (R329, R330). [DEDUCED, log 33] -/
def State.frameByte (s : State) (off : Nat) : Nat :=
  match s.host.stage.get? off with
  | some b => b.toNat
  | none => (cellGet s.mem (s.reg .MEM_STAGE_BASE + off)).toNat

/-- Keep runs of window bytes as they are before a device's write of this cycle: a host read of the same cycle returns them (R337). -/
def State.keepBefore (s : State) (runs : List (Nat × List Nat)) : State :=
  { s with host := { s.host with
      devAt := s.cycle, devOld := (if s.host.devAt == s.cycle then s.host.devOld else []) ++ runs } }

/-- The byte at a window address before the device's writes of this cycle; none where it wrote nothing (R337). -/
def State.beforeDevice (s : State) (a : Nat) : Option Nat :=
  if s.host.devAt == s.cycle then
    (s.host.devOld.find? fun (e : Nat × List Nat) => decide (e.1 ≤ a) && decide (a < e.1 + e.2.length)).map fun e => nth 0 e.2 (a - e.1)
  else none

/-- A device's write to the window's SRAM. -/
def State.devWr (s : State) (a : Nat) (bs : List Nat) : State := (s.keepBefore [(a, s.winRd a bs.length)]).winWr a bs

/-- Keep the bytes that a device-side write to the staging area changes in the frames that are cached (R337). -/
def State.keepFrames (s : State) (a n : Nat) : State :=
  let base := s.reg .MEM_STAGE_BASE
  s.keepBefore (s.host.pages.keys.filterMap fun q =>
    let lo := max a (base + 4096 * q)
    let hi := min (a + n) (base + 4096 * q + 4096)
    if lo < hi then some (0x10000000 + (lo - base), (List.range (hi - lo)).map fun k => s.frameByte (lo - base + k)) else none)

/-- A device-side write to the staging area reaches the frames too: it stands over what the host had written (R330). [DEDUCED, log 33] -/
def State.stageOver (s : State) (a n : Nat) : State :=
  let base := s.reg .MEM_STAGE_BASE
  { s with host := { s.host with
      stage := s.host.stage.filter fun (e : Nat × BitVec 8) => !(decide (a ≤ base + e.1) && decide (base + e.1 < a + n)) } }

/-- Write bytes of the stack in a traffic class; data not poisoned clears POISON in the words written (R260). -/
def State.stackWrite (s : State) (a : Nat) (bs : List Nat) (cls : Nat) : State :=
  let ws := stackWords a bs.length
  let s := (s.keepFrames a bs.length).wr a bs
  let s := { s with poison := s.poison.filter (fun w => !ws.contains w), ue := s.ue.filter (fun w => !ws.contains w)
                    ce := s.ce.filter (fun w => !ws.contains w) }
  let s := s.stageOver a bs.length
  s.traffic cls (burstBytes a bs.length)

/-- Set POISON of one word (R260). -/
def State.poisonWord (s : State) (w : Nat) : State :=
  if s.poison.contains w then s else { s with poison := w :: s.poison }

/-! ### Output and pins -/

/-- Note what leaves the device. [DESIGN CHOICE, log 17] -/
def State.emit (s : State) (o : Output) : State := { s with out := o :: s.out }

/-- A fault drain or a thermal drain is in force (R390, R426). -/
def State.draining (s : State) : Bool := s.flag .INT_STATE_DRAIN || s.flag .THM_STATUS_DRAIN

/-- ALARM is asserted (R437). -/
def State.alarmPin (s : State) : Bool :=
  decide (s.reg .LOG_ALARM_ACK < s.logs.total.getD 0 0) || s.draining || s.isFrozen 0 || s.isFrozen 1

/-- The analogue trip holds the device (R460). -/
def State.tripped (s : State) : Bool := match s.phase with | .tripped _ => true | _ => false

/-- SHDN_REQn is driven low: a thermal drain or the analogue trip (R426, R460). -/
def State.shdnPin (s : State) : Bool := s.flag .THM_STATUS_DRAIN || s.tripped

/-- The answer of every meaning: the device always goes on (R13). -/
abbrev Answer := Host.Outcome State Fault Refusal

/-- What no command but those of reset changes: the cycle, the stepping, the straps (R346), whether the device is in reset; and the
model's queue. [DEDUCED, log 6] -/
def State.keeping (s t : State) : State :=
  { t with
    cycle := s.cycle, pending := s.pending, stepping := s.stepping, phase := s.phase
    boot := { t.boot with bootSrc := s.boot.bootSrc, devMode := s.boot.devMode } }

/-- A command finds the device out of reset, and has its effect, or in internal reset, where nothing but the pins and the trip
acts (R454, R459). [DEDUCED, log 6] -/
def awake (s t : State) : Answer := .next (if s.phase = .running then s.keeping t else s)

end Sys2Proof.Machine
end

