-- ==== Sys2Proof/Machine/Packets.lean ====
section
/-! DEFINITION. Command packets and replies (R331 to R339, R361): the slots' layout, the checks a taken packet passes, which
packet a command runs, and the reply. -/
namespace Sys2Proof.Machine
open Sys2Proof

/-! ### Statuses (Tables "Statuses", "Start-up statuses", "Integrity statuses", "Power opcodes", "Monitor statuses") -/

/-- Statuses by the manual's names; those of the loader, refinement and timebase stand with their chapters' meanings. -/
inductive Status where
  | ok | crc | opcode | version | field | length | ownership | regRo | notFrozen | internal | commitRule | commitAborted
  | keyFormat | keyDuplicate | keySpace | jobState | moveRange | stageFull | movePort | stageDirty | poisoned
  | fwFormat | fwVersion | bootSeq | helperFormat | fwSigner | fwHdrSig | fwRomOld | fwWrongDevice | fwUnseal | fwBodySig
  | fwTag | fwBodyFormat | fwAbi | devOnly | confirmNonce | fwStageState | fwBusy | noIdentity | pufFail | fwReverted
  | remapSpare | injectLive | remapShortfall | remapSource | thmHot | thmNoDrain
  | monSyntax | monCrc | monRange | monDevOnly | monState
  deriving DecidableEq, Repr

/-- The 16-bit status value. -/
def Status.val : Status → Nat
  | .ok => 0 | .crc => 0x1001 | .opcode => 0x1002 | .version => 0x1003 | .field => 0x1004 | .length => 0x1005
  | .ownership => 0x2001 | .regRo => 0x2002 | .notFrozen => 0x4001 | .internal => 0x5001 | .commitRule => 0x2101
  | .commitAborted => 0x4101 | .keyFormat => 0x2208 | .keyDuplicate => 0x2209 | .keySpace => 0x3202 | .jobState => 0x4303
  | .moveRange => 0x2901 | .stageFull => 0x3901 | .movePort => 0x4901 | .stageDirty => 0x4902 | .poisoned => 0x5901
  | .fwFormat => 0x1501 | .fwVersion => 0x1502 | .bootSeq => 0x1503 | .helperFormat => 0x1504 | .fwSigner => 0x2501
  | .fwHdrSig => 0x2502 | .fwRomOld => 0x2503 | .fwWrongDevice => 0x2504 | .fwUnseal => 0x2505 | .fwBodySig => 0x2506
  | .fwTag => 0x2507 | .fwBodyFormat => 0x2508 | .fwAbi => 0x2509 | .devOnly => 0x250A | .confirmNonce => 0x250B
  | .fwStageState => 0x4501 | .fwBusy => 0x4502 | .noIdentity => 0x4503 | .pufFail => 0x5501 | .fwReverted => 0x5502
  | .remapSpare => 0x2601 | .injectLive => 0x2602 | .remapShortfall => 0x3601 | .remapSource => 0x5601
  | .thmHot => 0x4701 | .thmNoDrain => 0x4702
  | .monSyntax => 0x1801 | .monCrc => 0x1802 | .monRange => 0x2801 | .monDevOnly => 0x2802 | .monState => 0x4801

/-! ### Slots -/

/-- Window address of a command slot; 64 names the boot slot (R327, R348). -/
def cmdSlot (hs : Nat) : Nat := if hs == 64 then 0x1000 else 0x10000 + 256 * hs

/-- Window address of a reply slot. -/
def replySlot (hs : Nat) : Nat := if hs == 64 then 0x1100 else 0x14000 + 256 * hs

/-- A byte of a packet's parameters. -/
def pU8 (p : Packet) (o : Nat) : Nat := leAt p.params o 1
/-- A 16-bit field. -/
def pU16 (p : Packet) (o : Nat) : Nat := leAt p.params o 2
/-- A 32-bit field. -/
def pU32 (p : Packet) (o : Nat) : Nat := leAt p.params o 4
/-- A 64-bit field. -/
def pU64 (p : Packet) (o : Nat) : Nat := leAt p.params o 8

/-- Read a slot's 256 bytes as a packet (Table "Command packet"). -/
def packetOf (slot cyc : Nat) (bs : List Nat) : Packet :=
  { slot := slot, seq := leAt bs 0 4, opcode := leAt bs 4 2, minor := leAt bs 6 1, major := leAt bs 7 1
    plen := leAt bs 8 2, rsv := leAt bs 10 2, tag := leAt bs 12 4, params := bytesAt bs 16 232, cyc := cyc }

/-! ### Opcodes -/

/-- A firmware opcode taken by command slots (Table "Opcodes" and the chapters' tables). -/
def fwOpcode (op : Nat) : Bool :=
  [0x001, 0x010, 0x011, 0x020, 0x030, 0x100, 0x101, 0x102, 0x103, 0x200, 0x201, 0x202, 0x203, 0x204, 0x210, 0x300, 0x301,
   0x400, 0x510, 0x511, 0x512, 0x513, 0x514, 0x520, 0x600, 0x601, 0x602, 0x700, 0x701, 0x800, 0x801].contains op

/-- A ROM opcode taken by the boot slot (Table "Start-up opcodes"). -/
def romOpcode (op : Nat) : Bool := [0x500, 0x501, 0x502, 0x503, 0x520].contains op

/-- Loader commands queue for control core 1 (R194, R336, R392). -/
def loaderOpcode (op : Nat) : Bool := [0x200, 0x201, 0x202, 0x203, 0x204, 0x210, 0x300, 0x601].contains op

/-- Commands that control core 1 handles: the loader's, epoch commits, integrity responses, leave (R24). [DEDUCED, log 99] -/
def coreOneOpcode (op : Nat) : Bool := loaderOpcode op || [0x020, 0x600, 0x602, 0x701].contains op

/-- MOVE and staging commands run on memory movers (R336). -/
def moverOpcode (op : Nat) : Bool := [0x100, 0x101, 0x102, 0x103].contains op

/-- Bytes up to the last field of a command's parameter layout; REG_WRITE's follows COUNT. -/
def opExtent (op : Nat) (params : List Nat) : Nat :=
  match op with
  | 0x010 => 9
  | 0x011 => 8 + 24 * min (leAt params 0 1) 9
  | 0x030 | 0x601 => 2
  | 0x100 => 22
  | 0x101 => 9
  | 0x102 | 0x103 | 0x200 | 0x201 | 0x210 | 0x510 | 0x800 => 8
  | 0x202 | 0x203 | 0x204 | 0x301 | 0x502 => 1
  | 0x300 => 52
  | 0x400 => 32
  | 0x503 => 12
  | 0x513 | 0x602 => 4
  | 0x520 => 36
  | 0x801 => 40
  | _ => 0

/-- PLEN is valid for an opcode: from the layout's last field to the next multiple of 8, and also with the reserved bytes
a layout ends in (MODE of STAGE_FLUSH and STAGE_RELEASE, bytes 52 to 63 of REF_START); NOP takes any (R335). -/
def plenOk (op plen : Nat) (params : List Nat) : Bool :=
  if op == 0x001 then decide (plen ≤ 232)
  else
    let e := opExtent op params
    let hi := if op == 0x102 || op == 0x103 then 16 else if op == 0x300 then 64 else (e + 7) / 8 * 8
    decide (e ≤ plen) && decide (plen ≤ hi)

/-- Reserved byte ranges of a layout (offset, length). -/
def opReserved (op : Nat) : List (Nat × Nat) :=
  match op with
  | 0x011 => [(1, 7)]
  | 0x100 => [(22, 2)]
  | 0x102 | 0x103 => [(8, 1)]
  | 0x200 | 0x201 | 0x503 => [(1, 3)]
  | 0x300 => [(52, 12)]
  | 0x400 => [(1, 7)]
  | _ => []

/-- Reserved bits of a layout's flag bytes: zero only (R7). -/
def opReservedBits (op : Nat) (params : List Nat) : Bool :=
  match op with
  | 0x100 => decide (leAt params 20 1 < 4)
  | 0x300 => decide (leAt params 3 1 < 2)
  | _ => true

/-- Reserved encodings and values outside a field's stated range: answered with FIELD. -/
def opEncodingOk (op : Nat) (params : List Nat) : Bool :=
  let u8 := fun o => leAt params o 1
  let u32 := fun o => leAt params o 4
  match op with
  | 0x010 => decide (1 ≤ u8 8) && decide (u8 8 ≤ 28)
  | 0x011 => decide (1 ≤ u8 0) && decide (u8 0 ≤ 9)
  | 0x100 => leAt params 0 8 % 32 == 0 && leAt params 8 8 % 32 == 0 && u32 16 % 32 == 0 && decide (32 ≤ u32 16)
      && decide (u32 16 ≤ 268435456) && (u8 20 % 2 == 0 || decide (u8 21 < 16))
  | 0x101 => u32 0 % 4096 == 0 && u32 4 % 4096 == 0 && decide (u8 8 ≤ 1)
  | 0x102 | 0x103 => u32 0 % 4096 == 0 && u32 4 % 4096 == 0
  | 0x200 | 0x201 => decide (u8 0 < 16) && u32 4 % 8 == 0
  | 0x202 | 0x203 | 0x204 => decide (u8 0 < 16)
  | 0x210 => decide (u32 0 ≠ 0)
  | 0x300 => decide (u8 0 < 8) && decide (u8 1 < 16) && decide (1 ≤ u8 2) && decide (u8 2 ≤ 128)
      && decide (leAt params 12 2 ≠ 0) && decide (leAt params 14 2 ≠ 0) && leAt params 24 8 % 4096 == 0
  | 0x301 => decide (u8 0 < 8)
  | 0x400 => decide (u8 0 < 128)
  | 0x502 | 0x503 => decide (u8 0 < 2)
  | 0x510 => u32 0 % 8 == 0
  | 0x601 => decide (u8 0 < 8) && decide (u8 1 < 16)
  | 0x602 => decide (1 ≤ u8 2) && decide (u8 2 ≤ 4) && decide (1 ≤ u8 3)
  | _ => true

/-- The checks on a taken packet in R335's order: the status of the first that fails, or none. -/
def packetCheck (p : Packet) : Option Status :=
  let op := p.opcode % 4096
  let known := if p.slot == 64 then romOpcode op else fwOpcode op
  if p.major > 1 then some .version
  else if !known then some .opcode
  else if !plenOk op p.plen p.params then some .length
  else
    let rsv := p.opcode / 4096 == 0 && p.rsv == 0 && opReservedBits op p.params
      && (p.params.drop p.plen).all (· == 0)
      && (opReserved op).all (fun r => (bytesAt p.params r.1 r.2).all (· == 0))
    if p.minor == 0 && !rsv then some .field
    else if !opEncodingOk op p.params then some .field
    else none

/-! ### Replies -/

/-- Write a reply of given identity into a slot (Table "Reply packet", R335, R344). -/
def State.replyRaw (s : State) (hs seq op tag : Nat) (status : Nat) (result : List Nat) : State :=
  let body := leBytes 4 seq ++ leBytes 2 op ++ [0, 1] ++ leBytes 2 (min result.length 232) ++ leBytes 2 status
    ++ leBytes 4 tag ++ bytesAt result 0 232
  let s := s.devWr (replySlot hs) (body ++ leBytes 4 (crc32c body) ++ leBytes 4 (2 ^ 32 - 1 - seq % 2 ^ 32))
  let s := s.bump .HST_CNT_CMD_REPLIED
  let s := if status == 0 then s else s.bump .HST_CNT_CMD2_REFUSED
  if hs == 64 then s.setReg .BOOT_STATE_LAST_STATUS 0 status else s

/-- A command in progress leaves every queue. -/
def State.unqueued (s : State) (hs : Nat) : State :=
  { s with host := { s.host with
      cmdQ := s.host.cmdQ.filter (· != hs)
      loaderQ := s.host.loaderQ.filter (· != hs)
      handed := s.host.handed.filter (· != hs)
      moverQ := s.host.moverQ.filter (· != hs) } }

/-- Write the reply to a packet that was taken, with its trace record (R438), and free its slot. [DEDUCED, log 91] -/
def State.replyNow (s : State) (p : Packet) (status : Nat) (result : List Nat := []) : State :=
  let s := (s.replyRaw p.slot p.seq p.opcode p.tag status result).trace 3 .hst [p.slot, p.opcode % 4096, status]
  let s := s.unqueued p.slot
  { s with host := { s.host with busy := s.host.busy.del p.slot } }

/-- A command of control core 1 has come to its outcome, which a message to control core 0 reports (R24). -/
def State.coreOneDone (s : State) (p : Packet) (status : Nat) (result : List Nat) : State :=
  let s := s.unqueued p.slot
  { s with
    host := { s.host with busy := s.host.busy.put p.slot { p with outcome := some (status, result) } }
    ctl := s.ctl.upd 0 {} (fun c => { c with mbox := c.mbox ++ [p.slot] }) }

/-- Answer a packet in progress: core 0 writes the reply at once, or when core 1's message reaches it (R24). -/
def State.replyP (s : State) (p : Packet) (status : Nat) (result : List Nat := []) : State :=
  if coreOneOpcode (p.opcode % 4096) then s.coreOneDone p status result else s.replyNow p status result

/-- Answer with a named status. -/
def State.reply (s : State) (p : Packet) (st : Status) (result : List Nat := []) : State := s.replyP p st.val result

/-! ### Which packet a command runs -/

/-- The packet in progress in a slot with an opcode. -/
def State.packetIn (s : State) (hs op : Nat) : Option Packet :=
  match s.host.busy.get? hs with
  | some p => if p.opcode % 4096 == op then some p else none
  | none => none

/-- The core that runs an ordinary command can: control core 0 is not frozen, or core 1 has the command and is not frozen (R24, R31). -/
def State.coreReadyFor (s : State) (hs op : Nat) : Bool :=
  if coreOneOpcode op then s.host.handed.contains hs && !s.isFrozen 1 else !s.isFrozen 0

/-- An ordinary command runs when it is the first taken of those that have not run (R336) and its core can. -/
def State.ordPacket (s : State) (hs op : Nat) : Option Packet :=
  if s.host.cmdQ.head? == some hs && s.coreReadyFor hs op then s.packetIn hs op else none

/-- A loader command runs when it heads the loader's queue and control core 1 is not frozen (R194). -/
def State.loaderPacket (s : State) (hs op : Nat) : Option Packet :=
  if s.host.loaderQ.head? == some hs && !s.isFrozen 1 then s.packetIn hs op else none

/-- A ROM command runs from the boot slot before firmware runs (R348, R361). -/
def State.romPacket (s : State) (op : Nat) : Option Packet :=
  if decide (s.reg .BOOT_STATE_STATE ≠ 5) then s.packetIn 64 op else none

/-- A command that has begun leaves the queue of those to run and keeps its slot until its reply. -/
def State.started (s : State) (p : Packet) : State :=
  { s with host := { s.host with cmdQ := s.host.cmdQ.filter (· != p.slot) } }

/-- Run an ordinary command; a command whose packet is not the next to run changes nothing. -/
def State.runOrd (s : State) (hs op : Nat) (f : Packet → State → State) : State :=
  match s.ordPacket hs op with
  | some p => f p s
  | none => s

/-- Run a loader command. -/
def State.runLoader (s : State) (hs op : Nat) (f : Packet → State → State) : State :=
  match s.loaderPacket hs op with
  | some p => f p s
  | none => s

/-- Run a ROM command. -/
def State.runRom (s : State) (op : Nat) (f : Packet → State → State) : State :=
  match s.romPacket op with
  | some p => f p s
  | none => s

end Sys2Proof.Machine
end

