-- ==== Sys2Proof/Machine/Leave.lean ====
section
/-! DEFINITION. Power leave (R415 to R424): the budget, what is held, rounds, revocation; and the refinement jobs' part in it
(R216, R218, R226, R227). -/
namespace Sys2Proof.Machine
open Sys2Proof

/-! ### The budget -/

/-- P in force under a configuration (R415). -/
def State.budgetIn (s : State) (m : RegMap) : Nat := min 1400 (max 560 (s.regIn m .LV_PLIMIT_UNITS))

/-- R in force under a configuration: 1 to 64 (R415, R429). -/
def State.reserveIn (s : State) (m : RegMap) : Nat := min 64 (max 1 (s.regIn m .LV_RESERVE_RESTORE))

/-- A region's cap under a configuration: 0 to 160 (R416). -/
def State.capIn (s : State) (m : RegMap) (r : Nat) : Nat := min 160 (s.regIn m .LV_RGN_CAP_CAP r)

/-- The networks that hold a reservation: live, staged, and old until drained (R418). -/
def SlotNet_nets (n : SlotNet) : List Net :=
  (match n.live with | some l => [l] | none => [])
    ++ (match n.staged with | some (.load l) => [l] | _ => [])
    ++ (match n.old with
      | some o => if n.live.any (fun l => l.bankId != 0 && l.img.imageId == o.img.imageId) then [] else [o]
      | none => [])

/-- Every network that holds a reservation. -/
def State.heldNets (s : State) : List Net := (s.nets.map fun e => SlotNet_nets e.2).foldr (· ++ ·) []

/-- Leave an image reserves in a region. -/
def Image_leaveIn (i : Image) (r : Nat) : Nat := ((i.leaves.filter (·.region == r)).map (·.leave)).foldl (· + ·) 0

/-- Leave reserved by networks (R415). -/
def State.leaveReserved (s : State) : Nat := (s.heldNets.map (·.img.leave)).foldl (· + ·) 0

/-- Units granted, of a test. -/
def State.grantedWhere (s : State) (p : Leave → Bool) : Nat :=
  ((s.power.granted.filter p).map (·.units)).foldl (· + ·) 0

/-- Free leave under a configuration, as an integer: P − 496 − R − reserved − granted, restores on the reserve aside (R415,
R423). -/
def State.freeLeaveIn (s : State) (m : RegMap) : Int :=
  (s.budgetIn m : Int) - 496 - s.reserveIn m - s.leaveReserved - s.grantedWhere (fun g => !g.reserve)

/-- Leave held in a region: reservations and grants, restores on the reserve aside (R416). -/
def State.leaveHeld (s : State) (r : Nat) : Nat :=
  (s.heldNets.map (fun n => Image_leaveIn n.img r)).foldl (· + ·) 0
    + s.grantedWhere (fun g => g.region == some r && !g.reserve)

/-- A request fits under R415 and R416; a restore draws first on the reserve (R423). -/
def State.leaveFits (s : State) (q : Leave) : Option Leave :=
  let rest := s.grantedWhere (·.reserve)
  if q.cls == 1 && decide (rest + q.units ≤ s.reserveIn s.regs) then some { q with reserve := true }
  else
    let capOk := match q.region with
      | some r => decide (s.leaveHeld r + q.units ≤ s.capIn s.regs r)
      | none => true
    if decide ((q.units : Int) ≤ s.freeLeaveIn s.regs) && capOk then some q else none

/-! ### Jobs' clusters -/

/-- A writable field of a unit or port of a cluster, given as 17 × region + cluster. -/
def clusterField (rank : Nat) (e : Reg × Nat) : Bool :=
  let f := e.1.info
  let u := e.2 / (f.n1 * f.n2)
  f.acc == .rw && f.space != .block && f.space != .steward && UnitAddr.region u == rank / 17 && UnitAddr.cluster u == rank % 17

/-- The waits of a cluster's cores end, counted (R166). -/
def State.settleCluster (s : State) (rank : Nat) : State :=
  (List.range 15).foldl (fun (s : State) k => s.settleWait (UnitAddr.mk (rank / 17) (rank % 17) k)) s

/-- A cluster leaves a job: its units and ports go back to their state after reset, and its cores stop (R215, R227). -/
def State.freeCluster (s : State) (rank : Nat) : State :=
  let s := s.settleCluster rank
  { s with
    regs := s.regs.filter fun (e : (Reg × Nat) × Nat) => !clusterField rank e.1
    cfgOld := s.cfgOld.map fun x => (x.1, x.2.filter fun (e : (Reg × Nat) × Nat) => !clusterField rank e.1)
    cores := s.cores.map fun (e : Nat × FawnCore) =>
      if UnitAddr.region e.1 == rank / 17 && UnitAddr.cluster e.1 == rank % 17 && e.2.st == .running then (e.1, { e.2 with st := .stopped }) else e }

/-- The membership that the cores of a job's clusters read (R173, R216): each cluster's rank, the clusters joined, the job. -/
def State.jobMembership (s : State) (j : Nat) : State :=
  let ranks := (s.jobs.getD j {}).joined
  ((List.range ranks.length).zip ranks).foldl (fun (s : State) (x : Nat × Nat) =>
    (List.range 15).foldl (fun (s : State) k =>
      let u := UnitAddr.mk (x.2 / 17) (x.2 % 17) k
      if UnitAddr.isFawn u then
        ((s.setReg .FAB_FC_JOB_RANK u x.1).setReg .FAB_FC_JOB_COUNT u ranks.length).setReg .FAB_FC_JOB_ID u j
      else s) s) s

/-- Clusters leave jobs. -/
def State.freeClusters (s : State) (ranks : List Nat) : State := ranks.foldl State.freeCluster s

/-- The job's leave-units field (NSL_JOB_LIMIT.LEAVE). -/
def State.jobLeaveField (s : State) (j : Nat) : State :=
  s.setReg .NSL_JOB_LIMIT_LEAVE j (s.grantedWhere (fun g => g.cls == 4 && g.work == j))

/-- End a job: it enters a state with a status and releases its clusters and leave (R227). -/
def State.endJob (s : State) (j st status : Nat) : State :=
  let s := s.freeClusters (s.jobs.getD j {}).joined
  let s := { s with
    power := { s.power with granted := s.power.granted.filter (fun g => !(g.cls == 4 && g.work == j))
                            pending := s.power.pending.filter (fun g => !(g.cls == 4 && g.work == j)) }
    jobs := s.jobs.upd j {} (fun b => { b with joined := [], leaving := [], granted := [], stepStart := none }) }
  (((s.setReg .NSL_JOB_STATE_STATE j st).setReg .NSL_JOB_STATE_STATUS j status).setReg .NSL_JOB_STATE_CLUSTERS j 0).jobLeaveField j

/-- A job's leave is revoked: its clusters leave at the next step boundary, at once when no step runs, and the job waits in
SUSPENDED (R218). -/
def State.suspendJob (s : State) (j : Nat) : State :=
  match s.jobs.get? j with
  | none => s
  | some b =>
    let st := s.reg .NSL_JOB_STATE_STATE j
    if st == 1 || st == 2 || st == 3 then
      match b.stepStart with
      | some _ => { s with jobs := s.jobs.put j { b with leaving := b.joined, granted := [], revoked := true } }
      | none =>
        let s := { s.freeClusters b.joined with jobs := s.jobs.put j { b with joined := [], leaving := [], granted := [], revoked := true } }
        (s.setReg .NSL_JOB_STATE_STATE j 3).setReg .NSL_JOB_STATE_CLUSTERS j 0
    else s

/-- Drains suspend every job, which loses its leave (R226). -/
def State.suspendJobs (s : State) : State :=
  let s := { s with power := { s.power with granted := s.power.granted.filter (·.cls != 4)
                                            pending := s.power.pending.filter (·.cls != 4) } }
  (List.range 8).foldl (fun s j => (s.suspendJob j).jobLeaveField j) s

/-! ### Revocation (R417, R424) -/

/-- Revoke one grant: the work stops at its next boundary and its requester asks again (R424). -/
def State.revokeOne (s : State) (g : Leave) : State :=
  let s := { s with power := { s.power with
    granted := removeFirst (· == g) s.power.granted
    pending := s.power.pending ++ [{ g with cyc := s.cycle }] } }
  let s := s.bump .LV_CNT_REVOKED
  let s := s.trace 2 .lv [g.cls, g.req, g.units]
  if g.cls == 4 then (s.suspendJob g.work).jobLeaveField g.work else s

/-- The next grant to revoke: lowest class, highest requester number (R417), among classes allowed. -/
def State.revokeNext (s : State) (allowed : Nat → Bool) : Option Leave :=
  (s.power.granted.filter (fun g => allowed g.cls)).foldl (fun (b : Option Leave) g =>
    match b with
    | none => some g
    | some x => if x.cls < g.cls || (x.cls == g.cls && x.req < g.req) then some g else some x) none

/-- Revoke grants of the allowed classes until a test holds. -/
def State.revokeUntil (allowed : Nat → Bool) (ok : State → Bool) : Nat → State → State
  | 0, s => s
  | n + 1, s =>
    if ok s then s
    else match s.revokeNext allowed with
      | some g => State.revokeUntil allowed ok n (s.revokeOne g)
      | none => s

/-- All that is held fits the budget and the caps. -/
def State.leaveOk (s : State) : Bool :=
  decide (0 ≤ s.freeLeaveIn s.regs) && (List.range 8).all (fun r => decide (s.leaveHeld r ≤ s.capIn s.regs r))

/-- A commit lowered the budget or a cap: revoke until all fits; restores are never revoked (R417, R423). -/
def State.revokeToFit (s : State) : State :=
  State.revokeUntil (fun c => c != 1) State.leaveOk s.power.granted.length s

/-- Level 2 heat revokes every READOUT, REFINE, REPLAY and SCRUB grant (R425). -/
def State.revokeAll (s : State) : State :=
  State.revokeUntil (fun c => c != 1) (fun _ => false) s.power.granted.length s

/-! ### Requests and rounds -/

/-- A grant that has reached its requester. -/
def State.leaveGranted (s : State) (cls req : Nat) : Bool :=
  s.power.granted.any (fun g => g.cls == cls && g.req == req && decide (g.cyc ≤ s.cycle))

/-- Ask for leave. -/
def State.askLeave (s : State) (q : Leave) : State :=
  { s with power := { s.power with pending := s.power.pending ++ [{ q with cyc := s.cycle }] } }

/-- Release a requester's grant: the oldest one of that number (R421). -/
def State.releaseLeave (s : State) (cls req : Nat) : State :=
  { s with power := { s.power with granted := removeFirst (fun g => g.cls == cls && g.req == req) s.power.granted } }

/-- Withdraw a requester's request. -/
def State.withdrawLeave (s : State) (cls req : Nat) : State :=
  { s with power := { s.power with pending := removeFirst (fun g => g.cls == cls && g.req == req) s.power.pending } }

/-- The order of a round: class, then requester number, equals in the order they were made (R422). -/
def leaveOrder (qs : List Leave) : List Leave := sortBy (fun q => q.cls * 65536 + q.req) qs

/-- A requester granted in an earlier round is passed over while another of its class that has not been granted since
waits; RESTORE is never passed over (R422, R423). -/
def State.passedOver (s : State) (q : Leave) : Bool :=
  q.cls != 1 && s.power.passed.contains (q.cls, q.req)
    && s.power.pending.any (fun x => x.cls == q.cls && x.req != q.req && !s.power.passed.contains (x.cls, x.req))

/-- One request of a round is granted (R422). -/
def State.grantLeave (s : State) (q g : Leave) : State :=
  let others := s.power.pending.any (fun x => x.cls == q.cls && x.req != q.req && !s.power.passed.contains (x.cls, x.req))
  let passed := if others then (q.cls, q.req) :: s.power.passed
    else (q.cls, q.req) :: s.power.passed.filter (fun x => x.1 != q.cls)
  let s := { s with power := { s.power with
    pending := removeFirst (· == q) s.power.pending
    granted := s.power.granted ++ [{ g with cyc := s.cycle + 8 }]
    passed := if q.cls == 1 then s.power.passed else passed } }
  let s := s.bump .LV_CNT_GRANTS
  let s := s.trace 2 .lv [q.cls, q.req, q.units]
  if q.cls == 4 then s.jobLeaveField q.work else s

/-- Visit the requests of a round in order; the first that does not fit ends it. At thermal level 2 or above only restores
are granted, the others are passed by (R425). -/
def State.leaveVisit (s : State) : List Leave → State
  | [] => s
  | q :: qs =>
    if decide (2 ≤ s.reg .THM_STATUS_LEVEL) && q.cls != 1 then s.leaveVisit qs
    else if s.passedOver q then s.leaveVisit qs
    else match s.leaveFits q with
      | some g => (s.grantLeave q g).leaveVisit qs
      | none => s.bump .LV_CNT2_BLOCKED

/-- The size of a class's request (Table "Leave classes"). -/
def State.leaveSize (s : State) (cls work : Nat) : Nat :=
  match cls with
  | 1 => 1
  | 2 => s.reg .INT_REPLAY_LEAVE
  | 3 => max 1 (s.reg .LV_SIZE_READOUT)
  | 4 => (s.jobs.getD work {}).leavePerCluster
  | _ => max 1 (s.reg .LV_SIZE_SCRUB)

end Sys2Proof.Machine
end

