-- ==== Sys2Proof/Machine/Defence.lean ====
section
/-! DEFINITION. Shared operations of the silent-error defence: failure signatures (R395, R396), suspects (R385 to R389),
transients (R380), the fault drain's start (R390), replay outcomes (R378, R380, R381). -/
namespace Sys2Proof.Machine
open Sys2Proof

/-! ### CBOR (RFC 8949, core deterministic encoding) -/

/-- A head of a major type with its argument in the shortest form. -/
def cborHead (major v : Nat) : List Nat :=
  if v < 24 then [major * 32 + v]
  else if v < 256 then [major * 32 + 24, v]
  else if v < 65536 then (major * 32 + 25) :: (leBytes 2 v).reverse
  else if v < 2 ^ 32 then (major * 32 + 26) :: (leBytes 4 v).reverse
  else (major * 32 + 27) :: (leBytes 8 v).reverse

/-- An unsigned integer. -/
def cborUint (v : Nat) : List Nat := cborHead 0 v

/-- An integer. -/
def cborInt (v : Int) : List Nat := if v < 0 then cborHead 1 (-v - 1).toNat else cborHead 0 v.toNat

/-- A byte string. -/
def cborBytes (bs : List Nat) : List Nat := cborHead 2 bs.length ++ bs

/-- An integer or null. -/
def cborOpt (v : Option Int) : List Nat := match v with | some x => cborInt x | none => [0xF6]

/-- What a signature says beside the keys that every signature has (Table "Signature keys"). -/
structure SigArgs where
  kind : Nat
  unit : Option Nat := none
  cls : Option Nat := none
  slot : Option Nat := none
  tag : Option Nat := none
  mark : Option Nat := none
  res : Option (Nat × Nat × Option Nat) := none
  words : Option (Int × Option Int) := none
  outcome : Option Nat := none
  image : Option Nat := none
  bank : Option Nat := none
  deriving DecidableEq, Repr

/-- The physical site behind a unit address (R23, key 11): 17 × region + site. -/
def State.siteOf (s : State) (u : Nat) : Nat :=
  let r := UnitAddr.region u
  let c := UnitAddr.cluster u
  match s.ints.spare.get? r with
  | some k => if c == k then 17 * r + 16 else if c == 16 then 17 * r + k else 17 * r + c
  | none => 17 * r + c

/-- The bytes of ID_FP (SEC_IDFPk). -/
def State.idFp (s : State) : List Nat := ((List.range 4).map fun k => leBytes 8 (s.reg .SEC_IDFP_VALUE k)).foldr (· ++ ·) []

/-- The reproducibility key (R400). -/
def State.reproKey (s : State) : Nat := s.reg .CHIP_REPRO_KEY

/-- The map of a signature, keys rising, those that do not apply left out (R396). -/
def State.sigBytes (s : State) (g : SigArgs) (count : Nat) : List Nat :=
  let key := fun k (b : List Nat) => (k, b)
  let opt := fun k (v : Option Nat) => match v with | some x => [key k (cborUint x)] | none => []
  let items : List (Nat × List Nat) :=
    [key 0 (cborUint 0x0100), key 1 (cborUint s.ints.sigSeq), key 2 (cborBytes s.idFp),
     key 3 (cborUint (s.reg .BOOT_FWVER_VERSION)), key 4 (cborUint (s.reg .CHIP_STEP_STEP)),
     key 5 (cborUint s.reproKey), key 6 (cborUint s.tb.tb), key 7 (cborUint (s.reg .TB_EPOCH_COUNT)),
     key 8 (cborUint s.epoch), key 9 (cborUint g.kind)]
    ++ opt 10 g.unit ++ opt 11 (g.unit.bind fun u => if u < 8192 && g.kind != 4 then some (s.siteOf u) else none)
    ++ opt 12 g.cls ++ opt 13 g.slot ++ opt 14 g.tag ++ opt 15 g.mark
    ++ (match g.res with
        | some (m, c, r) => [key 16 (0x83 :: (cborUint m ++ cborUint c ++ cborOpt (r.map (fun x => (x : Int)))))]
        | none => [])
    ++ (match g.words with
        | some (m, r) => [key 17 (0x82 :: (cborInt m ++ cborOpt r))]
        | none => [])
    ++ opt 18 g.outcome
    ++ [key 19 (cborInt (sx 8 (s.reg .THM_STATUS_TJ))), key 20 (cborInt (sx 8 (s.reg .MEM_TEMP_DEG))), key 21 (cborUint count)]
    ++ opt 22 g.image ++ opt 23 g.bank
  cborHead 5 items.length ++ (items.map fun i => cborUint i.1 ++ i.2).foldr (· ++ ·) []

/-- Queue a failure signature for its ring (R395). [DEDUCED, log 42] -/
def State.signature (s : State) (g : SigArgs) : State :=
  let k := (g.kind, g.unit.getD 0xFFFF)
  let count := s.ints.sigCount.getD k 0 + 1
  { s with ints := { s.ints with
      sigs := s.ints.sigs ++ [{ bytes := s.sigBytes g count }]
      sigSeq := s.ints.sigSeq + 1
      sigCount := s.ints.sigCount.put k count } }

/-! ### Drain, suspects and transients -/

/-- Start the fault drain (R390): cause 1 HOST, 2 DECIDE_TIMEOUT, 3 CONTROL_CORE; nothing when one is in force. [DEDUCED, log 29] -/
def State.startDrain (s : State) (cause : Nat) : State :=
  if s.flag .INT_STATE_DRAIN then s
  else
    let s := ((s.setReg .INT_STATE_DRAIN 0 1).setReg .INT_STATE_DRAIN_CAUSE 0 cause).setReg .INT_DRAIN_TB_TB 0 s.tb.tb
    let s := (s.setReg .INT_STATE_REPLACE 0 1).setReg .INT_STATE_DECIDING 0 0
    let s := { s with ints := { s.ints with drainFrom := some s.cycle, drainEnd := none, decideBy := none } }
    let s := s.signature { kind := 4 }
    let s := s.signature { kind := 7 }
    s.suspendJobs

/-! ### Verdict entries (R51) -/

/-- Fields of a verdict entry. -/
structure VEntry where
  result : Nat := 0
  timeout : Bool := false
  incomplete : Bool := false
  skew : Bool := false
  poison : Bool := false
  thermal : Bool := false
  adapted : Bool := false
  late : Bool := false
  cause : Nat := 0
  slot : Nat := 0
  bank : Nat := 0
  tag : Nat := 0
  epoch : Nat := 0
  deriving DecidableEq, Repr

/-- One bit of a number. -/
def b2n (b : Bool) : Nat := if b then 1 else 0

/-- The 64-bit entry (Table "Verdict entry"). -/
def VEntry_bits (e : VEntry) : Nat :=
  e.result % 65536 + b2n e.timeout * 2 ^ 16 + b2n e.incomplete * 2 ^ 17 + b2n e.skew * 2 ^ 18 + b2n e.poison * 2 ^ 19
    + b2n e.thermal * 2 ^ 20 + b2n e.adapted * 2 ^ 21 + b2n e.late * 2 ^ 22 + e.cause % 8 * 2 ^ 23 + e.slot % 16 * 2 ^ 26
    + e.bank % 16 * 2 ^ 30 + e.tag % 16384 * 2 ^ 34 + e.epoch % 65536 * 2 ^ 48

/-- The fields of an entry. -/
def VEntry_of (w : Nat) : VEntry :=
  { result := bits w 0 16, timeout := bitAt w 16, incomplete := bitAt w 17, skew := bitAt w 18, poison := bitAt w 19
    thermal := bitAt w 20, adapted := bitAt w 21, late := bitAt w 22, cause := bits w 23 3, slot := bits w 26 4
    bank := bits w 30 4, tag := bits w 34 14, epoch := bits w 48 16 }

/-- The seven flags of an entry as the bits [22:16] in place: 0 TIMEOUT to 6 LATE_CORRECTED. -/
def entryFlags (w : Nat) : Nat := bits w 16 7

/-! ### Arbitration outcomes (R378, R380, R381) -/

/-- The default verdict that rows C, F and G give: default RESULT, POISON, CAUSE POISON, LATE_CORRECTED; the original's other
flags are kept. -/
def State.defaultCorrected (s : State) (r : Replay) : Nat :=
  let e := VEntry_of r.entry
  VEntry_bits { e with result := s.vrdReg r.epoch .VRD_DEFAULT_RESULT r.slot, poison := true, cause := 4, late := true }

/-- Hand a corrected entry to the slot's verdict unit (R381). -/
def State.issueCorrected (s : State) (r : Replay) (entry : Nat) : State :=
  { s with ints := { s.ints with corrected := s.ints.corrected ++
      [{ slot := r.slot, tag := r.tag, num := r.num, epoch := r.epoch, entry := entry, markTB := r.markTB
         ingressTB := r.ingressTB, ports := r.ports, inj := r.inj, due := s.cycle + 64 }] } }

/-- The image a slot holds, for signatures. -/
def State.imageIdOf (s : State) (slot : Nat) : Nat := s.reg .NSL_IMAGE_ID slot

/-- Row G: no replay result, with its reason (R378). -/
def State.arbitrateNone (s : State) (r : Replay) (reason : Nat) : State :=
  let s := s.bump .INT_CNT_ARB2_NO_REPLAY
  let p := r.posts.head?
  let s := s.signature { kind := 1, unit := p.map (·.unit), cls := p.map (·.cls), slot := some r.slot, tag := some r.tag
                         mark := some r.markTB, res := p.map (fun x => (x.resMain, x.resPred, none))
                         words := p.map (fun x => (sx 32 x.wordMain, none)), outcome := some (16 + reason)
                         image := some (s.imageIdOf r.slot), bank := some r.bank }
  s.issueCorrected r (s.defaultCorrected r)

/-- End the replay on a region's spare site with a reason, giving back its leave (R378, R387). -/
def State.endReplaySite (s : State) (region reason : Nat) : State :=
  match s.ints.active.find? (fun r => r.site == some region) with
  | none => s
  | some r =>
    let s := { s with ints := { s.ints with active := s.ints.active.filter (fun x => !(x.site == some region)) } }
    let s := s.releaseLeave 2 (0x1000 + region)
    let s := s.setReg .INT_REPLAY_ACTIVE 0 (setBits (s.reg .INT_REPLAY_ACTIVE) region 1 0)
    s.arbitrateNone r reason

/-! ### Suspects and transients -/

/-- Start a decision unless a decision or a fault drain is in force (R388). -/
def State.startDecision (s : State) : State :=
  if s.flag .INT_STATE_DECIDING || s.flag .INT_STATE_DRAIN then s
  else
    let s := s.setReg .INT_STATE_DECIDING 0 1
    { s with ints := { s.ints with decideBy := some (s.cycle + max 1 (s.reg .INT_CTRL_DECIDE_MS) * 1200000) } }

/-- An entry's place among the entries there are: those of one cycle stand in ascending unit address (R38, R385). -/
def suspectInsert (tb : Nat) (e : Nat) : List Nat → List Nat
  | [] => [e]
  | x :: xs => if x / 2 ^ 64 == tb && decide (e % 65536 < x % 65536) then e :: x :: xs else x :: suspectInsert tb e xs

/-- Write the suspect entries, at most 16 (R385). -/
def State.suspectTable (s : State) (es : List Nat) : State :=
  let es := es.take 16
  ((((List.range es.length).zip es).foldl (fun (s : State) x => s.setReg .INT_SUSPECT_ENTRY x.1 x.2) s)).setReg
    .INT_STATE_SUSPECTS 0 es.length

/-- Enter a suspect in INT_SUSPECTk and raise its record and signature (R385, Table "Suspect entry"). [DEDUCED, log 62] -/
def State.enterSuspect (s : State) (unit cause : Nat) (block spare : Bool) : State :=
  let n := s.reg .INT_STATE_SUSPECTS
  let e := unit % 65536 + cause * 2 ^ 16 + (if block then 2 ^ 20 else 0) + (if spare then 2 ^ 21 else 0) + s.tb.tb * 2 ^ 64
  let s := s.suspectTable (suspectInsert s.tb.tb e ((List.range n).map fun k => s.reg .INT_SUSPECT_ENTRY k))
  let s := { s with ints := { s.ints with
    suspects := s.ints.suspects ++ [(⟨unit, cause, block, spare⟩ : Suspect)] } }
  let s := s.raise clsAlarm .int 0x0018 unit [unit, cause]
  s.signature { kind := 3, unit := some unit, cls := some cause }

/-- A unit lies at a spare site that no remap has put into service (R387): cluster 16 of a region whose spare is not used. -/
def State.atIdleSpare (s : State) (u : Nat) : Bool := UnitAddr.cluster u == 16 && (s.ints.spare.get? (UnitAddr.region u)).isNone

/-- A unit becomes suspect (R385 to R388); one that is suspect already stays so. A suspect at an unused spare site withdraws
the site, ends the replay it was running with REPLAY_FAULT and starts no decision; any other starts one. [DEDUCED, log 62] -/
def State.suspect (s : State) (unit cause : Nat) (block : Bool := false) : State :=
  if s.ints.suspects.any (fun x => x.unit == unit && x.block == block) then s
  else
    let spare := !block && s.atIdleSpare unit
    let s := s.enterSuspect unit cause block spare
    if spare then
      let r := UnitAddr.region unit
      (s.setReg .INT_STATE_SPARE_BAD 0 (s.reg .INT_STATE_SPARE_BAD ||| 2 ^ r)).endReplaySite r 6
    else s.startDecision

/-- Enter a transient of a unit; at TRANS_LIMIT within TRANS_WINDOW minutes the unit becomes suspect (R380). -/
def State.transient (s : State) (unit : Nat) : State :=
  let t := lastN 64 (s.ints.transients ++ [(unit, s.tb.tb)])
  let s := { s with ints := { s.ints with transients := t } }
  let window := max 1 (s.reg .INT_CTRL_TRANS_WINDOW) * 60000000000 * 65536
  let n := (t.filter fun x => x.1 == unit && decide (s.tb.tb ≤ x.2 + window)).length
  if max 1 (s.reg .INT_CTRL_TRANS_LIMIT) ≤ n then s.suspect unit 3 else s

/-- Row F: the verdict unit's own failure, without a replay (R373, R380). -/
def State.arbitrateVrd (s : State) (r : Replay) : State :=
  let s := s.bump .INT_CNT_ARB2_NONE
  let s := s.signature { kind := 1, cls := some 5, slot := some r.slot, tag := some r.tag, mark := some r.markTB
                         outcome := some 5, image := some (s.imageIdOf r.slot), bank := some r.bank }
  let s := s.issueCorrected r (s.defaultCorrected r)
  s.suspect 0x05 7 true

end Sys2Proof.Machine
end

