-- ==== Sys2Proof/Machine/Fabric.lean ====
section
/-! DEFINITION. The fabric: positions and neighbours (R19, R84), tokens and residues (R69 to R76), registers, stores, delay
lines and stop (R77 to R85), steering (R95 to R97), and the fabric's commands. -/
namespace Sys2Proof.Machine
open Sys2Proof

/-! ### Positions -/

/-- Die column of a position (R19). -/
def posX (u : Nat) : Nat := 20 * (UnitAddr.region u % 4) + 5 * (UnitAddr.cluster u % 4) + UnitAddr.unit u % 5

/-- Die row of a position (R19). -/
def posY (u : Nat) : Nat := 12 * (UnitAddr.region u / 4) + 3 * (UnitAddr.cluster u / 4) + UnitAddr.unit u / 5

/-- The unit at a die position (R19). -/
def unitAt (x y : Nat) : Nat :=
  UnitAddr.mk (4 * (y / 12) + x / 20) (4 * (y % 12 / 3) + x % 20 / 5) (5 * (y % 3) + x % 5)

/-- Where an output leads: 0 north, 1 east, 2 south, 3 west (R84). -/
inductive Dest where
  | reg (u dir : Nat)
  | coll (row : Nat)
  | edge
  deriving DecidableEq, Repr

/-- The place an output of a port feeds; a spare site not in service has no place in the grid. -/
def destOf (u out : Nat) : Dest :=
  if UnitAddr.cluster u ≥ 16 then .edge
  else
    let x := posX u
    let y := posY u
    match out with
    | 0 => if y < 23 then .reg (unitAt x (y + 1)) 2 else .edge
    | 1 => if x < 79 then .reg (unitAt (x + 1) y) 3 else .coll y
    | 2 => if 0 < y then .reg (unitAt x (y - 1)) 0 else .edge
    | _ => if 0 < x then .reg (unitAt (x - 1) y) 1 else .edge

/-- Extra hops on one crossing into or out of a position's cluster, under a use of spare sites: region to replaced cluster
(Table "Spare-site detour"). -/
def siteHops (sp : KMap Nat Nat) (u : Nat) : Nat := match sp.get? (UnitAddr.region u) with
  | some c => if UnitAddr.cluster u == c then 4 - c / 4 else 0
  | none => 0

/-- Extra hops on a link between two positions: none within a cluster (R18). -/
def detourIn (sp : KMap Nat Nat) (u v : Nat) : Nat := if u / 16 == v / 16 then 0 else siteHops sp u + siteHops sp v

/-- The spare sites that serve a token's epoch: events with a mark before the commit that put a site into service complete on
the old site (R393). A broadcast remap already serves the new epoch's tokens. [DEDUCED, log 28] -/
def State.spareFor (s : State) (lo : Nat) : KMap Nat Nat :=
  if lo == s.epoch % 256 then s.ints.spare
  else match s.commit with
    | .broadcast _ _ => match s.ints.remap with
      | some x => s.ints.spare.put x.region x.cluster
      | none => s.ints.spare
    | _ => s.ints.spare.filter fun (e : Nat × Nat) => s.ints.spareAt.get? e.1 != some s.epoch

/-- Extra hops of a token of an epoch on a link. -/
def State.detour (s : State) (lo u v : Nat) : Nat := detourIn (s.spareFor lo) u v

/-! ### Tokens -/

/-- The 32 bytes of a payload. -/
def payloadBytes (p : Payload) : List Nat := leBytes 32 p.toNat

/-- The residue a payload should carry (R74). -/
def payloadResidue (p : Payload) : Nat := residue255 (payloadBytes p)

/-- The token with its residue set, as its producer sends it (R74). -/
def Token_sealed (t : Token) : Token := { t with residue := payloadResidue t.payload }

/-- The 64 header bits (Table "Token header"). -/
def tokenHeader (t : Token) : Nat :=
  t.tag % 2 ^ 14 + t.stream % 2 ^ 12 * 2 ^ 14 + t.block % 256 * 2 ^ 26 + t.fmt % 64 * 2 ^ 34 + t.kind % 8 * 2 ^ 40
    + b2n t.poison * 2 ^ 43 + b2n t.last * 2 ^ 44 + t.epochLo % 256 * 2 ^ 45 + t.residue % 256 * 2 ^ 53

/-- A token's 48 bytes in a retention entry or sample record: header, payload, 8 zero bytes (R213). -/
def tokenBytes (t : Token) : List Nat := leBytes 8 (tokenHeader t) ++ payloadBytes t.payload ++ List.replicate 8 0

/-! ### Errors and posts -/

/-- Capture the first fabric error (R105, R106). [DEDUCED, log 41] -/
def State.firstErr (s : State) (unit tag code : Nat) : State :=
  if s.flag .FAB_FIRST_ERR_VALID then s
  else (((s.setReg .FAB_FIRST_ERR_UNIT 0 unit).setReg .FAB_FIRST_ERR_TAG 0 tag).setReg .FAB_FIRST_ERR_CODE 0 code).setReg
    .FAB_FIRST_ERR_VALID 0 1

/-- Post a flag for a tag to a slot's collector over the 4-cycle sideband (R45): 0 SKEW, 1 POISON, 2 ADAPTED. -/
def State.postFlag (s : State) (slot tag epochLo flag : Nat) : State :=
  { s with fab := { s.fab with flagPosts := s.fab.flagPosts ++
      [{ slot := slot, tag := tag, epochLo := epochLo, flag := flag, cyc := s.cycle + 4 }] } }

/-- Post a failed check over the 4-cycle check sideband (R368); `cyc` is the cycle of the outcome. -/
def State.postCheck (s : State) (p : CheckPost) (cyc : Nat) : State :=
  { s with fab := { s.fab with checkPosts := s.fab.checkPosts ++ [{ p with cyc := cyc + 4 }] } }

/-- A token with no way on: counted and reported (R83). [DEDUCED, log 40] -/
def State.noRoute (s : State) (port : Nat) (t : Token) : State :=
  let s := s.bump .FAB_CNT_DISCARD_NOROUTE
  (s.raise clsWarn .fab 0x0005 (port + 4096) [port + 4096, t.tag, t.stream]).firstErr (port + 4096) t.tag 4

/-- A token of a stale epoch (R92). [DEDUCED, log 41] -/
def State.staleToken (s : State) (unit : Nat) (t : Token) : State :=
  (s.bump .FAB_CNT_DISCARD_STALE).firstErr unit t.tag 6

/-- A token of a refused kind or format (R70, R95, R368). -/
def State.formatDiscard (s : State) (unit : Nat) (t : Token) : State :=
  (s.bump .FAB_CNT_MISC_FORMAT).firstErr unit t.tag 5

/-- The residue check of a store's write (R74, R75): the token as kept. `port` is the receiving switch port. [DEDUCED, log 42] -/
def State.residueCheck (s : State) (unit slot : Nat) (t : Token) : Token × State :=
  if t.residue == payloadResidue t.payload then (t, s)
  else
    let s := s.postFlag slot t.tag t.epochLo 1
    let s := (s.bump .FAB_CNT_CHECK_RESIDUE).firstErr unit t.tag 7
    let s := s.raise clsFault .fab 0x0003 unit
    let s := s.signature { kind := 6, unit := some (unit % 4096 + 4096), cls := some 6, slot := some slot, tag := some t.tag }
    let s := s.suspect (unit % 4096 + 4096) 5
    ({ t with poison := true }, s)

/-! ### Formats (R71, R100) -/

/-- The format is allowed for the token's kind (Table "Token formats"). -/
def formatAllowed (t : Token) : Bool :=
  match t.kind with
  | 1 => [1, 2, 3, 4, 5, 6, 9].contains t.fmt || decide (0x20 ≤ t.fmt)
  | 2 => t.fmt == 8
  | 3 => t.fmt == 0x0C || decide (0x20 ≤ t.fmt)
  | 4 => [1, 2, 3, 8].contains t.fmt
  | 5 => t.fmt == 0x0D
  | _ => false

/-- FAB_UFMT takes a format at an input: 0 takes all, either Q8 half takes both (R100). -/
def ufmtTakes (ufmt input fmt : Nat) : Bool :=
  let f := bits ufmt (6 * input) 6
  let q8 := fun x => x == 1 || x == 2
  f == 0 || f == fmt || (q8 f && q8 fmt)

/-! ### Places: switch registers, stores, delay lines -/

/-- A register's tokens, head first. -/
def State.regQ (s : State) (u dir : Nat) : List Entry := s.fab.swRegs.getD (u, dir) []

/-- A store's tokens, oldest first. -/
def State.storeQ (s : State) (u input : Nat) : List Entry := s.fab.stores.getD (u, input) []

/-- The cycle a place was last full at the start of. -/
def State.wasFull (s : State) (u k : Nat) : Bool := s.fab.fullAt.get? (u, k) == some s.cycle

/-- A switch register asserts stop: it held two tokens at the end of the previous cycle, or a token already moves into it
(R15, R79). [DEDUCED, log 39] -/
def State.regStop (s : State) (u dir : Nat) : Bool :=
  let q := s.regQ u dir
  decide (2 ≤ q.length) || s.wasFull u dir || q.any (fun e => decide (s.cycle < e.cyc))

/-- The register a link feeds when it has `d` extra hops: the first hop's, or the receiver's own (R18). -/
def hopKey (v d : Nat) : Nat := v + 65536 * d

/-- A register stands full in this cycle, whatever moved since its start. -/
def State.regFull (s : State) (u dir : Nat) : Bool :=
  decide (2 ≤ ((s.regQ u dir).filter (fun e => decide (e.cyc ≤ s.cycle))).length) || s.wasFull u dir

/-- The local output register asserts stop to its compute unit (R79). -/
def State.outStop (s : State) (u : Nat) : Bool :=
  decide (2 ≤ ((s.regQ u 4).filter (fun e => decide (e.cyc ≤ s.cycle))).length) || s.wasFull u 4

/-- A match store stands full in this cycle, whatever left it since its start (R94). -/
def State.storeFull (s : State) (u input : Nat) : Bool :=
  decide (16 ≤ ((s.storeQ u input).filter (fun e => decide (e.cyc ≤ s.cycle))).length) || s.wasFull u (8 + input)

/-- A steer store stands full in this cycle (R94, R97). -/
def State.steerFull (s : State) (u : Nat) (ctrl : Bool) : Bool :=
  let cs := if ctrl then (s.fab.steerCtrl.getD u []).map (·.cyc) else (s.fab.steerData.getD u []).map (·.cyc)
  decide (16 ≤ (cs.filter (fun c => decide (c ≤ s.cycle))).length) || s.wasFull u (if ctrl then 17 else 16)

/-- A store asserts stop: full, or written in this cycle already (R79, R94). -/
def State.storeStop (s : State) (u input : Nat) : Bool :=
  let q := s.storeQ u input
  decide (16 ≤ q.length) || s.wasFull u (8 + input) || q.any (fun e => decide (s.cycle < e.cyc))

/-- The delay line asserts stop (R85). -/
def State.delayStop (s : State) (u : Nat) : Bool :=
  decide (64 ≤ (s.fab.delay.getD u []).length) || s.wasFull u 6

/-- A steer store asserts stop (R97). -/
def State.steerStop (s : State) (u : Nat) (ctrl : Bool) : Bool :=
  let cs := if ctrl then (s.fab.steerCtrl.getD u []).map (·.cyc) else (s.fab.steerData.getD u []).map (·.cyc)
  decide (16 ≤ cs.length) || s.wasFull u (if ctrl then 17 else 16) || cs.any (fun c => decide (s.cycle < c))

/-- Note that a place was full at this cycle's start before something left it. [DEDUCED, log 39] -/
def State.markFull (s : State) (u k : Nat) (full : Bool) : State :=
  if full then { s with fab := { s.fab with fullAt := s.fab.fullAt.put (u, k) s.cycle } } else s

/-- Take the head of a register. -/
def State.regPop (s : State) (u dir : Nat) : State :=
  let q := s.regQ u dir
  let s := s.markFull u dir (decide (2 ≤ (q.filter (fun e => decide (e.cyc ≤ s.cycle))).length))
  { s with fab := { s.fab with swRegs := s.fab.swRegs.put (u, dir) (q.drop 1)
                               movedAt := s.fab.movedAt.put (u, dir) s.cycle } }

/-- Put a token into a register, to stand there from a cycle. -/
def State.regPush (s : State) (u dir : Nat) (t : Token) (cyc : Nat) : State :=
  { s with fab := { s.fab with swRegs := s.fab.swRegs.put (u, dir) (s.regQ u dir ++ [{ tok := t, cyc := cyc }]) } }

/-- Remove from a store the tokens of a test, noting that it was full. -/
def State.storeRemove (s : State) (u input : Nat) (p : Entry → Bool) : State :=
  let q := s.storeQ u input
  let s := s.markFull u (8 + input) (decide (16 ≤ q.length))
  { s with fab := { s.fab with stores := s.fab.stores.put (u, input) (q.filter (fun e => !p e)) } }

/-- Write a token into a match store at the next cycle, its residue checked (R74, R77). -/
def State.storeWrite (s : State) (m : RegMap) (u input : Nat) (t : Token) : State :=
  let (t, s) := s.residueCheck u (s.regIn m .FAB_UCFG_SLOT u) t
  { s with fab := { s.fab with stores := s.fab.stores.put (u, input) (s.storeQ u input ++ [{ tok := t, cyc := s.cycle + 1 }]) } }

/-! ### Routing -/

/-- Route entry n of a port in a configuration. -/
structure RouteE where
  out : Nat
  input : Nat
  delay : Nat
  steer : Nat
  slot : Nat
  deriving DecidableEq, Repr

/-- Instance number of an indexed unit-space field. -/
def ix (u count k : Nat) : Nat := u % 4096 * count + k

/-- The lowest-numbered valid entry that matches (R82). -/
def State.routeOf (s : State) (m : RegMap) (u dir stream : Nat) : Option RouteE :=
  ((List.range 8).find? fun n =>
    s.regIn m .FAB_ROUTE_VALID (ix u 8 n) == 1 && s.regIn m .FAB_ROUTE_SRC (ix u 8 n) == dir
      && (s.regIn m .FAB_ROUTE_ANY_STREAM (ix u 8 n) == 1 || s.regIn m .FAB_ROUTE_STREAM (ix u 8 n) == stream)).map fun n =>
    { out := s.regIn m .FAB_ROUTE_OUT (ix u 8 n), input := s.regIn m .FAB_ROUTE_INPUT (ix u 8 n)
      delay := s.regIn m .FAB_ROUTE_DELAY (ix u 8 n)
      steer := s.regIn m .FAB_ROUTE_STEER (ix u 8 n) + 2 * s.regIn m .FAB_ROUTE_STEER_CTRL (ix u 8 n)
      slot := s.regIn m .FAB_ROUTE_SLOT (ix u 8 n) }

/-- The outputs 0 to 4 an output mask names. -/
def outsOf (mask : Nat) : List Nat := (List.range 5).filter (bitAt mask ·)

/-- An output can take a token in the next cycle; one that leads nowhere always can (R81, R84). -/
def State.outFree (s : State) (m : RegMap) (u input lo out : Nat) : Bool :=
  if out == 4 then
    if bitAt (s.regIn m .FAB_UCFG_INPUTS (u % 4096)) input then !s.storeStop u input else true
  else match destOf u out with
    | .reg v d => !s.regStop (hopKey v (s.detour lo u v)) d
    | _ => true

/-- An output delivers a token to a place: not off the grid, not to an input that is not configured (R83, R84). -/
def State.outDelivers (s : State) (m : RegMap) (u input out : Nat) : Bool :=
  if out == 4 then bitAt (s.regIn m .FAB_UCFG_INPUTS (u % 4096)) input
  else match destOf u out with
    | .edge => false
    | _ => true

/-- Send a token on one output (R77, R83, R84); a link into or out of a spare site has its extra hops first (R18). -/
def State.sendOut (s : State) (m : RegMap) (u input : Nat) (t : Token) (out : Nat) : State :=
  if out == 4 then
    if bitAt (s.regIn m .FAB_UCFG_INPUTS (u % 4096)) input then s.storeWrite m u input t else s.noRoute u t
  else match destOf u out with
    | .reg v d => s.regPush (hopKey v (s.detour t.epochLo u v)) d t (s.cycle + 1)
    | .coll row => { s with fab := { s.fab with
        coll := s.fab.coll.put row (s.fab.coll.getD row [] ++
          [{ tok := t, cyc := s.cycle + 1 + siteHops (s.spareFor t.epochLo) u }]) } }
    | .edge => s.noRoute u t

/-- Send a token on every output of a mask in one cycle (R81); it counts once as forwarded when an output delivers it.
[DEDUCED, log 40] -/
def State.sendAll (s : State) (m : RegMap) (u mask input : Nat) (t : Token) : State :=
  if mask == 0 then s.noRoute u t
  else
    let some_ := (outsOf mask).any (s.outDelivers m u input ·)
    let s := (outsOf mask).foldl (fun s o => s.sendOut m u input t o) s
    if some_ then s.bump .FAB_PCNT_FORWARDED u else s

/-- Every output of a mask can take a token of an epoch. -/
def State.allFree (s : State) (m : RegMap) (u mask input lo : Nat) : Bool :=
  (outsOf mask).all (fun o => s.outFree m u input lo o)

/-- The port on whose output a register stands: the neighbour in the register's direction, none for an injection register. -/
def feederOf (v dir : Nat) : Option Nat :=
  match destOf v dir with
  | .reg u _ => some u
  | _ => none

/-- Ports with a stopped output: a register or match store that stands full asserts stop on the link that feeds it (R79). -/
def State.stoppedPorts (s : State) : List Nat :=
  let regs := s.fab.swRegs.keys.filterMap fun (k : Nat × Nat) =>
    if k.2 < 4 && s.regFull k.1 k.2 then feederOf (k.1 % 65536) k.2 else none
  let stores := s.fab.stores.keys.filterMap fun (k : Nat × Nat) => if s.storeFull k.1 k.2 then some k.1 else none
  (regs ++ stores).eraseDups

/-- Each port with a stopped output counts the cycle once (FAB_PCNT.STOPPED, R108). -/
def State.countStopped (s : State) : State := s.stoppedPorts.foldl (fun s u => s.bump .FAB_PCNT_STOPPED u) s

/-! ### Steering (R95 to R97, R463) -/

/-- A steer entry: output mask and input. -/
def State.steerE (s : State) (m : RegMap) (u k : Nat) : Nat × Nat :=
  (s.regIn m .FAB_STEER_OUT (ix u 4 k), s.regIn m .FAB_STEER_INPUT (ix u 4 k))

/-- The slot that a port's steering route entries name, for posts and the expired-tag age (R96). Where they name different
slots the lowest-numbered entry's SLOT is taken: the spec does not say which. [DESIGN CHOICE, log 104] -/
def State.steerSlot (s : State) (m : RegMap) (u : Nat) : Nat :=
  match (List.range 8).find? (fun n => s.regIn m .FAB_ROUTE_VALID (ix u 8 n) == 1
      && (s.regIn m .FAB_ROUTE_STEER (ix u 8 n) == 1 || s.regIn m .FAB_ROUTE_STEER_CTRL (ix u 8 n) == 1)) with
  | some n => s.regIn m .FAB_ROUTE_SLOT (ix u 8 n)
  | none => 0

/-- The data steer store of a port. -/
def State.steerQ (s : State) (u : Nat) : List SteerEntry := s.fab.steerData.getD u []

/-- The control steer store of a port. -/
def State.ctrlQ (s : State) (u : Nat) : List Entry := s.fab.steerCtrl.getD u []

/-- Put a data steer store, noting that it was full. -/
def State.setSteer (s : State) (u : Nat) (q : List SteerEntry) : State :=
  let s := s.markFull u 16 (decide (16 ≤ (s.steerQ u).length))
  { s with fab := { s.fab with steerData := s.fab.steerData.put u q } }

/-- Put a control steer store, noting that it was full. -/
def State.setCtrl (s : State) (u : Nat) (q : List Entry) : State :=
  let s := s.markFull u 17 (decide (16 ≤ (s.ctrlQ u).length))
  { s with fab := { s.fab with steerCtrl := s.fab.steerCtrl.put u q } }

/-- Discard from a port's steer stores the tokens whose EPOCH_LO selects neither configuration held (R92). -/
def State.steerPurge (s : State) (u : Nat) : State :=
  let stale := fun (t : Token) => (s.cfgOf t.epochLo).isNone
  match ((s.steerQ u).map (·.tok) ++ (s.ctrlQ u).map (·.tok)).filter stale with
  | [] => s
  | t :: rest =>
    let s := (s.setSteer u ((s.steerQ u).filter fun e => !stale e.tok)).setCtrl u ((s.ctrlQ u).filter fun e => !stale e.tok)
    (s.bump .FAB_CNT_DISCARD_STALE 0 (rest.length + 1)).firstErr (u + 4096) t.tag 6

/-- Enter a tag in the expired-tag list of 16, over its oldest entry when full (R96). -/
def State.expireTag (s : State) (u tag : Nat) : State :=
  { s with fab := { s.fab with expired := s.fab.expired.put u (lastN 16 (s.fab.expired.getD u [] ++ [(tag, s.cycle)])) } }

/-- A steering release posts SKEW, counts and enters the tag (R96). -/
def State.steerReleased (s : State) (u slot : Nat) (t : Token) : State :=
  let s := s.postFlag slot t.tag t.epochLo 0
  ((s.bump .FAB_CNT_ALIGN_STEER_DEFAULT).firstErr (u + 4096) t.tag 2).expireTag u t.tag

/-- A token is written into a steer store, or, its tag expired, handled under R97. -/
def State.steerWrite (s : State) (m : RegMap) (u : Nat) (ctrl : Bool) (slot : Nat) (t : Token) : State :=
  if ctrl && !(t.kind == 3 && t.fmt == 0x0C) then s.formatDiscard (u + 4096) t
  else
    let (t, s) := s.residueCheck (u + 4096) slot t
    if (s.fab.expired.getD u []).any (·.1 == t.tag) then
      let s := { s with fab := { s.fab with expired := s.fab.expired.put u ((s.fab.expired.getD u []).filter (·.1 != t.tag)) } }
      if ctrl then s
      else { s with fab := { s.fab with steerData := s.fab.steerData.put u (s.steerQ u ++
        [{ tok := t, cyc := s.cycle + 1, go := some (s.regIn m .FAB_STEER_CTRL_DEFAULT u, s.cycle + 2) }]) } }
    else if ctrl then
      { s with fab := { s.fab with steerCtrl := s.fab.steerCtrl.put u (s.ctrlQ u ++ [{ tok := t, cyc := s.cycle + 1 }]) } }
    else { s with fab := { s.fab with steerData := s.fab.steerData.put u (s.steerQ u ++ [{ tok := t, cyc := s.cycle + 1 }]) } }

/-- Whether the destinations of a route (or of a delay-line token) can take the token. -/
def State.routeFree (s : State) (m : RegMap) (u lo : Nat) (r : RouteE) : Bool :=
  if r.steer != 0 then
    s.regIn m .FAB_STEER_CTRL_ENABLE u == 0
      || ((r.steer % 2 == 0 || !s.steerStop u false) && (r.steer / 2 == 0 || !s.steerStop u true))
  else s.allFree m u r.out r.input lo

/-- Deliver a token to a route's destinations. An entry with STEER or STEER_CTRL set delivers to the steer stores only: its OUT
is not used, on which the spec is silent. [DESIGN CHOICE, log 103] -/
def State.routeSend (s : State) (m : RegMap) (u : Nat) (r : RouteE) (t : Token) : State :=
  if r.steer != 0 then
    if s.regIn m .FAB_STEER_CTRL_ENABLE u == 0 then s.noRoute u t
    else
      let s := if r.steer % 2 == 1 then s.steerWrite m u false r.slot t else s
      if r.steer / 2 == 1 then s.steerWrite m u true r.slot t else s
  else s.sendAll m u r.out r.input t

/-! ### Local output registers -/

/-- A checkpoint unit's output token is added to the digest of its event (R408). -/
def State.cpCapture (s : State) (u : Nat) (t : Token) : State :=
  if s.flag .CHIP_LOCK_CTRL_ENABLE then
    (List.range 8).foldl (fun s k =>
      if s.flag .CHIP_LOCK_CP_VALID k && s.reg .CHIP_LOCK_CP_UNIT k == u then
        let slot := s.reg .CHIP_LOCK_CP_SLOT k
        let same := fun (d : CpDigest) => d.cp == k && d.slot == slot && d.tag == t.tag && d.epochLo == t.epochLo
        let add := leBytes 8 (tokenHeader { t with tag := 0, epochLo := 0, residue := 0 }) ++ payloadBytes t.payload
        let ds := if s.lock.digests.any same then s.lock.digests
          else s.lock.digests ++ [({ cp := k, slot := slot, tag := t.tag, epochLo := t.epochLo } : CpDigest)]
        { s with lock := { s.lock with
          digests := updateWhere same (fun d => { d with bytes := d.bytes ++ add, tokens := d.tokens + 1 }) ds } }
      else s) s
  else s

/-- A compute unit writes a token to its local output register, where it is in a cycle (R74, R77, R408). -/
def State.sendLocal (s : State) (u : Nat) (t : Token) (cyc : Nat) : State :=
  let t := Token_sealed t
  (s.regPush u 4 t cyc).cpCapture u t

/-- Discard from a unit's store the tokens whose EPOCH_LO selects neither configuration held (R92). -/
def State.purgeStale (s : State) (u input : Nat) : State :=
  match (s.storeQ u input).filter (fun e => (s.cfgOf e.tok.epochLo).isNone) with
  | [] => s
  | e :: rest =>
    let s := s.storeRemove u input (fun e => (s.cfgOf e.tok.epochLo).isNone)
    (s.bump .FAB_CNT_DISCARD_STALE 0 (rest.length + 1)).firstErr u e.tok.tag 6

/-! ### The fabric's commands -/

/-- The head token of a register is ready to move in this cycle. [DEDUCED, log 39] -/
def State.hopHead (s : State) (u dir : Nat) : Option Token :=
  match s.regQ u dir with
  | e :: _ => if decide (e.cyc ≤ s.cycle) && s.fab.movedAt.get? (u, dir) != some s.cycle then some e.tok else none
  | [] => none

/-- Route a token that stands at the head of a register (R70, R82, R83, R85, R92). [DEDUCED, log 40] -/
def State.hopRoute (s : State) (u dir : Nat) (t : Token) : State :=
  if t.kind ≥ 5 then (s.regPop u dir).formatDiscard (u + 4096) t
  else if t.kind == 0 then s.regPop u dir
  else match s.cfgOf t.epochLo with
    | none => (s.regPop u dir).staleToken (u + 4096) t
    | some m =>
      match s.routeOf m u dir t.stream with
      | none => (s.regPop u dir).noRoute u t
      | some r =>
        if r.delay != 0 then
          if s.delayStop u then s
          else
            let s := s.regPop u dir
            { s with fab := { s.fab with delay := s.fab.delay.put u (s.fab.delay.getD u [] ++
                [{ tok := t, enter := s.cycle + 1, delay := r.delay, out := r.out, input := r.input, slot := r.slot
                   steer := r.steer }]) } }
        else if s.routeFree m u t.epochLo r then (s.regPop u dir).routeSend m u r t
        else s

/-- TOKEN_HOP (R77): the head of a switch register or of the local output register moves, with what happened to it on its
link (R75, R76). [DEDUCED, log 3, 41, 42] -/
def hop (s : State) (u dir : Nat) (upset : Upset) : State :=
  match s.hopHead u dir with
  | none => s
  | some t =>
    match upset with
    | .none => s.hopRoute u dir t
    | .corrected => (s.bump .FAB_CNT_HDR_CORRECTED).hopRoute u dir t
    | .flipped mask => s.hopRoute u dir { t with payload := t.payload ^^^ mask }
    | .uncorrectable =>
      let s := (s.regPop u dir).bump .FAB_CNT_CHECK_HDR_UNCORR
      let s := (s.raise clsFault .fab 0x0004 (u + 4096)).firstErr (u + 4096) t.tag 8
      s.signature { kind := 6, unit := some (u + 4096), cls := some 6 }

/-- The token next to leave a delay line: of those whose DELAY has run, the earliest due, then the first entered. Tokens of
different DELAY leave in the order of their due cycles, since each leaves exactly DELAY cycles after entering (R85). [DEDUCED, log 65] -/
def State.delayNext (s : State) (u : Nat) : Option DelayEntry :=
  minBy (fun (e : DelayEntry) => e.enter + e.delay)
    ((s.fab.delay.getD u []).filter fun e => decide (e.enter + e.delay ≤ s.cycle + 1))

/-- DELAY_LINE_RELEASE (R85): the token next to leave does so DELAY cycles after it entered, unless stop holds it; tokens due in one
cycle leave in it, one a command. -/
def delayRelease (s : State) (u : Nat) : State :=
  match s.delayNext u with
  | none => s
  | some e =>
    let pop := fun (s : State) =>
      let q := s.fab.delay.getD u []
      let s := s.markFull u 6 (decide (64 ≤ q.length))
      { s with fab := { s.fab with delay := s.fab.delay.put u (removeFirst (· == e) q) } }
    match s.cfgOf e.tok.epochLo with
    | none => (pop s).staleToken (u + 4096) e.tok
    | some m =>
      let r : RouteE := { out := e.out, input := e.input, delay := 0, steer := e.steer, slot := e.slot }
      if s.routeFree m u e.tok.epochLo r then (pop s).routeSend m u r e.tok else s

/-- The control token that pairs with a data token of a steering port, both written by a cycle (R95). -/
def State.ctrlFor (s : State) (u : Nat) (d : SteerEntry) (by_ : Nat) : Option Entry :=
  if d.go.isSome || decide (by_ < d.cyc) then none
  else (s.ctrlQ u).find? fun c => c.tok.tag == d.tok.tag && decide (c.cyc ≤ by_)

/-- The configuration a token of a steer store selects; `steerPurge` has dropped the tokens that select none. -/
def State.steerCfg (s : State) (t : Token) : RegMap := (s.cfgOf t.epochLo).getD s.regs

/-- The pairs a steering port holds in this cycle, in the order of their data tokens (R95). -/
def State.steerPairs (s : State) (u : Nat) : List (SteerEntry × Entry) :=
  (s.steerQ u).filterMap fun d => (s.ctrlFor u d s.cycle).map fun c => (d, c)

/-- SELECT of a pair's control token names a valid steer entry (R97). -/
def State.selectOk (s : State) (u : Nat) (x : SteerEntry × Entry) : Bool :=
  (s.steerE (s.steerCfg x.1.tok) u (x.2.tok.payload.toNat % 4)).1 != 0

/-- A pair whose SELECT names an invalid entry: a missing control token released at once; the data token departs on the default
entry in the next cycle (R97). [DEDUCED, log 44] -/
def State.badSelect (s : State) (u : Nat) (x : SteerEntry × Entry) : State :=
  let t := { x.1.tok with poison := x.1.tok.poison || x.2.tok.poison }
  let m := s.steerCfg t
  let e : SteerEntry := { x.1 with tok := t, go := some (s.regIn m .FAB_STEER_CTRL_DEFAULT u, max x.1.cyc x.2.cyc + 1) }
  let s := (s.setCtrl u (removeFirst (· == x.2) (s.ctrlQ u))).setSteer u (updateFirst (· == x.1) (fun _ => e) (s.steerQ u))
  s.steerReleased u (s.steerSlot m u) t

/-- What may depart from a steering port in this cycle: released data tokens whose cycle has come, and pairs complete since an
earlier cycle, each with its steer entry; in the order of writing. -/
def State.steerReady (s : State) (u : Nat) (pairs : Bool) : List (SteerEntry × Option Entry × Nat) :=
  (s.steerQ u).filterMap fun d => match d.go with
    | some g => if decide (g.2 ≤ s.cycle) then some (d, none, g.1) else none
    | none => if pairs && decide (d.cyc < s.cycle)
        then (s.ctrlFor u d (s.cycle - 1)).map fun c => (d, some c, c.tok.payload.toNat % 4) else none

/-- One data token departs from a steering port: the earliest written of those that may, one a cycle, when every output of its
entry accepts it; a pair's control token is consumed with it. An invalid default entry discards it (R95, R97, R463). [DEDUCED, log 44] -/
def State.steerDepart (s : State) (u : Nat) (pairs : Bool) : State :=
  if s.fab.movedAt.get? (u, 5) == some s.cycle then s
  else match minBy (fun (x : SteerEntry × Option Entry × Nat) => x.1.cyc) (s.steerReady u pairs) with
  | none => s
  | some (d, c, k) =>
    let m := s.steerCfg d.tok
    let (mask, input) := s.steerE m u k
    if mask != 0 && !s.allFree m u mask input d.tok.epochLo then s
    else
      let s := s.setSteer u (removeFirst (· == d) (s.steerQ u))
      let s := match c with
        | some c => s.setCtrl u (removeFirst (· == c) (s.ctrlQ u))
        | none => s
      let s := { s with fab := { s.fab with movedAt := s.fab.movedAt.put (u, 5) s.cycle } }
      s.sendAll m u mask input { d.tok with poison := d.tok.poison || c.any (·.tok.poison) }

/-- STEER_PAIR (R95, R97): the pair with the earliest-written data token departs on the entry SELECT names, in the cycle after the
later of the two was written; an invalid entry is a missing control token released at once. [DEDUCED, log 44] -/
def steerPair (s : State) (u : Nat) : State :=
  let s := s.steerPurge u
  let s := ((s.steerPairs u).filter fun x => !s.selectOk u x).foldl (fun (s : State) x => s.badSelect u x) s
  s.steerDepart u true

/-- A steer-store token has waited WAIT cycles (R96). [DEDUCED, log 44] -/
def State.steerDue (s : State) (u : Nat) (t : Token) (cyc : Nat) : Bool :=
  decide (cyc + s.regIn (s.steerCfg t) .FAB_STEER_CTRL_WAIT u ≤ s.cycle)

/-- A data token that has waited out its partner (R96). -/
def State.dataDue (s : State) (u : Nat) (d : SteerEntry) : Bool :=
  d.go.isNone && s.steerDue u d.tok d.cyc && (s.ctrlFor u d s.cycle).isNone

/-- A control token that has waited out its partner (R96). -/
def State.ctrlDue (s : State) (u : Nat) (c : Entry) : Bool :=
  s.steerDue u c.tok c.cyc
    && !(s.steerQ u).any fun d => d.go.isNone && d.tok.tag == c.tok.tag && decide (d.cyc ≤ s.cycle)

/-- STEER_RELEASE (R96): the first token that has waited WAIT cycles without its partner is released; data departs on the
default entry in the next cycle, control is discarded. [DEDUCED, log 44] -/
def steerRelease (s : State) (u : Nat) : State :=
  let s := s.steerPurge u
  match (s.steerQ u).find? (s.dataDue u ·), (s.ctrlQ u).find? (s.ctrlDue u ·) with
  | some d, _ =>
    let m := s.steerCfg d.tok
    let go := some (s.regIn m .FAB_STEER_CTRL_DEFAULT u, d.cyc + s.regIn m .FAB_STEER_CTRL_WAIT u + 1)
    let s := s.setSteer u (updateFirst (· == d) (fun e => { e with go := go }) (s.steerQ u))
    s.steerReleased u (s.steerSlot m u) d.tok
  | none, some c =>
    let s := s.setCtrl u (removeFirst (· == c) (s.ctrlQ u))
    s.steerReleased u (s.steerSlot (s.steerCfg c.tok) u) c.tok
  | none, none => s

/-- The age at which an expired-tag entry leaves: Lnet of the slot the port's steering entries name, or 960 (R96). -/
def State.expiredAge (s : State) (u : Nat) : Nat :=
  let l := s.reg .VRD_LNET_LNET (s.steerSlot s.regs u)
  if l == 0 then 960 else l

/-- EXPIRED_TAG_LEAVE (R96): entries of that age leave the list. -/
def expiredLeave (s : State) (u : Nat) : State :=
  let keep := (s.fab.expired.getD u []).filter fun e => decide (s.cycle < e.2 + s.expiredAge u)
  { s with fab := { s.fab with expired := s.fab.expired.put u keep } }

/-- A store entry whose age has reached the hold limit (R91). -/
def State.entryExpired (s : State) (u : Nat) (e : Entry) : Bool :=
  let lim := s.regIn ((s.cfgOf e.tok.epochLo).getD s.regs) .FAB_UHOLD_LIMIT u
  lim != 0 && decide (e.cyc + lim ≤ s.cycle)

/-- STORE_EXPIRY (R91): entries at the hold limit are discarded and counted. -/
def storeExpiry (s : State) (u input : Nat) : State :=
  let old := (s.storeQ u input).filter (s.entryExpired u ·)
  match old with
  | [] => s
  | e :: _ =>
    let s := s.storeRemove u input (s.entryExpired u ·)
    ((s.bump .FAB_CNT_STORE_EXPIRED 0 old.length).bump .FAB_UCNT_EXPIRED u old.length).firstErr u e.tok.tag 3

/-! ### What a cycle moves by itself -/

/-- A token that leaves the deskew buffer in this cycle enters its row's register in column 0, through the extra hops of a
spare site in service there (R18), or is dropped when the register it would enter asserts stop (R78, R80). [DEDUCED, log 43] -/
def State.inject (s : State) (row : Nat) (t : Token) : State :=
  let u := unitAt 0 row
  let k := hopKey u (siteHops (s.spareFor t.epochLo) u)
  if s.regStop k 3 then (s.bump .FAB_CNT_MISC_INJ_DROP).firstErr (u + 4096) t.tag 0xA
  else s.regPush k 3 t (s.cycle + 1)

/-- The tokens of the injection rows whose cycle this is. [DEDUCED, log 43] -/
def State.injectAll (s : State) : State :=
  s.fab.inj.foldl (fun (s : State) (e : Nat × List Entry) =>
    let due := e.2.filter fun x => decide (x.cyc ≤ s.cycle)
    if due.isEmpty then s
    else
      let s := { s with fab := { s.fab with inj := s.fab.inj.put e.1 (e.2.filter fun x => decide (s.cycle < x.cyc)) } }
      due.foldl (fun (s : State) (x : Entry) => s.inject e.1 x.tok) s) s

/-- A token at an extra hop of a crossing moves on, one hop a cycle, unless the next register stops it (R18, R79). -/
def State.detourHop (s : State) (key dir : Nat) : State :=
  match s.hopHead key dir with
  | none => s
  | some t => if s.regStop (key - 65536) dir then s else (s.regPop key dir).regPush (key - 65536) dir t (s.cycle + 1)

/-- Every extra hop moves its head. -/
def State.detourAll (s : State) : State :=
  (s.fab.swRegs.keys.filter fun (k : Nat × Nat) => decide (65536 ≤ k.1)).foldl (fun (s : State) k => s.detourHop k.1 k.2) s

/-- Data tokens that steering ports have released depart when their cycle has come (R96, R97). -/
def State.steerDepartAll (s : State) : State :=
  s.fab.steerData.keys.foldl (fun (s : State) u => (s.steerPurge u).steerDepart u false) s

/-- TOKEN_HOP (R77). -/
def execTokenHop (port : Nat) (dir : Fin 5) (upset : Upset) (s : State) : Answer := awake s (hop s port dir.val upset)
/-- DELAY_LINE_RELEASE (R85). -/
def execDelayLineRelease (port : Nat) (s : State) : Answer := awake s (delayRelease s port)
/-- STORE_EXPIRY (R91). -/
def execStoreExpiry (unit : Nat) (input : Fin 4) (s : State) : Answer := awake s (storeExpiry s unit input.val)
/-- STEER_PAIR (R95). -/
def execSteerPair (port : Nat) (s : State) : Answer := awake s (steerPair s port)
/-- STEER_RELEASE (R96). -/
def execSteerRelease (port : Nat) (s : State) : Answer := awake s (steerRelease s port)
/-- EXPIRED_TAG_LEAVE (R96). -/
def execExpiredTagLeave (port : Nat) (s : State) : Answer := awake s (expiredLeave s port)
/-- FAB_FIRST_ERR_REARM (R105): writing 1 to VALID re-arms the capture. -/
def execFabFirstErrRearm (s : State) : Answer := awake s (s.setReg .FAB_FIRST_ERR_VALID 0 0)

end Sys2Proof.Machine
end

