-- ==== Sys2Proof/Machine/Sram.lean ====
section
/-! DEFINITION. Reads of cluster SRAM by its consumers (R181, R264), the failure of jobs whose units freeze or that consume
poisoned data (R227), and the order in which the memory controller serves what waits (R270). -/
namespace Sys2Proof.Machine
open Sys2Proof

/-- Bytes a site's golden area mirrors: 256 KiB × 2^SPAN (R262). -/
def State.span (s : State) : Nat := 262144 * 2 ^ s.reg .MEM_GOLD_SPAN_SPAN

/-- The logical cluster whose golden copy serves a site: its unit address (R262). -/
def State.goldenAddr (s : State) (steward off : Nat) : Nat :=
  s.reg .MEM_GOLD_BASE + (17 * UnitAddr.region steward + UnitAddr.cluster steward) * s.span + off

/-- A page's golden bit (R263). -/
def State.goldenBit (s : State) (steward off : Nat) : Bool := s.memS.golden.contains (steward, off / 4096)

/-- A steward's restore list. -/
def State.restoreList (s : State) (steward : Nat) : List RestoreEntry := s.memS.restore.getD steward []

/-- An uncorrectable word in a golden page enters the restore list of 4 (R264); a second error within 2^20 cycles of its
restore makes the cluster suspect (R265). -/
def State.restoreEnter (s : State) (steward w : Nat) : State :=
  let l := s.restoreList steward
  let s := if s.memS.restored.any (fun r => r.1 == w && decide (s.cycle < r.2 + 2 ^ 20))
    then s.suspect steward 6 else s
  if s.goldenBit steward (w % 2 ^ 22) && !(l.any (·.addr == w)) && decide (l.length < 4) then
    { s with memS := { s.memS with restore := s.memS.restore.put steward (l ++ [{ addr := w, detected := s.cycle }]) } }
  else s

/-- A consumer's read of the 32-byte word at an internal address of cluster SRAM: poisoned or not, corrected or not, found
uncorrectable or not (R181, R264). -/
def State.sramWord (s : State) (steward w : Nat) : Bool × Bool × State :=
  if s.ue.contains w then (true, false, s.restoreEnter steward w)
  else if (s.restoreList steward).any (·.addr == w) then (true, false, s)
  else if s.ce.contains w then (false, true, { s with ce := s.ce.filter (· != w) })
  else (false, false, s)

/-- A consumer's read of `n` bytes: how many words read poisoned and how many corrected. -/
def State.sramWords (s : State) (steward a n : Nat) : Nat × Nat × State :=
  (stackWords a n).foldl (fun (acc : Nat × Nat × State) w =>
    let (p, c, s) := acc.2.2.sramWord steward w
    (acc.1 + (if p then 1 else 0), acc.2.1 + (if c then 1 else 0), s)) (0, 0, s)

/-- The jobs that a unit's cluster has joined end in ABORTED with a status (R227). -/
def State.jobHit (s : State) (u status : Nat) : State :=
  let rank := 17 * UnitAddr.region u + UnitAddr.cluster u
  (List.range 8).foldl (fun s j =>
    if (s.jobs.getD j {}).joined.contains rank && [1, 2, 3].contains (s.reg .NSL_JOB_STATE_STATE j)
    then s.endJob j 5 status else s) s

/-! ### Service of the stack (R270) -/

/-- The queued retention entry that is written next: of those whose ingress mark has come, the one with the earliest mark, and of
equal marks that of the lowest slot (R38, R266). One whose mark is this cycle's needs RET_EN. [DEDUCED, log 77] -/
def State.retNext (s : State) : Option RetEntry :=
  minBy (fun e => e.mark * 16 + e.slot) (s.memS.retQueue.filter fun e =>
    decide (e.mark < s.cycle) || (e.mark == s.cycle && s.flag .MEM_CTRL_RET_EN))

/-- A class of Table "Traffic classes" has a request waiting: a restore whose leave is granted, a retention entry whose mark has come,
the acquisition queue, a selected sample, a closed window's record or a closed clip bank, a scrub pass whose leave is granted. The
other accesses wait in no queue of the model. [DEDUCED, log 77] -/
def State.memWaits (s : State) (k : Nat) : Bool :=
  match k with
  | 0 => s.memS.restore.any fun (e : Nat × List RestoreEntry) => e.2.any (·.queued) && s.leaveGranted 1 e.1 && !s.isFrozen (0x10000 + e.1)
  | 1 => s.retNext.isSome
  | 3 => decide (0 < s.memS.acq)
  | 5 => s.samplers.any fun (e : Nat × Sampler) => !e.2.waiting.isEmpty
  | 6 => !s.cond.queue.isEmpty || s.eland.any fun (e : Nat × ElandUnit) => !e.2.closed.isEmpty
  | 8 => s.flag .MEM_CTRL_SCRUB_EN && s.leaveGranted 5 0x4000
  | _ => false

/-- A class has credit left; RESTORE needs none (R270). -/
def State.memCredit (s : State) (k : Nat) : Bool := k == 0 || decide (0 < s.memS.credits.getD k 0)

/-- It is a class's turn (R270): of the waiting classes with credit the highest in priority, or, when none of them has credit, the
highest of those that wait. [DEDUCED, log 77] -/
def State.memTurn (s : State) (k : Nat) : Bool :=
  (List.range 9).all fun j => j == k || !s.memWaits j
    || (if s.memCredit k then decide (k < j) || !s.memCredit j else decide (k < j) && !s.memCredit j)

end Sys2Proof.Machine
end

