-- ==== Sys2Proof/Machine/Operands.lean ====
section
/-! DEFINITION. Operands of the fawn instructions: registers, lanes, immediates, scratch and windows; how an instruction
begins, retires and faults (R163 to R185). -/
namespace Sys2Proof.Machine
open Sys2Proof

/-! ### Registers (R163) -/

/-- A scalar register; s0 reads as zero. [DESIGN CHOICE, log 9] -/
def coreS (c : FawnCore) (i : Fin 32) : Word := if i = 0 then 0 else c.sregs.getD i.val 0

/-- Write a scalar register; a write to s0 is discarded. -/
def coreSetS (c : FawnCore) (i : Fin 32) (v : Word) : FawnCore :=
  if i = 0 then c else { c with sregs := c.sregs.put i.val v }

/-- A vector register. [DESIGN CHOICE, log 9] -/
def coreV (c : FawnCore) (i : Fin 8) : Payload := c.vregs.getD i.val 0

/-- Write a vector register. -/
def coreSetV (c : FawnCore) (i : Fin 8) (v : Payload) : FawnCore := { c with vregs := c.vregs.put i.val v }

/-- A core's state. [DESIGN CHOICE, log 9] -/
def State.core (s : State) (u : Nat) : FawnCore := s.cores.getD u {}

/-- Put a core's state. -/
def State.setCore (s : State) (u : Nat) (c : FawnCore) : State := { s with cores := s.cores.put u c }

/-- The configuration a core's current epoch selects (R34, R180). -/
def State.coreCfg (s : State) (c : FawnCore) : RegMap := (s.cfgOf c.epochLo).getD s.regs

/-! ### Immediates and integers -/

/-- A sign-extended immediate (R169). -/
def immS (imm : BitVec 16) : Word := imm.signExtend 32

/-- A zero-extended immediate. -/
def immZ (imm : BitVec 16) : Word := imm.zeroExtend 32

/-- One or zero. -/
def wBool (b : Bool) : Word := if b then 1 else 0

/-- Signed quotient of R170. -/
def divS (a b : Word) : Word :=
  if b = 0 then 0xFFFFFFFF#32
  else BitVec.ofInt 32 (let q := roundDiv a.toInt b.toInt.natAbs; if b.toInt < 0 then -q else q)

/-- Unsigned quotient of R170. -/
def divU (a b : Word) : Word := if b = 0 then 0xFFFFFFFF#32 else BitVec.ofInt 32 (roundDiv a.toNat b.toNat)

/-- A − Q × B, and A when dividing by zero (R170). -/
def remOf (q a b : Word) : Word := if b = 0 then a else a - q * b

/-- Leading zeros. -/
def clzW (a : Word) : Word := if a = 0 then 32 else BitVec.ofNat 32 (31 - Nat.log2 a.toNat)

/-- Ones. -/
def popcW (a : Word) : Word := BitVec.ofNat 32 ((List.range 32).filter (fun i => a.getLsbD i)).length

/-- Bits [pos + wid − 1 : pos], extended by sign or zero (EXTS, EXTU). -/
def extW (signed : Bool) (a : Word) (pos wid : Nat) : Word :=
  let f := bits a.toNat pos wid
  if signed then BitVec.ofInt 32 (sx wid f) else BitVec.ofNat 32 f

/-! ### Lanes -/

/-- Lane width in bits (Table "Vector lane width"). -/
def laneBits : LaneW → Nat
  | .l32 | .f32 => 32
  | .l16 => 16
  | .l8 => 8

/-- Lanes of a vector, lowest first, as unsigned numbers. -/
def lanes (w : LaneW) (p : Payload) : List Nat :=
  (List.range (256 / laneBits w)).map fun i => bits p.toNat (laneBits w * i) (laneBits w)

/-- The vector of lanes of n bits. -/
def packN (n : Nat) : List Nat → Nat
  | [] => 0
  | x :: xs => x % 2 ^ n + 2 ^ n * packN n xs

/-- The vector of a list of lanes. -/
def packLanes (w : LaneW) (ls : List Nat) : Payload := BitVec.ofNat 256 (packN (laneBits w) ls)

/-- A lane's signed value. -/
def laneI (w : LaneW) (x : Nat) : Int := sx (laneBits w) x

/-- A lane's order: signed for integers, the FMAX order for F32 (R172). -/
def laneKey (w : LaneW) (x : Nat) : Int := if w = .f32 then fKey (BitVec.ofNat 32 x) else laneI w x

/-- A lane-wise operation of two vectors. -/
def laneMap2 (w : LaneW) (f : Nat → Nat → Nat) (a b : Payload) : Payload :=
  packLanes w ((lanes w a).zipWith f (lanes w b))

/-- A lane operation given on signed integers and on binary32. -/
def laneOp (w : LaneW) (fi : Int → Int → Int) (ff : Word → Word → Word) (x y : Nat) : Nat :=
  if w = .f32 then (ff (BitVec.ofNat 32 x) (BitVec.ofNat 32 y)).toNat else ux (laneBits w) (fi (laneI w x) (laneI w y))

/-- Insert into a list in descending order, behind equals (R172: stable). -/
def insDesc (w : LaneW) (x : Nat) : List Nat → List Nat
  | [] => [x]
  | y :: ys => if laneKey w y < laneKey w x then x :: y :: ys else y :: insDesc w x ys

/-- Stable descending sort (VSORT). -/
def sortDesc (w : LaneW) (ls : List Nat) : List Nat := ls.foldl (fun acc x => insDesc w x acc) []

/-- Merge of two lane lists as they stand, VA first on equals (VMERGE). -/
def mergeDesc (w : LaneW) : Nat → List Nat → List Nat → List Nat
  | 0, _, _ => []
  | _ + 1, [], [] => []
  | n + 1, x :: xs, [] => x :: mergeDesc w n xs []
  | n + 1, [], y :: ys => y :: mergeDesc w n [] ys
  | n + 1, x :: xs, y :: ys =>
    if laneKey w x < laneKey w y then y :: mergeDesc w n (x :: xs) ys else x :: mergeDesc w n xs (y :: ys)

/-- Fixed-tree F32 sum (R172). -/
def treeSum (ls : List Nat) : Word :=
  let l := fun k => BitVec.ofNat 32 (nth 0 ls k)
  fAdd (fAdd (fAdd (l 0) (l 1)) (fAdd (l 2) (l 3))) (fAdd (fAdd (l 4) (l 5)) (fAdd (l 6) (l 7)))

/-- VRSUM. -/
def laneSum (w : LaneW) (p : Payload) : Word :=
  if w = .f32 then treeSum (lanes w p) else BitVec.ofInt 32 (((lanes w p).map (laneI w)).foldl (· + ·) 0)

/-- VRMAX: the largest lane, sign-extended; a NaN result is 0x7FC0_0000 (R171, R172). [DEDUCED, log 49] -/
def laneMax (w : LaneW) (p : Payload) : Word :=
  match lanes w p with
  | [] => 0
  | x :: xs =>
    let m := xs.foldl (fun m y => if laneKey w m < laneKey w y then y else m) x
    if w = .f32 then (if fIsNaN (BitVec.ofNat 32 m) then fNaN else BitVec.ofNat 32 m) else BitVec.ofInt 32 (laneI w m)

/-- Unpack q-bit fields part × 8 to part × 8 + 7, sign-extended, less a zero point (VUNPK8, VUNPK4). -/
def unpackQ (q : Nat) (p : Payload) (part : Nat) (z : Word) : Payload :=
  packLanes .l32 ((List.range 8).map fun i => ux 32 (sx q (bits p.toNat (q * (8 * part + i)) q) - z.toInt))

/-! ### Beginning, retiring and faulting -/

/-- A core can begin an instruction: running, not frozen, the previous one over (R166). [DEDUCED, log 48] -/
def State.coreReady (s : State) (u : Nat) : Bool :=
  (s.core u).st == .running && decide ((s.core u).readyAt ≤ s.cycle) && !s.isFrozen (0x10000 + u)

/-- A fault of Table "Fawn-core faults": the core freezes at the boundary with the code, its PC and, for an address fault, the
internal address; a job that the cluster serves fails (R185, R30, R227). -/
def State.fawnFault (s : State) (u code addr : Nat) : State :=
  let c := s.core u
  let s := ((s.setReg .FAB_FC_FAULT_CODE u code).setReg .FAB_FC_FAULT_PC u c.pc).setReg .FAB_FC_FAULT_ADDR u addr
  let s := s.setCore u { c with st := .frozen }
  (s.freeze (0x10000 + u) (addr % 2 ^ 40)).jobHit u 0x5301

/-- The internal address of the program word at a core's PC. -/
def State.fetchAt (s : State) (u : Nat) : Nat := progBase u + 4 * (s.core u).pc

/-- The fetch reads an uncorrectable program word: it is counted, and FETCH_ECC freezes the core (R181, R185). -/
def State.fetchFault (s : State) (u : Nat) : State := (s.bump .FAB_FC_CNT_ECC_UNCORR u).fawnFault u 6 (s.fetchAt u)

/-- Run the instruction of a core that can begin one; another core's state is not touched. An uncorrectable program word stops it
at the fetch. [DEDUCED, log 48] -/
def State.fawn (s : State) (u : Nat) (f : FawnCore → State) : State :=
  if s.coreReady u then (if s.ue.contains (s.fetchAt u) then s.fetchFault u else f (s.core u)) else s

/-- A corrected program word of a completed instruction is counted (R181). -/
def State.fetchFixed (s : State) (u pc : Nat) : State :=
  if s.ce.contains (progBase u + 4 * pc) then s.bump .FAB_FC_CNT_ECC_CORRECTED u else s

/-- Complete an instruction with a following PC: its cycles pass and it is counted (R166). -/
def State.retireAt (s : State) (u : Nat) (c : FawnCore) (cycles pc : Nat) : State :=
  ((s.fetchFixed u c.pc).setCore u { c with pc := pc, readyAt := s.cycle + cycles, waiting := 0 }).bump .FAB_FC_CNT_INSTR_COUNT u

/-- Complete an instruction; the fetch that would follow word 4,095 raises FETCH_RANGE (R169). [DEDUCED, log 49] -/
def State.retire (s : State) (u : Nat) (c : FawnCore) (cycles : Nat) : State :=
  if c.pc < 4095 then s.retireAt u c cycles (c.pc + 1)
  else (s.retireAt u c cycles c.pc).fawnFault u 5 0

/-- Complete a jump to a target, or fault when it lies outside program memory, nothing of the jump performed (R169, R185). -/
def State.jumpTo (s : State) (u : Nat) (c c' : FawnCore) (target : Int) : State :=
  if 0 ≤ target ∧ target ≤ 4095 then s.retireAt u c' 2 target.toNat
  else (s.setCore u c).fawnFault u 5 0

/-- A checked result: when an injected FWN_ALU failure is due, the first failure since the last post point is kept for its
post (R366, R368, R467). -/
def State.fawnCheck (s : State) (u : Nat) (c : FawnCore) (word : Nat) : FawnCore × State :=
  match s.ints.inject.get? (u, 3) with
  | none => (c, s)
  | some 0 => (c, s)
  | some (n + 1) =>
    let s := { s with ints := { s.ints with inject := s.ints.inject.put (u, 3) n } }
    let p : CheckPost := { slot := s.regIn (s.coreCfg c) .FAB_UCFG_SLOT u, unit := u, cls := 3, resMain := word % 3
                           resPred := (word % 3 + 1) % 3, element := 0, wordMain := word % 2 ^ 32
                           tbLo := s.tb.tb % 2 ^ 32, injected := true }
    (match c.failed with
      | none => { c with failed := some p }
      | some _ => c, s)

/-- An instruction with one scalar result that the checker covers. -/
def State.fawnAlu (s : State) (u : Nat) (d : Fin 32) (cycles : Nat) (f : FawnCore → Word) : State :=
  s.fawn u fun c =>
    let v := f c
    let r := s.fawnCheck u c v.toNat
    r.2.retire u (coreSetS r.1 d v) cycles

/-- An instruction with one scalar result that no residue covers. -/
def State.fawnScalar (s : State) (u : Nat) (d : Fin 32) (cycles : Nat) (f : FawnCore → Word) : State :=
  s.fawn u fun c => s.retire u (coreSetS c d (f c)) cycles

/-- A vector instruction; integer lanes, and F32 products and sums, are checked, lane 0 naming the value (R368). -/
def State.fawnVec (s : State) (u : Nat) (vd : Fin 8) (w : LaneW) (checked : Bool) (cycles : Nat) (f : FawnCore → Payload) :
    State :=
  s.fawn u fun c =>
    let v := f c
    let word := ux 32 (sx (laneBits w) (bits v.toNat 0 (laneBits w)))
    let r := if checked then s.fawnCheck u c word else (c, s)
    r.2.retire u (coreSetV r.1 vd v) cycles

/-- An illegal word: the ILLEGAL fault (R168). -/
def State.fawnIllegal (s : State) (u : Nat) : State := s.fawn u fun _ => s.fawnFault u 1 0

/-! ### Scratch (R164, R185) -/

/-- The scratch byte address A + IMM in 32 bits unsigned. IMM is sign-extended, as ADDI's is: the spec gives no extension here.
[DESIGN CHOICE, log 108] -/
def scratchEa (c : FawnCore) (a : Fin 32) (imm : BitVec 16) : Nat := (coreS c a + immS imm).toNat

/-- What a scratch access of `n` bytes raises: SCRATCH_RANGE, ALIGN or nothing (0). -/
def scratchFault (ea n : Nat) : Nat := if 0x10000 ≤ ea then 2 else if ea % n ≠ 0 then 3 else 0

/-- Count an ECC correction of a core (R181). -/
def State.eccFixed (s : State) (u n : Nat) : State := if n = 0 then s else s.bump .FAB_FC_CNT_ECC_CORRECTED u n

/-- Count uncorrectable words of a core and report them; whether PZ is set (R181, R178). -/
def State.eccBad (s : State) (u n : Nat) : State :=
  if n = 0 then s else (s.bump .FAB_FC_CNT_ECC_UNCORR u n).raise clsFault .fab 0x0008 u [u]

/-- The 4-byte words of scratch that `n` bytes from an address touch. -/
def words4 (a n : Nat) : List Nat := (List.range ((a + n - 1) / 4 - a / 4 + 1)).map fun k => (a / 4 + k) * 4

/-- A scratch load: the bytes, whether one read uncorrectable, and the state after the ECC. -/
def State.scratchLoad (s : State) (u ea n : Nat) : List Nat × Bool × State :=
  let a := unitSpace u + ea
  let ws := words4 a n
  let bad := (ws.filter (s.ue.contains ·)).length
  let fix := (ws.filter (fun w => s.ce.contains w && !s.ue.contains w)).length
  (s.rd a n, bad != 0, (s.eccFixed u fix).eccBad u bad)

/-- Load from scratch: `f` takes the core and the bytes. -/
def State.fawnLoad (s : State) (u : Nat) (a : Fin 32) (imm : BitVec 16) (n : Nat) (f : FawnCore → List Nat → FawnCore) : State :=
  s.fawn u fun c =>
    let ea := scratchEa c a imm
    match scratchFault ea n with
    | 0 =>
      let r := s.scratchLoad u ea n
      let c := f c r.1
      let s := r.2.2.retire u { c with pz := c.pz || r.2.1 } 2
      if r.2.1 then s.jobHit u 0x5302 else s
    | k => s.fawnFault u k ((unitSpace u + ea) % 2 ^ 40)

/-- Store bytes to scratch. -/
def State.fawnStore (s : State) (u : Nat) (a : Fin 32) (imm : BitVec 16) (n : Nat) (f : FawnCore → Nat) : State :=
  s.fawn u fun c =>
    let ea := scratchEa c a imm
    match scratchFault ea n with
    | 0 =>
      let at_ := unitSpace u + ea
      let s := s.wr at_ (leBytes n (f c))
      let whole := if n < 4 then [] else words4 at_ n
      let s := { s with ue := s.ue.filter (fun w => !whole.contains w), ce := s.ce.filter (fun w => !whole.contains w) }
      s.retire u c 1
    | k => s.fawnFault u k ((unitSpace u + ea) % 2 ^ 40)

/-! ### Windows (R180, R181) -/

/-- A windowed load of `n` bytes (4 or 32) with a retired value. [DEDUCED, log 49] -/
def State.fawnWindow (s : State) (u : Nat) (a : Fin 32) (win : Fin 8) (off : BitVec 13) (n cycles : Nat)
    (f : FawnCore → List Nat → FawnCore) : State :=
  s.fawn u fun c =>
    let m := s.coreCfg c
    let idx := (coreS c a + off.zeroExtend 32).toNat
    let base := s.regIn m .FAB_FC_WIN_BASE (ix u 8 win.val)
    let limit := 32 * (s.regIn m .FAB_FC_WIN_SIZE_M1 (ix u 8 win.val) + 1)
    let o := base + n * idx
    if s.regIn m .FAB_FC_WIN_VALID (ix u 8 win.val) != 1 || decide (limit < n * idx + n) || decide (sramBytes < o + n) then
      s.fawnFault u 4 ((sramOf u + o) % 2 ^ 40)
    else
      let ad := sramOf u + o
      let r := s.sramWords (UnitAddr.steward u) ad n
      let c := f c (r.2.2.rd ad n)
      let s := ((r.2.2.eccFixed u r.2.1).eccBad u r.1).retire u { c with pz := c.pz || r.1 != 0 } cycles
      if r.1 = 0 then s else s.jobHit u 0x5302

end Sys2Proof.Machine
end

