-- ==== Sys2Proof/Machine/Fawn.lean ====
section
/-! DEFINITION. The fawn instructions (R163 to R188, R368): one meaning each over the shared operations of Operands. A command
changes nothing unless its core can begin an instruction. -/
namespace Sys2Proof.Machine
open Sys2Proof

/-! ### Shared forms -/

/-- A conditional branch (R169). -/
def State.fawnBranch (s : State) (u : Nat) (off : BitVec 16) (cond : FawnCore → Bool) : State :=
  s.fawn u fun c => if cond c then s.jumpTo u c c ((c.pc : Int) + off.toInt) else s.retire u c 2

/-- A vector operation that writes a scalar register. -/
def State.fawnReduce (s : State) (u : Nat) (d : Fin 32) (checked : Bool) (cycles : Nat) (f : FawnCore → Word) : State :=
  if checked then s.fawnAlu u d cycles f else s.fawnScalar u d cycles f

/-- Lane comparison: all ones or zero (VCMPGT). -/
def laneGt (w : LaneW) (x y : Nat) : Nat :=
  let gt := if w = .f32 then fLt (BitVec.ofNat 32 y) (BitVec.ofNat 32 x) else decide (laneI w y < laneI w x)
  if gt then 2 ^ laneBits w - 1 else 0

/-- The tag a receive names: s[A][13:0]. -/
def recvTag (c : FawnCore) (a : Fin 32) : Nat := (coreS c a).toNat % 16384

/-- The oldest token of a test in an input store, written before this cycle. -/
def State.storeFind (s : State) (u input : Nat) (p : Entry → Bool) : Option Entry :=
  (s.storeQ u input).find? fun e => decide (e.cyc < s.cycle) && p e

/-- The receive header word (Table "Receive header word"). -/
def recvHeader (tag epochLo block : Nat) (last poison : Bool) : Word :=
  BitVec.ofNat 32 (tag % 2 ^ 14 + epochLo % 256 * 2 ^ 14 + block % 256 * 2 ^ 22 + b2n last * 2 ^ 30 + b2n poison * 2 ^ 31)

/-- The core after receiving a token (R174, R178). -/
def recvInto (c : FawnCore) (d : Fin 32) (v : Fin 8) (t : Token) (mismatch : Bool) : FawnCore :=
  let c := coreSetV (coreSetS c d (recvHeader t.tag t.epochLo t.block t.last t.poison)) v t.payload
  { c with pz := c.pz || t.poison || mismatch, epochLo := t.epochLo, hdr := t.stream % 4096 + t.fmt % 64 * 4096 + t.kind % 8 * 2 ^ 18
           lastTag := t.tag, lastEpochLo := t.epochLo, lastBlock := t.block, inEvent := true }

/-- A receive completes: the token is consumed, the wait and the receive are counted (R166, R174). -/
def State.recvDone (s : State) (u : Nat) (c c' : FawnCore) (input : Nat) (e : Entry) : State :=
  let s := (s.storeRemove u input (· == e)).bump .FAB_UCNT_FIRES u
  let c' := { c' with entry := s.regIn (s.coreCfg c') .FAB_FC_ENTRY_PC u }
  (s.bump .FAB_FC_CNT_STALL_RECV u (s.cycle - c.readyAt)).retire u c' 2

/-- An instruction that cannot complete yet waits: 1 a receive, 2 a SEND (R166). -/
def State.fawnWaits (s : State) (u kind : Nat) : State := s.setCore u { s.core u with waiting := kind }

/-- The token as a core's input takes it: one whose format the input does not accept comes poisoned, posted and counted (R71,
R100, R104). [DEDUCED, log 47] -/
def State.recvChecked (s : State) (u : Nat) (m : RegMap) (input : Nat) (t : Token) : Token × State :=
  if formatAllowed t && ufmtTakes (s.regIn m .FAB_UFMT_FMT u) input t.fmt then (t, s)
  else ({ t with poison := true },
    ((s.bump .FAB_CNT_MISC_FORMAT).firstErr u t.tag 5).postFlag (s.regIn m .FAB_UCFG_SLOT u) t.tag t.epochLo 1)

/-- A RECV of a running core (R174). -/
def State.recvStep (s : State) (u : Nat) (d a : Fin 32) (v : Fin 8) (inp : Fin 4) : State :=
  let c := s.core u
  let m := s.coreCfg c
  if !bitAt (s.regIn m .FAB_UCFG_INPUTS u) inp.val then s.fawnFault u 1 0
  else
    let s := s.purgeStale u inp.val
    let lim := s.regIn m .FAB_FC_CTRL_RECV_LIMIT u
    let ready := s.regIn m .FAB_UCFG_MODE u == 1
    match s.storeFind u inp.val fun e =>
        (ready || e.tok.tag == recvTag c a) && (lim == 0 || decide (e.cyc ≤ c.readyAt + lim)) with
    | none => s.fawnWaits u 1
    | some e =>
      let mismatch := e.tok.tag != recvTag c a
      let s := if mismatch then (s.bump .FAB_CNT_HDR_READY_MISMATCH).firstErr u e.tok.tag 9 else s
      let (t, s) := s.recvChecked u m inp.val e.tok
      s.recvDone u c (recvInto c d v t mismatch) inp.val e

/-- A RECV whose limit has run out without a token (R176). -/
def State.recvMissing (s : State) (u : Nat) (d a : Fin 32) (v : Fin 8) (inp : Fin 4) : State :=
  let c := s.core u
  let m := s.coreCfg c
  if !bitAt (s.regIn m .FAB_UCFG_INPUTS u) inp.val then s.fawnFault u 1 0
  else
    let s := s.purgeStale u inp.val
    let lim := s.regIn m .FAB_FC_CTRL_RECV_LIMIT u
    let ready := s.regIn m .FAB_UCFG_MODE u == 1
    let found := (s.storeFind u inp.val fun e =>
      (ready || e.tok.tag == recvTag c a) && decide (e.cyc ≤ c.readyAt + lim)).isSome
    if found then s
    else if lim == 0 || decide (s.cycle ≤ c.readyAt + lim) then s.fawnWaits u 1
    else
      let tag := recvTag c a
      let c' := coreSetV (coreSetS c d (recvHeader tag c.epochLo 0 true true)) v 0
      let c' := { c' with pz := true, hdr := 0, lastTag := tag, lastEpochLo := c.epochLo, lastBlock := 0, inEvent := true }
      let s := (s.bump .FAB_FC_CNT_EVT_MISSING u).raise clsWarn .fab 0x0006 u [u, tag]
      (s.bump .FAB_FC_CNT_STALL_RECV u (s.cycle - c.readyAt)).retire u c' 2

/-- A RECVO begins: a kept FWN_ALU failure without a SEND is posted 16 cycles after its first cycle, and the event ends
(R368). -/
def State.recvoBegin (s : State) (u : Nat) : State :=
  let c := s.core u
  let s := match c.failed with
    | some p => s.postCheck { p with tag := c.lastTag, epochLo := c.lastEpochLo, block := c.lastBlock } (c.readyAt + 16)
    | none => s
  s.setCore u { c with failed := none, inEvent := false }

/-- A RECVO of a running core, with its epoch switch (R175, R184). -/
def State.recvoStep (s : State) (u : Nat) (d : Fin 32) (v : Fin 8) (inp : Fin 4) : State :=
  let m := s.coreCfg (s.core u)
  if !bitAt (s.regIn m .FAB_UCFG_INPUTS u) inp.val then s.fawnFault u 1 0
  else
    let s := (s.recvoBegin u).purgeStale u inp.val
    let c := s.core u
    match s.storeFind u inp.val fun _ => true with
    | none => s.fawnWaits u 1
    | some e =>
      let entry := s.regIn ((s.cfgOf e.tok.epochLo).getD s.regs) .FAB_FC_ENTRY_PC u
      if entry != c.entry then
        let c' := { c with epochLo := e.tok.epochLo, pz := false, entry := entry }
        (s.bump .FAB_FC_CNT_STALL_RECV u (s.cycle - c.readyAt)).retireAt u c' 2 entry
      else
        let (t, s) := s.recvChecked u m inp.val e.tok
        s.recvDone u c (recvInto c d v t false) inp.val e

/-- The token that SEND builds (R177). -/
def sendToken (c : FawnCore) (a b : Fin 32) (v : Fin 8) : Token :=
  let x := (coreS c a).toNat
  let y := (coreS c b).toNat
  { tag := bits x 0 14, epochLo := bits x 14 8, stream := bits y 0 12, block := bits y 12 8, fmt := bits y 20 6
    kind := bits y 26 3, last := bitAt y 29, poison := c.pz, payload := coreV c v }

/-- A SEND of a running core (R177, R166, R368). -/
def State.sendStep (s : State) (u : Nat) (a b : Fin 32) (v : Fin 8) : State :=
  let c := s.core u
  let t := sendToken c a b v
  if t.kind == 0 || t.kind ≥ 6 then
    ((s.bump .FAB_FC_CNT_EVT_BAD_SEND u).raise clsWarn .fab 0x0007 u [u]).retire u c 1
  else if s.outStop u then s.fawnWaits u 2
  else
    let s := s.sendLocal u t s.cycle
    let s := match c.failed with
      | some p => s.postCheck { p with tag := t.tag, epochLo := t.epochLo, block := t.block } (s.cycle + 16)
      | none => s
    (s.bump .FAB_FC_CNT_STALL_SEND u (s.cycle - c.readyAt)).retire u { c with failed := none } 1

/-! ### Integer register operations (R169, R170) -/

/-- ADD (R169). [DEDUCED, log 48] -/
def execAdd (u : Nat) (d a b : Fin 32) (s : State) : Answer :=
  awake s (s.fawnAlu u d 1 fun c => coreS c a + coreS c b)

/-- SUB (R169). -/
def execSub (u : Nat) (d a b : Fin 32) (s : State) : Answer :=
  awake s (s.fawnAlu u d 1 fun c => coreS c a - coreS c b)

/-- AND (R169). -/
def execAnd (u : Nat) (d a b : Fin 32) (s : State) : Answer :=
  awake s (s.fawnAlu u d 1 fun c => coreS c a &&& coreS c b)

/-- OR (R169). -/
def execOr (u : Nat) (d a b : Fin 32) (s : State) : Answer :=
  awake s (s.fawnAlu u d 1 fun c => coreS c a ||| coreS c b)

/-- XOR (R169). -/
def execXor (u : Nat) (d a b : Fin 32) (s : State) : Answer :=
  awake s (s.fawnAlu u d 1 fun c => coreS c a ^^^ coreS c b)

/-- SLL (R169): shift by B[4:0]. -/
def execSll (u : Nat) (d a b : Fin 32) (s : State) : Answer :=
  awake s (s.fawnAlu u d 1 fun c => coreS c a <<< ((coreS c b).toNat % 32))

/-- SRL (R169). -/
def execSrl (u : Nat) (d a b : Fin 32) (s : State) : Answer :=
  awake s (s.fawnAlu u d 1 fun c => coreS c a >>> ((coreS c b).toNat % 32))

/-- SRA (R169). -/
def execSra (u : Nat) (d a b : Fin 32) (s : State) : Answer :=
  awake s (s.fawnAlu u d 1 fun c => (coreS c a).sshiftRight ((coreS c b).toNat % 32))

/-- SLT (R169). -/
def execSlt (u : Nat) (d a b : Fin 32) (s : State) : Answer :=
  awake s (s.fawnAlu u d 1 fun c => wBool ((coreS c a).slt (coreS c b)))

/-- SLTU (R169). -/
def execSltu (u : Nat) (d a b : Fin 32) (s : State) : Answer :=
  awake s (s.fawnAlu u d 1 fun c => wBool ((coreS c a).ult (coreS c b)))

/-- MIN (R169), signed. -/
def execMin (u : Nat) (d a b : Fin 32) (s : State) : Answer :=
  awake s (s.fawnAlu u d 1 fun c => if (coreS c b).slt (coreS c a) then coreS c b else coreS c a)

/-- MAX (R169), signed. -/
def execMax (u : Nat) (d a b : Fin 32) (s : State) : Answer :=
  awake s (s.fawnAlu u d 1 fun c => if (coreS c a).slt (coreS c b) then coreS c b else coreS c a)

/-- CLZ (R169): 32 for 0. -/
def execClz (u : Nat) (d a : Fin 32) (s : State) : Answer :=
  awake s (s.fawnAlu u d 1 fun c => clzW (coreS c a))

/-- POPC (R169). -/
def execPopc (u : Nat) (d a : Fin 32) (s : State) : Answer :=
  awake s (s.fawnAlu u d 1 fun c => popcW (coreS c a))

/-- MUL (R169). -/
def execMul (u : Nat) (d a b : Fin 32) (s : State) : Answer :=
  awake s (s.fawnAlu u d 2 fun c => coreS c a * coreS c b)

/-- MULH (R169). -/
def execMulh (u : Nat) (d a b : Fin 32) (s : State) : Answer :=
  awake s (s.fawnAlu u d 2 fun c => BitVec.ofInt 32 ((coreS c a).toInt * (coreS c b).toInt / 2 ^ 32))

/-- MULHU (R169). -/
def execMulhu (u : Nat) (d a b : Fin 32) (s : State) : Answer :=
  awake s (s.fawnAlu u d 2 fun c => BitVec.ofNat 32 ((coreS c a).toNat * (coreS c b).toNat / 2 ^ 32))

/-- DIV (R170). -/
def execDiv (u : Nat) (d a b : Fin 32) (s : State) : Answer :=
  awake s (s.fawnAlu u d 18 fun c => divS (coreS c a) (coreS c b))

/-- DIVU (R170). -/
def execDivu (u : Nat) (d a b : Fin 32) (s : State) : Answer :=
  awake s (s.fawnAlu u d 18 fun c => divU (coreS c a) (coreS c b))

/-- REM (R170). -/
def execRem (u : Nat) (d a b : Fin 32) (s : State) : Answer :=
  awake s (s.fawnAlu u d 18 fun c => remOf (divS (coreS c a) (coreS c b)) (coreS c a) (coreS c b))

/-- REMU (R170). -/
def execRemu (u : Nat) (d a b : Fin 32) (s : State) : Answer :=
  awake s (s.fawnAlu u d 18 fun c => remOf (divU (coreS c a) (coreS c b)) (coreS c a) (coreS c b))

/-! ### Immediate operations (R169) -/

/-- ADDI (R169). -/
def execAddi (u : Nat) (d a : Fin 32) (imm : BitVec 16) (s : State) : Answer :=
  awake s (s.fawnAlu u d 1 fun c => coreS c a + immS imm)

/-- ANDI (R169). -/
def execAndi (u : Nat) (d a : Fin 32) (imm : BitVec 16) (s : State) : Answer :=
  awake s (s.fawnAlu u d 1 fun c => coreS c a &&& immZ imm)

/-- ORI (R169). -/
def execOri (u : Nat) (d a : Fin 32) (imm : BitVec 16) (s : State) : Answer :=
  awake s (s.fawnAlu u d 1 fun c => coreS c a ||| immZ imm)

/-- XORI (R169). -/
def execXori (u : Nat) (d a : Fin 32) (imm : BitVec 16) (s : State) : Answer :=
  awake s (s.fawnAlu u d 1 fun c => coreS c a ^^^ immZ imm)

/-- SLTI (R169). -/
def execSlti (u : Nat) (d a : Fin 32) (imm : BitVec 16) (s : State) : Answer :=
  awake s (s.fawnAlu u d 1 fun c => wBool ((coreS c a).slt (immS imm)))

/-- LUI (R169). -/
def execLui (u : Nat) (d : Fin 32) (imm : BitVec 16) (s : State) : Answer :=
  awake s (s.fawnAlu u d 1 fun _ => immZ imm <<< 16)

/-- SLLI (R169). -/
def execSlli (u : Nat) (d a : Fin 32) (sh : Fin 32) (s : State) : Answer :=
  awake s (s.fawnAlu u d 1 fun c => coreS c a <<< sh.val)

/-- SRLI (R169). -/
def execSrli (u : Nat) (d a : Fin 32) (sh : Fin 32) (s : State) : Answer :=
  awake s (s.fawnAlu u d 1 fun c => coreS c a >>> sh.val)

/-- SRAI (R169). -/
def execSrai (u : Nat) (d a : Fin 32) (sh : Fin 32) (s : State) : Answer :=
  awake s (s.fawnAlu u d 1 fun c => (coreS c a).sshiftRight sh.val)

/-- EXTS (R169): a field past bit 31 makes the word illegal. -/
def execExts (u : Nat) (d a : Fin 32) (pos widM1 : Fin 32) (s : State) : Answer :=
  awake s (if pos.val + widM1.val + 1 ≤ 32 then s.fawnAlu u d 1 fun c => extW true (coreS c a) pos.val (widM1.val + 1)
    else s.fawnIllegal u)

/-- EXTU (R169): a field past bit 31 makes the word illegal. -/
def execExtu (u : Nat) (d a : Fin 32) (pos widM1 : Fin 32) (s : State) : Answer :=
  awake s (if pos.val + widM1.val + 1 ≤ 32 then s.fawnAlu u d 1 fun c => extW false (coreS c a) pos.val (widM1.val + 1)
    else s.fawnIllegal u)

/-! ### Scratch (R164, R169, R185) -/

/-- LDW (R169). -/
def execLdw (u : Nat) (d a : Fin 32) (imm : BitVec 16) (s : State) : Answer :=
  awake s (s.fawnLoad u a imm 4 fun c bs => coreSetS c d (BitVec.ofNat 32 (leNat bs)))

/-- LDB (R169). -/
def execLdb (u : Nat) (d a : Fin 32) (imm : BitVec 16) (s : State) : Answer :=
  awake s (s.fawnLoad u a imm 1 fun c bs => coreSetS c d (BitVec.ofInt 32 (sx 8 (leNat bs))))

/-- LDBU (R169). -/
def execLdbu (u : Nat) (d a : Fin 32) (imm : BitVec 16) (s : State) : Answer :=
  awake s (s.fawnLoad u a imm 1 fun c bs => coreSetS c d (BitVec.ofNat 32 (leNat bs)))

/-- LDV (R169). -/
def execLdv (u : Nat) (vd : Fin 8) (a : Fin 32) (imm : BitVec 16) (s : State) : Answer :=
  awake s (s.fawnLoad u a imm 32 fun c bs => coreSetV c vd (BitVec.ofNat 256 (leNat bs)))

/-- STW (R169). -/
def execStw (u : Nat) (b a : Fin 32) (imm : BitVec 16) (s : State) : Answer :=
  awake s (s.fawnStore u a imm 4 fun c => (coreS c b).toNat)

/-- STB (R169). -/
def execStb (u : Nat) (b a : Fin 32) (imm : BitVec 16) (s : State) : Answer :=
  awake s (s.fawnStore u a imm 1 fun c => (coreS c b).toNat)

/-- STV (R169). -/
def execStv (u : Nat) (vb : Fin 8) (a : Fin 32) (imm : BitVec 16) (s : State) : Answer :=
  awake s (s.fawnStore u a imm 32 fun c => (coreV c vb).toNat)

/-! ### Branches and jumps (R169) -/

/-- BEQ (R169). -/
def execBeq (u : Nat) (a b : Fin 32) (off : BitVec 16) (s : State) : Answer :=
  awake s (s.fawnBranch u off fun c => coreS c a == coreS c b)

/-- BNE (R169). -/
def execBne (u : Nat) (a b : Fin 32) (off : BitVec 16) (s : State) : Answer :=
  awake s (s.fawnBranch u off fun c => coreS c a != coreS c b)

/-- BLT (R169). -/
def execBlt (u : Nat) (a b : Fin 32) (off : BitVec 16) (s : State) : Answer :=
  awake s (s.fawnBranch u off fun c => (coreS c a).slt (coreS c b))

/-- BGE (R169). -/
def execBge (u : Nat) (a b : Fin 32) (off : BitVec 16) (s : State) : Answer :=
  awake s (s.fawnBranch u off fun c => !((coreS c a).slt (coreS c b)))

/-- BLTU (R169). -/
def execBltu (u : Nat) (a b : Fin 32) (off : BitVec 16) (s : State) : Answer :=
  awake s (s.fawnBranch u off fun c => (coreS c a).ult (coreS c b))

/-- BGEU (R169). -/
def execBgeu (u : Nat) (a b : Fin 32) (off : BitVec 16) (s : State) : Answer :=
  awake s (s.fawnBranch u off fun c => !((coreS c a).ult (coreS c b)))

/-- JAL (R169): D := PC + 1; PC := PC + IMM. -/
def execJal (u : Nat) (d : Fin 32) (imm : BitVec 16) (s : State) : Answer :=
  awake s (s.fawn u fun c => s.jumpTo u c (coreSetS c d (BitVec.ofNat 32 (c.pc + 1))) ((c.pc : Int) + imm.toInt))

/-- JALR (R169): D := PC + 1; PC := A + IMM, with IMM sign-extended: the spec gives no extension. [DESIGN CHOICE, log 108] -/
def execJalr (u : Nat) (d a : Fin 32) (imm : BitVec 16) (s : State) : Answer :=
  awake s (s.fawn u fun c => s.jumpTo u c (coreSetS c d (BitVec.ofNat 32 (c.pc + 1))) (((coreS c a + immS imm).toNat : Nat) : Int))

/-- FETCH_ECC (R181): a core that can begin an instruction finds the program word at PC uncorrectable, which it stays until it is
written again. [DESIGN CHOICE, log 98] -/
def execFetchEcc (u : Nat) (s : State) : Answer :=
  awake s (if s.coreReady u then
      (if s.ue.contains (s.fetchAt u) then s else { s with ue := s.fetchAt u :: s.ue }).fetchFault u
    else s)

/-- ILLEGAL (R168): the program word at PC is illegal. -/
def execIllegal (u : Nat) (s : State) : Answer :=
  awake s (s.fawn u fun c =>
    if fawnLegal (s.regIn (s.coreCfg c) .FAB_UCFG_INPUTS u) (s.rdLe (progBase u + 4 * c.pc) 4) then s else s.fawnFault u 1 0)

/-! ### Binary32 (R171) -/

/-- FADD (R171). -/
def execFadd (u : Nat) (d a b : Fin 32) (s : State) : Answer :=
  awake s (s.fawnAlu u d 3 fun c => fAdd (coreS c a) (coreS c b))

/-- FSUB (R171). -/
def execFsub (u : Nat) (d a b : Fin 32) (s : State) : Answer :=
  awake s (s.fawnAlu u d 3 fun c => fSub (coreS c a) (coreS c b))

/-- FMUL (R171). -/
def execFmul (u : Nat) (d a b : Fin 32) (s : State) : Answer :=
  awake s (s.fawnAlu u d 3 fun c => fMul (coreS c a) (coreS c b))

/-- FMA (R171): D + A × B, one rounding. -/
def execFma (u : Nat) (d a b : Fin 32) (s : State) : Answer :=
  awake s (s.fawnAlu u d 4 fun c => fFma (coreS c d) (coreS c a) (coreS c b))

/-- FDIV (R171). -/
def execFdiv (u : Nat) (d a b : Fin 32) (s : State) : Answer :=
  awake s (s.fawnScalar u d 12 fun c => fDiv (coreS c a) (coreS c b))

/-- FSQRT (R171). -/
def execFsqrt (u : Nat) (d a : Fin 32) (s : State) : Answer :=
  awake s (s.fawnScalar u d 12 fun c => fSqrt (coreS c a))

/-- FMIN (R171). -/
def execFmin (u : Nat) (d a b : Fin 32) (s : State) : Answer :=
  awake s (s.fawnScalar u d 1 fun c => fMin (coreS c a) (coreS c b))

/-- FMAX (R171). -/
def execFmax (u : Nat) (d a b : Fin 32) (s : State) : Answer :=
  awake s (s.fawnScalar u d 1 fun c => fMax (coreS c a) (coreS c b))

/-- FLT (R171). -/
def execFlt (u : Nat) (d a b : Fin 32) (s : State) : Answer :=
  awake s (s.fawnScalar u d 1 fun c => wBool (fLt (coreS c a) (coreS c b)))

/-- FEQ (R171). -/
def execFeq (u : Nat) (d a b : Fin 32) (s : State) : Answer :=
  awake s (s.fawnScalar u d 1 fun c => wBool (fEq (coreS c a) (coreS c b)))

/-- FCVTIF (R171). -/
def execFcvtif (u : Nat) (d a : Fin 32) (s : State) : Answer :=
  awake s (s.fawnScalar u d 2 fun c => fOfInt (coreS c a))

/-- FCVTFI (R171). -/
def execFcvtfi (u : Nat) (d a : Fin 32) (s : State) : Answer :=
  awake s (s.fawnScalar u d 2 fun c => fToInt (coreS c a))

/-! ### Receive and send (R174 to R178, R184) -/

/-- RECV (R174): a RECV whose token has not come waits. -/
def execRecv (u : Nat) (d a : Fin 32) (v : Fin 8) (inp : Fin 4) (s : State) : Answer :=
  awake s (s.fawn u fun _ => s.recvStep u d a v inp)

/-- RECV_WAIT_LIMIT (R176). -/
def execRecvWaitLimit (u : Nat) (d a : Fin 32) (v : Fin 8) (inp : Fin 4) (s : State) : Answer :=
  awake s (s.fawn u fun _ => s.recvMissing u d a v inp)

/-- RECVO (R175, R184). -/
def execRecvo (u : Nat) (d : Fin 32) (v : Fin 8) (inp : Fin 4) (s : State) : Answer :=
  awake s (s.fawn u fun _ => s.recvoStep u d v inp)

/-- SEND (R177): a SEND held by stop waits. -/
def execSend (u : Nat) (a b : Fin 32) (v : Fin 8) (s : State) : Answer :=
  awake s (s.fawn u fun _ => s.sendStep u a b v)

/-- RDHDR (R169, R176). -/
def execRdhdr (u : Nat) (d : Fin 32) (s : State) : Answer :=
  awake s (s.fawnScalar u d 1 fun c => BitVec.ofNat 32 c.hdr)

/-! ### Windowed loads (R180) -/

/-- WLW (R180). -/
def execWlw (u : Nat) (d a : Fin 32) (win : Fin 8) (off : BitVec 13) (s : State) : Answer :=
  awake s (s.fawnWindow u a win off 4 6 fun c bs => coreSetS c d (BitVec.ofNat 32 (leNat bs)))

/-- WLV (R180). -/
def execWlv (u : Nat) (vd : Fin 8) (a : Fin 32) (win : Fin 8) (off : BitVec 13) (s : State) : Answer :=
  awake s (s.fawnWindow u a win off 32 7 fun c bs => coreSetV c vd (BitVec.ofNat 256 (leNat bs)))

/-! ### Vectors (R169, R172) -/

/-- VADD (R169). -/
def execVadd (u : Nat) (vd va vb : Fin 8) (w : LaneW) (s : State) : Answer :=
  awake s (s.fawnVec u vd w true (if w = .f32 then 3 else 1) fun c => laneMap2 w (laneOp w (· + ·) fAdd) (coreV c va) (coreV c vb))

/-- VSUB (R169). -/
def execVsub (u : Nat) (vd va vb : Fin 8) (w : LaneW) (s : State) : Answer :=
  awake s (s.fawnVec u vd w true (if w = .f32 then 3 else 1) fun c => laneMap2 w (laneOp w (· - ·) fSub) (coreV c va) (coreV c vb))

/-- VMUL (R169). -/
def execVmul (u : Nat) (vd va vb : Fin 8) (w : LaneW) (s : State) : Answer :=
  awake s (s.fawnVec u vd w true (if w = .f32 then 3 else 2) fun c => laneMap2 w (laneOp w (· * ·) fMul) (coreV c va) (coreV c vb))

/-- VMIN (R169). -/
def execVmin (u : Nat) (vd va vb : Fin 8) (w : LaneW) (s : State) : Answer :=
  awake s (s.fawnVec u vd w (w != .f32) 1 fun c => laneMap2 w (laneOp w min fMin) (coreV c va) (coreV c vb))

/-- VMAX (R169). -/
def execVmax (u : Nat) (vd va vb : Fin 8) (w : LaneW) (s : State) : Answer :=
  awake s (s.fawnVec u vd w (w != .f32) 1 fun c => laneMap2 w (laneOp w max fMax) (coreV c va) (coreV c vb))

/-- VAND (R169); W ignored. -/
def execVand (u : Nat) (vd va vb : Fin 8) (s : State) : Answer :=
  awake s (s.fawnVec u vd .l32 true 1 fun c => coreV c va &&& coreV c vb)

/-- VOR (R169); W ignored. -/
def execVor (u : Nat) (vd va vb : Fin 8) (s : State) : Answer :=
  awake s (s.fawnVec u vd .l32 true 1 fun c => coreV c va ||| coreV c vb)

/-- VXOR (R169); W ignored. -/
def execVxor (u : Nat) (vd va vb : Fin 8) (s : State) : Answer :=
  awake s (s.fawnVec u vd .l32 true 1 fun c => coreV c va ^^^ coreV c vb)

/-- VSHL (R169): W = F32 is illegal. -/
def execVshl (u : Nat) (vd va : Fin 8) (sr : Fin 32) (w : LaneW) (s : State) : Answer :=
  awake s (if w = .f32 then s.fawnIllegal u
    else s.fawnVec u vd w true 1 fun c => packLanes w ((lanes w (coreV c va)).map fun x => x * 2 ^ ((coreS c sr).toNat % laneBits w) % 2 ^ laneBits w))

/-- VSHR (R169): W = F32 is illegal. -/
def execVshr (u : Nat) (vd va : Fin 8) (sr : Fin 32) (w : LaneW) (s : State) : Answer :=
  awake s (if w = .f32 then s.fawnIllegal u
    else s.fawnVec u vd w true 1 fun c => packLanes w ((lanes w (coreV c va)).map fun x => ux (laneBits w) (laneI w x / (2 ^ ((coreS c sr).toNat % laneBits w) : Nat))))

/-- VCMPGT (R169). -/
def execVcmpgt (u : Nat) (vd va vb : Fin 8) (w : LaneW) (s : State) : Answer :=
  awake s (s.fawnVec u vd w (w != .f32) 1 fun c => laneMap2 w (laneGt w) (coreV c va) (coreV c vb))

/-- VSEL (R169). -/
def execVsel (u : Nat) (vd va vb : Fin 8) (s : State) : Answer :=
  awake s (s.fawnVec u vd .l32 true 1 fun c => (coreV c vd &&& coreV c va) ||| (~~~(coreV c vd) &&& coreV c vb))

/-- VSPLAT (R169). -/
def execVsplat (u : Nat) (vd : Fin 8) (sr : Fin 32) (w : LaneW) (s : State) : Answer :=
  awake s (s.fawnVec u vd w (w != .f32) 1 fun c =>
    packLanes w (List.replicate (256 / laneBits w) (coreS c sr).toNat))

/-- VGET (R169). -/
def execVget (u : Nat) (sr : Fin 32) (va : Fin 8) (lane : Fin 8) (w : LaneW) (s : State) : Answer :=
  awake s (s.fawnReduce u sr (w != .f32) 1 fun c => BitVec.ofInt 32 (laneI w (nth 0 (lanes w (coreV c va)) lane.val)))

/-- VPUT (R169). -/
def execVput (u : Nat) (vd : Fin 8) (lane : Fin 8) (sr : Fin 32) (w : LaneW) (s : State) : Answer :=
  awake s (s.fawnVec u vd w (w != .f32) 1 fun c => packLanes w (setNth (lanes w (coreV c vd)) lane.val (coreS c sr).toNat))

/-- VUNPK8 (R169). -/
def execVunpk8 (u : Nat) (vd va : Fin 8) (part : Fin 4) (sr : Fin 32) (s : State) : Answer :=
  awake s (s.fawnVec u vd .l32 true 2 fun c => unpackQ 8 (coreV c va) part.val (coreS c sr))

/-- VUNPK4 (R169). -/
def execVunpk4 (u : Nat) (vd va : Fin 8) (part : Fin 8) (sr : Fin 32) (s : State) : Answer :=
  awake s (s.fawnVec u vd .l32 true 2 fun c => unpackQ 4 (coreV c va) part.val (coreS c sr))

/-- VRMAX (R172). -/
def execVrmax (u : Nat) (sr : Fin 32) (va : Fin 8) (w : LaneW) (s : State) : Answer :=
  awake s (s.fawnReduce u sr (w != .f32) 2 fun c => laneMax w (coreV c va))

/-- VRSUM (R172). -/
def execVrsum (u : Nat) (sr : Fin 32) (va : Fin 8) (w : LaneW) (s : State) : Answer :=
  awake s (s.fawnReduce u sr true (if w = .f32 then 9 else 3) fun c => laneSum w (coreV c va))

/-- VSORT (R172): W is L32 or F32. -/
def execVsort (u : Nat) (vd va : Fin 8) (w : LaneW) (s : State) : Answer :=
  awake s (if w = .l32 || w = .f32 then s.fawnVec u vd w (w != .f32) 5 fun c => packLanes w (sortDesc w (lanes w (coreV c va)))
    else s.fawnIllegal u)

/-- VMERGE (R172): W is L32 or F32. -/
def execVmerge (u : Nat) (vd va vb : Fin 8) (w : LaneW) (s : State) : Answer :=
  awake s (if w = .l32 || w = .f32 then s.fawnVec u vd w (w != .f32) 4 fun c =>
      packLanes w (mergeDesc w 8 (lanes w (coreV c va)) (lanes w (coreV c vb)))
    else s.fawnIllegal u)

/-! ### System (R169, R178, R183) -/

/-- NOP (R169). -/
def execFawnNop (u : Nat) (s : State) : Answer :=
  awake s (s.fawn u fun c => s.retire u c 1)

/-- RDTB (R169): D even, not 0. -/
def execRdtb (u : Nat) (d : Fin 32) (s : State) : Answer :=
  awake s (s.fawn u fun c =>
    if d.val % 2 = 0 ∧ d.val ≠ 0 then
      let tb := BitVec.ofNat 64 s.tb.tb
      s.retire u (coreSetS (coreSetS c d (tb.truncate 32)) (d + 1) ((tb >>> 32).truncate 32)) 2
    else s.fawnFault u 1 0)

/-- RDJOB (R169). -/
def execRdjob (u : Nat) (d : Fin 32) (s : State) : Answer :=
  awake s (s.fawnScalar u d 1 fun _ =>
    BitVec.ofNat 32 (s.reg .FAB_FC_JOB_RANK u + 256 * s.reg .FAB_FC_JOB_COUNT u + 65536 * s.reg .FAB_FC_JOB_ID u))

/-- CADD (R183): it reaches the steward in its second cycle, which applies it there (`caddsApply`). [DEDUCED, log 50] -/
def execCadd (u : Nat) (d a : Fin 32) (n : Fin 16) (s : State) : Answer :=
  awake s (s.fawn u fun c =>
    let x : Cadd := { unit := u, dest := d, counter := ix (UnitAddr.steward u) 16 n.val, add := (coreS c a).toNat, cyc := s.cycle + 1 }
    ({ s with fab := { s.fab with cadds := s.fab.cadds ++ [x] } }).retire u c 4)

/-- A CADD at its steward: its core's register takes the counter's value before the addition (R183). -/
def State.caddApply (s : State) (x : Cadd) : State :=
  let old := s.reg .FAB_SC_CNT_VALUE x.counter
  let s := s.setReg .FAB_SC_CNT_VALUE x.counter (old + x.add)
  if (s.cores.get? x.unit).isSome then s.setCore x.unit (coreSetS (s.core x.unit) x.dest (BitVec.ofNat 32 old)) else s

/-- As a cycle begins, before any management write in it, the stewards apply the CADDs that reach them in it, in ascending order of
the issuing core's unit address (R183, R38). -/
def State.caddsApply (s : State) : State :=
  let due := s.fab.cadds.filter fun x => decide (x.cyc ≤ s.cycle)
  (sortBy (fun (x : Cadd) => x.unit) due).foldl State.caddApply
    { s with fab := { s.fab with cadds := s.fab.cadds.filter fun x => decide (s.cycle < x.cyc) } }

/-- CRD (R169): the counter as the cycle's CADDs left it. [DEDUCED, log 50] -/
def execCrd (u : Nat) (d : Fin 32) (n : Fin 16) (s : State) : Answer :=
  awake s (s.fawnScalar u d 2 fun _ => BitVec.ofNat 32 (s.reg .FAB_SC_CNT_VALUE (ix (UnitAddr.steward u) 16 n.val)))

/-- PZCLR (R178). -/
def execPzclr (u : Nat) (s : State) : Answer :=
  awake s (s.fawn u fun c => s.retire u { c with pz := false } 1)

/-- RDPZ (R169). -/
def execRdpz (u : Nat) (d : Fin 32) (s : State) : Answer :=
  awake s (s.fawnScalar u d 1 fun c => wBool c.pz)

/-- HALT (R169). PC afterwards is the next word's, or 4,095 after word 4,095, where no FETCH_RANGE is raised: the spec is
silent on both. [DESIGN CHOICE, log 108] -/
def execHalt (u : Nat) (s : State) : Answer :=
  awake s (s.fawn u fun c => s.retireAt u { c with st := .halted } 1 (min (c.pc + 1) 4095))

/-- WAIT (R169). -/
def execWait (u : Nat) (imm : BitVec 16) (s : State) : Answer :=
  awake s (s.fawn u fun c => s.retire u c (imm.toNat + 1))

/-- FAB_SC_CNT (R183, R188): a management write, applied after the cycle's CADDs. [DEDUCED, log 50] -/
def execFabScCnt (steward : Nat) (n : Fin 16) (value : Nat) (s : State) : Answer :=
  awake s (s.setReg .FAB_SC_CNT_VALUE (ix steward 16 n.val) value)

end Sys2Proof.Machine
end

