-- ==== Sys2Proof/Machine/FawnRun.lean ====
section
/-! DEFINITION. The fawn instruction words (R168, R169): the instruction a word of program memory encodes, and a core that runs
its own program. -/
namespace Sys2Proof.Machine
open Sys2Proof

/-- The W field (Table "Vector lane width"). -/
def laneWOf (n : Nat) : LaneW :=
  match n with
  | 0 => .l32
  | 1 => .l16
  | 2 => .l8
  | _ => .f32

/-- The instruction that a program word encodes, for a unit (R168, R169); a word that encodes none is ILLEGAL. -/
def fawnDecoded (u w : Nat) : State → Answer :=
  let op := bits w 0 6
  let d := Fin.ofNat 32 (bits w 6 5)
  let a := Fin.ofNat 32 (bits w 11 5)
  let b := Fin.ofNat 32 (bits w 16 5)
  let fn := bits w 21 11
  let imm := BitVec.ofNat 16 (bits w 16 16)
  let vd := Fin.ofNat 8 (bits w 6 3)
  let va := Fin.ofNat 8 (bits w 9 3)
  let vb := Fin.ofNat 8 (bits w 12 3)
  let vs := Fin.ofNat 32 (bits w 16 5)
  let W := laneWOf (bits w 21 2)
  let vop := bits w 23 9
  match op with
  | 0x01 => match fn with
    | 0 => execAdd u d a b | 1 => execSub u d a b | 2 => execAnd u d a b | 3 => execOr u d a b | 4 => execXor u d a b
    | 5 => execSll u d a b | 6 => execSrl u d a b | 7 => execSra u d a b | 8 => execSlt u d a b | 9 => execSltu u d a b
    | 10 => execMin u d a b | 11 => execMax u d a b | 12 => execClz u d a | 13 => execPopc u d a
    | 0x10 => execMul u d a b | 0x11 => execMulh u d a b | 0x12 => execMulhu u d a b
    | 0x14 => execDiv u d a b | 0x15 => execDivu u d a b | 0x16 => execRem u d a b | 0x17 => execRemu u d a b
    | _ => execIllegal u
  | 2 => execAddi u d a imm | 3 => execAndi u d a imm | 4 => execOri u d a imm | 5 => execXori u d a imm | 6 => execSlti u d a imm
  | 7 => execLui u d imm | 8 => execSlli u d a (Fin.ofNat 32 imm.toNat) | 9 => execSrli u d a (Fin.ofNat 32 imm.toNat) | 10 => execSrai u d a (Fin.ofNat 32 imm.toNat)
  | 11 => execExts u d a (Fin.ofNat 32 imm.toNat) (Fin.ofNat 32 (imm.toNat / 32)) | 12 => execExtu u d a (Fin.ofNat 32 imm.toNat) (Fin.ofNat 32 (imm.toNat / 32))
  | 0x10 => execLdw u d a imm | 0x11 => execLdb u d a imm | 0x12 => execLdbu u d a imm | 0x13 => execLdv u vd a imm
  | 0x14 => execStw u d a imm | 0x15 => execStb u d a imm | 0x16 => execStv u vd a imm
  | 0x18 => execBeq u d a imm | 0x19 => execBne u d a imm | 0x1A => execBlt u d a imm | 0x1B => execBge u d a imm
  | 0x1C => execBltu u d a imm | 0x1D => execBgeu u d a imm | 0x1E => execJal u d imm | 0x1F => execJalr u d a imm
  | 0x20 => match fn with
    | 0 => execFadd u d a b | 1 => execFsub u d a b | 2 => execFmul u d a b | 3 => execFma u d a b | 4 => execFdiv u d a b
    | 5 => execFsqrt u d a | 6 => execFmin u d a b | 7 => execFmax u d a b | 8 => execFlt u d a b | 9 => execFeq u d a b
    | 10 => execFcvtif u d a | 11 => execFcvtfi u d a | _ => execIllegal u
  | 0x28 =>
    let v := Fin.ofNat 8 (bits w 21 3)
    let i := Fin.ofNat 4 (bits w 24 2)
    match bits w 26 6 with
    | 0 => execRecv u d a v i | 1 => execRecvo u d v i | 2 => execSend u a b v | 3 => execRdhdr u d | _ => execIllegal u
  | 0x2C => execWlw u d a (Fin.ofNat 8 (bits w 16 3)) (BitVec.ofNat 13 (bits w 19 13))
  | 0x2D => execWlv u vd a (Fin.ofNat 8 (bits w 16 3)) (BitVec.ofNat 13 (bits w 19 13))
  | 0x30 => match vop with
    | 0 => execVadd u vd va vb W | 1 => execVsub u vd va vb W | 2 => execVmul u vd va vb W | 3 => execVmin u vd va vb W
    | 4 => execVmax u vd va vb W | 5 => execVand u vd va vb | 6 => execVor u vd va vb | 7 => execVxor u vd va vb
    | 8 => execVshl u vd va vs W | 9 => execVshr u vd va vs W | 10 => execVcmpgt u vd va vb W | 11 => execVsel u vd va vb
    | 0x10 => execVsplat u vd vs W | 0x11 => execVget u vs va vb W | 0x12 => execVput u vd vb vs W
    | 0x18 => execVunpk8 u vd va (Fin.ofNat 4 vb.val) vs | 0x19 => execVunpk4 u vd va vb vs
    | 0x20 => execVrmax u vs va W | 0x21 => execVrsum u vs va W | 0x28 => execVsort u vd va W | 0x29 => execVmerge u vd va vb W
    | _ => execIllegal u
  | 0x38 => match fn with
    | 0 => execFawnNop u | 2 => execRdtb u d | 3 => execRdjob u d | 4 => execCadd u d a (Fin.ofNat 16 b.val) | 5 => execCrd u d (Fin.ofNat 16 b.val)
    | 6 => execPzclr u | 7 => execRdpz u d | 8 => execHalt u | _ => execIllegal u
  | 0x3A => execWait u imm
  | _ => execIllegal u


/-- The state a command answers; the state before for a command that answers none. -/
def answered (a : Answer) (s : State) : State := match a with | .next t => t | _ => s

/-- A core that can begin an instruction runs the one its program memory holds at PC; a RECV whose limit has run out completes
without a token (R176). -/
def State.coreRun (s : State) (u : Nat) : State :=
  if s.coreReady u then
    let c := s.core u
    let w := s.rdLe (progBase u + 4 * c.pc) 4
    if !fawnLegal (s.regIn (s.coreCfg c) .FAB_UCFG_INPUTS u) w then s.fawnIllegal u
    else
      let t := answered (fawnDecoded u w s) s
      if bits w 0 6 == 0x28 && bits w 26 6 == 0 && (t.core u).waiting == 1 then
        t.recvMissing u (Fin.ofNat 32 (bits w 6 5)) (Fin.ofNat 32 (bits w 11 5)) (Fin.ofNat 8 (bits w 21 3)) (Fin.ofNat 4 (bits w 24 2))
      else t
  else s

end Sys2Proof.Machine
end

