-- ==== Sys2Proof/Machine/Eland.lean ====
section
/-! DEFINITION. Eland engines (R86 to R139, R150, R160, R161, R420): pairing, expansion, exact accumulation, the output stage,
and the engines' commands. -/
namespace Sys2Proof.Machine
open Sys2Proof

/-! ### Configuration -/

/-- An engine's configuration for one epoch (Table "ELD engine registers"). -/
structure EldCfg where
  w4 : Bool
  inQ4 : Bool
  outFmt : Nat
  nbIn : Nat
  nbOut : Nat
  emitHi : Bool
  escEn : Bool
  relu : Bool
  tableEn : Bool
  track : Bool
  xbw : Int
  xba : Int
  xaNom : Int
  tableIn : Int
  dstream : Nat
  sstream : Nat
  cstream : Nat
  tile : Nat
  side : Nat
  chan : Nat
  table : Nat
  inputs : Nat
  ready : Bool
  slot : Nat
  limit : Nat
  ufmt : Nat
  deriving DecidableEq, Repr

/-- Read an engine's configuration. -/
def State.eldCfg (s : State) (m : RegMap) (u : Nat) : EldCfg :=
  let r := fun x => s.regIn m x u
  { w4 := r .ELD_PASS_W4 == 1, inQ4 := r .ELD_PASS_IN_Q4 == 1, outFmt := r .ELD_PASS_OUT_FMT
    nbIn := r .ELD_PASS_NB_IN_M1 + 1, nbOut := r .ELD_PASS_NB_OUT_M1 + 1, emitHi := r .ELD_PASS_EMIT_HI == 1
    escEn := r .ELD_PASS_ESC_EN == 1, relu := r .ELD_PASS_RELU == 1, tableEn := r .ELD_PASS_TABLE_EN == 1
    track := r .ELD_PASS_TRACK == 1, xbw := sx 8 (r .ELD_BASE_XBW), xba := sx 8 (r .ELD_BASE_XBA)
    xaNom := sx 8 (r .ELD_BASE_XA_NOM), tableIn := sx 5 (r .ELD_BASE_TABLE_IN), dstream := r .ELD_OUT_DSTREAM
    sstream := r .ELD_OUT_SSTREAM, cstream := r .ELD_OUT2_CSTREAM, tile := r .ELD_WBASE_TILE, side := r .ELD_SBASE_SIDE
    chan := r .ELD_CBASE_CHAN, table := r .ELD_TBASE_TABLE, inputs := r .FAB_UCFG_INPUTS, ready := r .FAB_UCFG_MODE == 1
    slot := r .FAB_UCFG_SLOT, limit := r .FAB_UHOLD_LIMIT, ufmt := r .FAB_UFMT_FMT }

/-- Output blocks of a pass (R131, R136). -/
def eldBlocks (c : EldCfg) : Nat := if c.w4 then 2 * c.nbOut else c.nbOut

/-- Channels of output block b: 0 and 65 to 127 act as 64 (R139). -/
def State.eldNch (s : State) (m : RegMap) (u b : Nat) : Nat :=
  let n := s.regIn m .ELD_OUTBLK_NCH (ix u 32 b)
  if n == 0 || decide (64 < n) then 64 else n

/-- Lpass: 80 cycles on B0, 84 on A2 (R134). -/
def State.lpass (s : State) : Nat := if s.stepping == 0xA2 then 84 else 80

/-! ### Blocks and pairing (R98 to R101) -/

/-- Whether an input accepts a token's kind and format, as the expander takes them and FAB_UFMT narrows them (R71, R100). -/
def eldAccepts (c : EldCfg) (input : Nat) (t : Token) : Bool :=
  ufmtTakes c.ufmt input t.fmt && match input with
  | 0 => (t.kind == 1 || t.kind == 4) && (if c.inQ4 then t.fmt == 3 else t.fmt == 1 || t.fmt == 2)
  | 1 => (t.kind == 2 || t.kind == 4) && t.fmt == 8
  | 2 => t.kind == 1 && t.fmt == 9
  | _ => formatAllowed t

/-- A data block as the expander takes it. -/
structure EldBlock where
  idx : Nat
  parts : List Entry
  last : Bool
  void : Bool
  /-- A Q8 half whose other half will not come (R99). -/
  lone : Bool
  /-- A format the input does not accept (R100). -/
  bad : Bool
  codes : List Int
  /-- Elements that hold the escape code. -/
  escs : List Nat
  deriving DecidableEq, Repr

/-- The w-bit codes of a payload. -/
def codesOf (w n : Nat) (p : Payload) : List Int := (List.range n).map fun i => sx w (bits p.toNat (w * i) w)

/-- Positions of a code. -/
def codeAt (esc : Int) (cs : List Int) : List Nat :=
  ((List.range cs.length).zip cs).filterMap fun x => if x.2 == esc then some x.1 else none

/-- The oldest data block among the data tokens held, oldest first; none while a Q8 block waits for its other half. -/
def eldBlock (c : EldCfg) (ds : List Entry) : Option EldBlock :=
  match ds with
  | [] => none
  | d :: rest =>
    let t := d.tok
    let one : EldBlock := { idx := t.block, parts := [d], last := t.last, void := t.kind == 4, lone := false, bad := false
                            codes := [], escs := [] }
    if !eldAccepts c 0 t then some { one with bad := true }
    else if t.fmt == 3 then
      let cs := codesOf 4 64 t.payload
      some { one with codes := cs, escs := if t.kind == 4 then [] else codeAt (-8) cs }
    else
      match rest.find? (fun x => x.tok.fmt == 3 - t.fmt && x.tok.block == t.block) with
      | some y =>
        let lo := if t.fmt == 1 then t else y.tok
        let hi := if t.fmt == 1 then y.tok else t
        let void := t.kind == 4 || y.tok.kind == 4
        let cs := codesOf 8 32 lo.payload ++ codesOf 8 32 hi.payload
        some { one with parts := [d, y], last := t.last || y.tok.last, void := void, codes := cs
                        escs := if void then [] else codeAt (-128) cs
                        bad := !eldAccepts c 0 y.tok }
      | none =>
        if rest.any (fun x => x.tok.fmt == 3 - t.fmt && decide (t.block < x.tok.block)) then some { one with lone := true }
        else none

/-- An escape operand: finite, below 32,768 in magnitude and a multiple of 1/64 (R120); in units of 1/64. -/
def escValue (w : Word) : Option Int :=
  match fDec w with
  | .fin neg m e =>
    let k := e + 6
    let n : Int := if 0 ≤ k then (m : Int) * 2 ^ k.toNat else ((m / 2 ^ (-k).toNat : Nat) : Int)
    if (k < 0 ∧ m % 2 ^ (-k).toNat ≠ 0) ∨ 2 ^ 21 ≤ n then none else some (if neg then -n else n)
  | _ => none

/-- Entries of a CORR token: valid, element and VALUE (Table "Correction payload"). -/
def corrEntries (p : Payload) : List (Bool × Nat × Word) :=
  (List.range 4).map fun k =>
    let e := bits p.toNat (64 * k) 64
    (bitAt e 38, bits e 32 6, BitVec.ofNat 32 e)

/-- The valid entries come first, ascending, and name exactly the block's escapes (R73, R100). A CORR token with a valid entry that
names another element, stands out of ascending order or follows an invalid entry is a mismatch: the spec says what a CORR token
holds and not what becomes of one that does not. [DESIGN CHOICE, log 102] -/
def corrMatches (p : Payload) (escs : List Nat) : Bool :=
  let es := corrEntries p
  let valid := es.filter (·.1)
  es.take valid.length == valid && valid.map (·.2.1) == escs

/-- What one firing does with a tag's tokens. -/
inductive EldAct where
  /-- A data block with its scale token and, when it has escapes, its correction token. -/
  | pair (d : EldBlock) (sc : Entry) (co : Option Entry)
  /-- A mismatch: block index, and the tokens it consumes with their inputs; `data` when a data block is among them (R98, R100). -/
  | skew (d : EldBlock) (idx : Nat) (data : Bool) (use : List (Nat × Entry))
  deriving DecidableEq, Repr

/-- A block's tokens as input 0 gives them. -/
def EldBlock_use (d : EldBlock) : List (Nat × Entry) := d.parts.map fun e => (0, e)

/-- The tokens of a store written before this cycle that belong to a tag, or all in ready mode. -/
def State.eldHeld (s : State) (u input : Nat) (tag : Option (Nat × Nat)) : List Entry :=
  (s.storeQ u input).filter fun e => decide (e.cyc < s.cycle)
    && (match tag with | some (t, lo) => e.tok.tag == t && e.tok.epochLo == lo | none => true)

/-- One step of the pairing loop of R98, with R99 and R100. [DEDUCED, log 45] -/
def State.eldAction (s : State) (u : Nat) (c : EldCfg) (scaleDone : Bool) (tag : Option (Nat × Nat)) : Option EldAct :=
  match eldBlock c (s.eldHeld u 0 tag) with
  | none => none
  | some d =>
    if scaleDone then some (.skew d d.idx true (EldBlock_use d))
    else match s.eldHeld u 1 tag with
      | [] => none
      | sc :: _ =>
        if d.idx < sc.tok.block then some (.skew d d.idx true (EldBlock_use d))
        else if sc.tok.block < d.idx then some (.skew d sc.tok.block false [(1, sc)])
        else
          let co := if bitAt c.inputs 2 then (s.eldHeld u 2 tag).head? else none
          match co with
          | some k =>
            if k.tok.block < d.idx then some (.skew d k.tok.block false [(2, k)])
            else if k.tok.block == d.idx then
              if !eldAccepts c 2 k.tok then some (.pair d sc (some k))
              else if d.escs.isEmpty || !corrMatches k.tok.payload d.escs then some (.skew d d.idx true (EldBlock_use d ++ [(1, sc), (2, k)]))
              else some (.pair d sc (some k))
            else if d.escs.isEmpty then some (.pair d sc none)
            else some (.skew d d.idx true (EldBlock_use d ++ [(1, sc)]))
          | none =>
            if d.escs.isEmpty then some (.pair d sc none)
            else if bitAt c.inputs 2 then none
            else some (.skew d d.idx true (EldBlock_use d ++ [(1, sc)]))

/-! ### Weights (R113 to R122, R136, R137) -/

/-- The weight codes of a row of a tile (Table "Pass data layout"). -/
def rowCodes (w4 : Bool) (tile : List Nat) (r : Nat) : List Int :=
  if w4 then
    ((bytesAt tile (32 * r) 32).map fun b => [sx 4 (b % 16), sx 4 (b / 16)]).foldr (· ++ ·) []
  else (bytesAt tile (64 * r) 64).map (sx 8 ·)

/-- A weight in units of 2^−6 base units (R116 to R121). [DESIGN CHOICE, log 13] -/
def weightOf (c : EldCfg) (desc : Nat) (list : List Nat) (r e : Nat) (code : Int) : Int :=
  let k := sx 8 (bits desc 0 8) - c.xbw
  if k < 0 ∨ 22 < k then Config.strayWeight desc r e
  else if code == (if c.w4 then -8 else -128) then
    match list.find? (fun x => bits x 32 7 == r && bits x 39 6 == e) with
    | some x => match escValue (BitVec.ofNat 32 x) with
      | some v => v * 2 ^ k.toNat
      | none => Config.strayWeight desc r e
    | none => Config.strayWeight desc r e
  else (code - sx 8 (bits desc 8 8)) * 2 ^ (k.toNat + 6)

/-- Sum of products of two lists. -/
def dot : List Int → List Int → Int
  | x :: xs, y :: ys => x * y + dot xs ys
  | _, _ => 0

/-- Split bytes into little-endian words of n bytes. -/
def wordsOf (n : Nat) (bs : List Nat) : List Nat := (List.range (bs.length / n)).map fun k => leAt bs (n * k) n

/-- A consumer's read of pass data: the bytes, whether a word was poisoned, and the state (R126, R264). -/
def State.passRead (s : State) (u off n : Nat) : List Nat × Bool × State :=
  let a := sramOf u + off
  let r := s.sramWords (UnitAddr.steward u) a n
  (r.2.2.rd a n, r.1 != 0, r.2.2)

/-- Offset of the first side-list entry. -/
def sideEntries (c : EldCfg) : Nat := c.side + 8 * ((c.nbIn * c.nbOut + 1) / 2)

/-- One tile's contribution to its channels: S(j) of the firing for the tile's rows, in order (R123). The descriptors of all its
rows are read, those of unused channels too, so an uncorrectable one of them poisons the pass: the spec does not say which
descriptor words a firing reads. [DESIGN CHOICE, log 106] -/
def State.tileSums (s : State) (u : Nat) (c : EldCfg) (acts : List Int) (ib t : Nat) : List Int × Bool × State :=
  let n := ib * c.nbOut + t
  let rows := if c.w4 then 128 else 64
  let (tile, b1, s) := s.passRead u (c.tile + 4096 * n) 4096
  let (dir, b2, s) := s.passRead u (c.side + 4 * n) 4
  let first := leNat dir % 2 ^ 16
  let cnt := bits (leNat dir) 16 11
  let (raw, b3, s) := if cnt = 0 then ([], false, s) else s.passRead u (sideEntries c + 8 * first) (8 * cnt)
  let (desc, b4, s) := s.passRead u (c.chan + 4 * rows * t) (4 * rows)
  let list := wordsOf 8 raw
  let sums := (List.range rows).map fun r =>
    let codes := rowCodes c.w4 tile r
    dot acts (((List.range 64).zip codes).map fun x => weightOf c (leAt desc (4 * r) 4) list r x.1 x.2)
  (sums, b1 || b2 || b3 || b4, s)

/-- All tiles of an input block, in channel order. -/
def State.blockSums (s : State) (u : Nat) (c : EldCfg) (acts : List Int) (ib : Nat) : Nat → List Int × Bool × State
  | 0 => ([], false, s)
  | n + 1 =>
    let (xs, p, s) := s.blockSums u c acts ib n
    let (ys, q, s) := s.tileSums u c acts ib n
    (xs ++ ys, p || q, s)

/-! ### Expansion (R115 to R122, R150) -/

/-- The activations of a block in units of 2^−6 base units, and its exponent; none when the block expands poisoned for a
scale, zero point or correction outside its range. -/
def expandBlock (c : EldCfg) (d : EldBlock) (scale : Payload) (co : Option Payload) : Option (List Int × Int) :=
  let p := scale.toNat
  let x := sx 8 (bits p 0 8)
  let zp := if c.inQ4 then sx 4 (bits p 8 4) else sx 8 (bits p 8 8)
  let zpOk := if c.inQ4 then bits p 12 4 == 0 && decide (zp ≠ -8) else decide (zp ≠ -128)
  let k := x - c.xba
  let vals : List (Nat × Option Int) := match co with
    | some q => (corrEntries q).filterMap fun (e : Bool × Nat × Word) => if e.1 then some (e.2.1, escValue e.2.2) else none
    | none => []
  if x < -32 ∨ 31 < x ∨ k < 0 ∨ 22 < k ∨ !zpOk ∨ vals.any (·.2.isNone) then none
  else
    some (((List.range d.codes.length).zip d.codes).map fun (e : Nat × Int) =>
      if d.escs.contains e.1 then
        ((vals.find? (fun (v : Nat × Option Int) => v.1 == e.1)).bind (fun (v : Nat × Option Int) => v.2)).getD 0 * 2 ^ k.toNat
      else (e.2 - zp) * 2 ^ (k.toNat + 6), x)

/-! ### Firing -/

/-- An engine's state. -/
def State.eng (s : State) (u : Nat) : ElandUnit := s.eland.getD u {}

/-- Put an engine's state. -/
def State.setEng (s : State) (u : Nat) (e : ElandUnit) : State := { s with eland := s.eland.put u e }

/-- Accumulator sets held: those in use and those the output stage has not read (R112, Table "Eland pipeline"). -/
def State.setsUsed (s : State) (u : Nat) : Nat :=
  (s.eng u).sets.length + ((s.eng u).done.filter fun p => decide (s.cycle ≤ p.lastFire + s.lpass - 36)).length

/-- Count the present cycle in LV_CNT.OVER_BUSY for a slot and region whose busy engines exceed MAX_BUSY (R420). -/
def State.overBusy (s : State) (slot region : Nat) : State :=
  match (s.nets.getD slot {}).live with
  | none => s
  | some n =>
    let max := ((n.img.leaves.filter (·.region == region)).map (·.maxBusy)).foldl (· + ·) 0
    let busy := (s.eland.filter fun e => UnitAddr.region e.1 == region && s.reg .FAB_UCFG_SLOT e.1 == slot
      && s.flag .FAB_UCFG_HELD e.1 && decide (s.cycle < e.2.nextFire)).length
    if busy ≤ max || s.power.overBusyAt.get? (slot, region) == some s.cycle then s
    else
      let s := { s with power := { s.power with overBusyAt := s.power.overBusyAt.put (slot, region) s.cycle } }
      let s := s.bump .LV_CNT2_OVER_BUSY
      let sec := s.cycle / 1200000000
      if s.power.overBusySec == some sec then s
      else { s with power := { s.power with overBusySec := some sec } }.raise clsWarn .lv 0x001A 0xFFFF [slot, region]

/-- A pairing mismatch is posted and counted (R98 to R100). -/
def State.eldSkew (s : State) (u : Nat) (c : EldCfg) (tag lo : Nat) : State :=
  ((s.postFlag c.slot tag lo 0).bump .FAB_CNT_ALIGN_SKEW).firstErr u tag 1

/-- Remove consumed tokens from the stores. -/
def State.eldConsume (s : State) (u : Nat) (use : List (Nat × Entry)) : State :=
  use.foldl (fun s x => s.storeRemove u x.1 (· == x.2)) s

/-- Each consumed token whose format its input does not accept is counted and posts POISON (R71, R100). -/
def State.eldFormats (s : State) (u : Nat) (c : EldCfg) (tag lo : Nat) (use : List (Nat × Entry)) : State :=
  (use.filter fun x => !eldAccepts c x.1 x.2.tok).foldl (fun (s : State) x =>
    ((s.bump .FAB_CNT_MISC_FORMAT).firstErr u x.2.tok.tag 5).postFlag c.slot tag lo 1) s

/-- A scale token taken from its lane: the event's WINDOW from the first SCALE_BLK of them (R131), and ADAPTED when it is
consumed with a data block (R102). -/
def State.eldScale (s : State) (c : EldCfg) (a : AccSet) (data : Bool) (t : Token) : AccSet × State :=
  let a := if t.last then { a with scaleDone := true } else a
  if t.kind == 2 && t.fmt == 8 then
    let p := t.payload.toNat
    let a := { a with evWindow := a.evWindow.or (some (bits p 16 16)) }
    if data && bitAt p 32 then ({ a with adapted := true }, s.postFlag c.slot a.tag a.epochLo 2) else (a, s)
  else (a, s)

/-- The pair is expanded into its accumulators, or as a poisoned or zero block (R98 to R101, R115 to R123, R126). Two points the spec
leaves open: a block whose index is NB_IN or higher, which has no weight tile, adds nothing to S(j); and a block whose tokens came
with POISON set is still expanded with its values and added. [DESIGN CHOICE, log 105] -/
def State.eldExpand (s : State) (u : Nat) (c : EldCfg) (a : AccSet) (d : EldBlock) (sc : Token) (co : Option Token) :
    AccSet × State :=
  let badFmt := d.bad || !eldAccepts c 1 sc || (match co with | some k => !eldAccepts c 2 k | none => false)
  if badFmt then ({ a with poison := true }, s)
  else if d.lone then ({ a with poison := true }, s.eldSkew u c a.tag a.epochLo)
  else if d.void || sc.kind == 4 then (a, s)
  else match expandBlock c d sc.payload (co.map (·.payload)) with
    | none =>
      let s := (s.bump .ELD_ECNT2_SCALE_RANGE u).bump .ELD_CNT_ESC2_SCALE_RANGE
      ({ a with poison := true }, s.postFlag c.slot a.tag a.epochLo 1)
    | some (acts, x) =>
      let clean := !sc.poison && d.parts.all (fun e => !e.tok.poison)
      let a := if d.idx == 0 && clean then { a with exp0 := some x, window := some (bits sc.payload.toNat 16 16) } else a
      if c.nbIn ≤ d.idx then (a, s)
      else
        let (sums, bad, s) := s.blockSums u c acts d.idx c.nbOut
        let s := if bad then s.jobHit u 0x5302 else s
        ({ a with acc := if a.acc.isEmpty then sums else a.acc.zipWith (· + ·) sums, poison := a.poison || bad }, s)

/-- The pass of a set completes (R111): a wrong block count or index poisons it. -/
def State.eldComplete (s : State) (u : Nat) (c : EldCfg) (a : AccSet) : State :=
  let wrong := a.fired.length != c.nbIn || a.fired.any (fun b => decide (c.nbIn ≤ b))
  let s := if wrong then (s.postFlag c.slot a.tag a.epochLo 1).bump .ELD_CNT_PASS_BLOCKS else s
  let e := s.eng u
  s.setEng u { e with
    sets := e.sets.filter (fun x => !(x.tag == a.tag && x.epochLo == a.epochLo))
    done := e.done ++ [({ set := { a with poison := a.poison || wrong }, lastFire := s.cycle } : PassOut)]
    dataDone := e.dataDone ++ [(a.tag, a.epochLo, s.cycle + max 1 c.limit)] }

/-- One firing (R86, R98 to R112): tokens consumed, a set taken, the block expanded, the pass perhaps completed. -/
def State.eldFire (s : State) (u : Nat) (c : EldCfg) (act : EldAct) (extra : List Entry) : State :=
  let d := match act with | .pair d _ _ => d | .skew d _ _ _ => d
  let use : List (Nat × Entry) := (match act with
    | .pair d sc co => EldBlock_use d ++ [(1, sc)] ++ co.toList.map (fun e => (2, e))
    | .skew _ _ _ use => use) ++ extra.map (fun e => (3, e))
  let idx := match act with | .pair d _ _ => d.idx | .skew _ i _ _ => i
  let data := match act with | .pair _ _ _ => true | .skew _ _ b _ => b
  match d.parts with
  | [] => s
  | p :: _ =>
    let tag := p.tok.tag
    let lo := p.tok.epochLo
    let e := s.eng u
    let old : Option AccSet := e.sets.find? fun x => x.tag == tag && x.epochLo == lo
    let a : AccSet := old.getD { tag := tag, epochLo := lo, first := s.cycle }
    let mixed := use.any fun (x : Nat × Entry) => x.2.tok.tag != tag
    let spoilt := use.any fun (x : Nat × Entry) => x.2.tok.poison || !eldAccepts c x.1 x.2.tok
    let a := { a with fired := a.fired ++ [idx], poison := a.poison || mixed || spoilt }
    let s := (s.eldConsume u use).eldFormats u c tag lo use
    let s := if mixed then (s.bump .FAB_CNT_HDR_READY_MISMATCH).firstErr u tag 9 else s
    let r : AccSet × State := match use.find? (fun (x : Nat × Entry) => x.1 == 1) with
      | some sc => s.eldScale c a data sc.2.tok
      | none => (a, s)
    let r : AccSet × State := match act with
      | .pair d sc co => r.2.eldExpand u c r.1 d sc.tok (co.map (fun (x : Entry) => x.tok))
      | .skew _ _ _ _ => ({ r.1 with poison := true }, r.2.eldSkew u c tag lo)
    let a := r.1
    let s := r.2
    let s := s.bump .FAB_UCNT_FIRES u
    let e := s.eng u
    let s := s.setEng u { e with
      nextFire := s.cycle + c.nbOut
      sets := e.sets.filter (fun x => !(x.tag == tag && x.epochLo == lo)) ++ [a] }
    let s := if data && d.last then s.eldComplete u c a else s
    s.overBusy (s.reg .FAB_UCFG_SLOT u) (UnitAddr.region u)

/-- Tokens of tags whose data lane has ended are discarded as mismatches (R98). [DEDUCED, log 45] -/
def State.eldSurplus (s : State) (u : Nat) : State :=
  let e := s.eng u
  let s := s.setEng u { e with dataDone := e.dataDone.filter (fun x => decide (s.cycle ≤ x.2.2)) }
  (s.eng u).dataDone.foldl (fun s x =>
    if (s.eng u).sets.any (fun a => a.tag == x.1 && a.epochLo == x.2.1)
        || (s.storeQ u 0).any (fun k => k.tok.tag == x.1 && k.tok.epochLo == x.2.1) then s
    else [1, 2].foldl (fun s i =>
      let late := s.eldHeld u i (some (x.1, x.2.1))
      late.foldl (fun s k =>
        (s.storeRemove u i (· == k)).eldSkew u (s.eldCfg ((s.cfgOf x.2.1).getD s.regs) u) x.1 x.2.1) s) s) s

/-- The tags of the data store, the earliest written first (R87). -/
def State.eldTags (s : State) (u : Nat) : List (Nat × Nat) :=
  (s.storeQ u 0).foldl (fun acc e =>
    if decide (e.cyc < s.cycle) && !acc.contains (e.tok.tag, e.tok.epochLo) then acc ++ [(e.tok.tag, e.tok.epochLo)] else acc) []

/-- Drop the stale tokens of every input (R92). -/
def State.purgeInputs (s : State) (u : Nat) : State := [0, 1, 2, 3].foldl (fun s i => s.purgeStale u i) s

/-- Input 3, when configured, must hold a token too, and gives its oldest (R86, R89). [DEDUCED, log 45] -/
def State.eldThird (s : State) (u : Nat) (c : EldCfg) (tag : Option (Nat × Nat)) : Option (List Entry) :=
  if bitAt c.inputs 3 then ((s.eldHeld u 3 tag).head?).map fun e => [e] else some []

/-- A cycle in which a firing waits for an accumulator set counts once (R112). -/
def State.accWait (s : State) (u : Nat) : State :=
  let e := s.eng u
  if e.waitedAt == some s.cycle then s
  else (s.setEng u { e with waitedAt := some s.cycle }).bump .ELD_CNT_ACC_ACC_WAIT

/-- Try the tags in order: the first that can fire fires; a new tag without a free set waits (R87, R112). -/
def State.eldTry (s : State) (u : Nat) : List (Nat × Nat) → State
  | [] => s
  | (tag, lo) :: rest =>
    let c := s.eldCfg ((s.cfgOf lo).getD s.regs) u
    let old := (s.eng u).sets.find? fun x => x.tag == tag && x.epochLo == lo
    if c.ready || c.inputs % 4 != 3 then s.eldTry u rest
    else match s.eldAction u c (old.any (·.scaleDone)) (some (tag, lo)), s.eldThird u c (some (tag, lo)) with
      | some act, some extra =>
        if old.isNone && decide (16 ≤ s.setsUsed u) then (s.accWait u).eldTry u rest
        else s.eldFire u c act extra
      | _, _ => s.eldTry u rest

/-- FIRE (R86): at most one firing a cycle, in tag mode, once the array is free and the output can accept. [DESIGN CHOICE, log 3] -/
def fire (s : State) (u : Nat) : State :=
  let s := (s.purgeInputs u).eldSurplus u
  if s.cycle < (s.eng u).nextFire || s.outStop u then s else s.eldTry u (s.eldTags u)

/-- What a ready-mode firing does with the oldest data block and the oldest token of every other configured input, whatever their
tags: a pair when block indices and escapes agree, a mismatch of all of them otherwise (R89, R98, R100). [DEDUCED, log 45] -/
def State.readyAction (s : State) (u : Nat) (c : EldCfg) : Option EldAct :=
  match eldBlock c (s.eldHeld u 0 none), s.eldHeld u 1 none with
  | some d, sc :: _ =>
    if bitAt c.inputs 2 then
      match s.eldHeld u 2 none with
      | [] => none
      | k :: _ =>
        if sc.tok.block == d.idx && k.tok.block == d.idx
            && (!eldAccepts c 2 k.tok || (!d.escs.isEmpty && corrMatches k.tok.payload d.escs)) then some (.pair d sc (some k))
        else some (.skew d d.idx true (EldBlock_use d ++ [(1, sc), (2, k)]))
    else if sc.tok.block == d.idx && d.escs.isEmpty then some (.pair d sc none)
    else some (.skew d d.idx true (EldBlock_use d ++ [(1, sc)]))
  | _, _ => none

/-- The set a ready-mode firing would add to is held already, or one is free (R112). -/
def State.readySet (s : State) (u : Nat) (act : EldAct) : Bool :=
  let d := match act with | .pair d _ _ => d | .skew d _ _ _ => d
  let key := (d.parts.head?).map fun e => (e.tok.tag, e.tok.epochLo)
  ((s.eng u).sets.any fun x => some (x.tag, x.epochLo) == key) || decide (s.setsUsed u < 16)

/-- READY_FIRE (R89): an engine in ready mode fires on the oldest tokens whatever their tags; a fawn core fires by no rule. [DESIGN CHOICE, log 3] -/
def readyFire (s : State) (u : Nat) : State :=
  if !UnitAddr.isEland u then s
  else
    let s := s.purgeInputs u
    let c := s.eldCfg s.regs u
    if !c.ready || c.inputs % 4 != 3 || s.cycle < (s.eng u).nextFire || s.outStop u then s
    else match s.readyAction u c, s.eldThird u c none with
      | some act, some extra => if s.readySet u act then s.eldFire u c act extra else s.accWait u
      | _, _ => s

/-- A firing of an engine could begin in this cycle but for an accumulator set (R112). -/
def State.setMissing (s : State) (u : Nat) : Bool :=
  if s.cycle < (s.eng u).nextFire || s.outStop u || decide (s.setsUsed u < 16) then false
  else
    let c := s.eldCfg s.regs u
    (c.ready && c.inputs % 4 == 3 && (match s.readyAction u c, s.eldThird u c none with
      | some act, some _ => !s.readySet u act
      | _, _ => false))
    || (s.eldTags u).any fun (t : Nat × Nat) =>
      let c := s.eldCfg ((s.cfgOf t.2).getD s.regs) u
      !c.ready && c.inputs % 4 == 3 && (s.cfgOf t.2).isSome
        && !((s.eng u).sets.any fun x => x.tag == t.1 && x.epochLo == t.2)
        && (s.eldAction u c false (some t)).isSome && (s.eldThird u c (some t)).isSome

/-- Engines whose firings waited for a set in the cycle that ends count it, whether a FIRE came or not (R112). -/
def State.accWaitAll (s : State) : State :=
  (((s.fab.stores.keys.map (fun (k : Nat × Nat) => k.1)).eraseDups).filter UnitAddr.isEland).foldl
    (fun (s : State) u => if s.setMissing u then s.accWait u else s) s

/-! ### The output stage (R127 to R133) -/

/-- What the stage makes of one channel: the code emitted, an escape's q, clipped or not, overflow or not. -/
structure ChanOut where
  code : Int
  esc : Option Int := none
  clip : Bool := false
  ovf : Bool := false
  deriving DecidableEq, Repr

/-- Steps 3 and 4 (R129, R130): round, add the zero point, clip or escape; `used` escapes stand in the block. -/
def roundCode (c : EldCfg) (zo q : Int) (used : Nat) : ChanOut :=
  let top : Int := if c.outFmt == 1 then 7 else 127
  let v := q + zo
  if -top ≤ v ∧ v ≤ top then { code := v }
  else if c.escEn && decide (used < 4) && decide (q.natAbs < 32768) then { code := -top - 1, esc := some q }
  else { code := clampI (-top) top v, clip := true, ovf := c.escEn }

/-- Step 2 on S × 2^T: the rounded activation value q, the table read when enabled (R128). -/
def State.activation (s : State) (u : Nat) (c : EldCfg) (sj t : Int) : Int × Bool × State :=
  if c.relu then (if sj < 0 then 0 else roundShift sj t, false, s)
  else if c.tableEn then
    let i := clampI 0 1023 (floorShift sj (t + c.tableIn) + 512)
    let (bs, bad, s) := s.passRead u (c.table + 4 * i.toNat) 4
    (roundDiv (sx 24 (leNat bs)) 256, bad, s)
  else (roundShift sj t, false, s)

/-- The channels of one output block, in ascending element order. -/
def State.blockOut (s : State) (u : Nat) (c : EldCfg) (base : Int) (xo zo : Int) :
    List (Int × Nat) → Nat → List ChanOut × Bool × State
  | [], _ => ([], false, s)
  | (sj, desc) :: rest, used =>
    let t := base + sx 8 (bits desc 16 8) - xo
    let (q, b1, s) := s.activation u c sj t
    let o := roundCode c zo q used
    let (os, b2, s) := s.blockOut u c base xo zo rest (used + (if o.esc.isSome then 1 else 0))
    (o :: os, b1 || b2, s)

/-- Codes packed into a payload from element i. -/
def packCodes (w : Nat) (cs : List Int) : Payload :=
  BitVec.ofNat 256 (cs.foldr (fun v acc => ux w v + 2 ^ w * acc) 0)

/-- The CORR payload of a block's escapes: element and q as binary32 (R130). -/
def corrPayload (es : List (Nat × Int)) : Payload :=
  BitVec.ofNat 256 (es.foldr (fun e acc => (fOfInt (BitVec.ofInt 32 e.2)).toNat + e.1 * 2 ^ 32 + 2 ^ 38 + 2 ^ 64 * acc) 0)

/-- The tokens of one quantised output block with the values for the checker, in the order of Table "Output token order". -/
def blockTokens (c : EldCfg) (t0 : Token) (b nch : Nat) (xo zo : Int) (window : Nat) (adapted : Bool) (os : List ChanOut) :
    List Token :=
  let q4 := c.outFmt == 1
  let codes := os.map (·.code) ++ List.replicate (64 - os.length) zo
  let zpBits := if q4 then ux 4 zo else ux 8 zo
  let scale := ux 8 (clampI (-128) 127 xo) + zpBits * 2 ^ 8 + window % 65536 * 2 ^ 16 + b2n adapted * 2 ^ 32
  let t := { t0 with block := b, kind := 1, stream := c.dstream }
  let escs := ((List.range os.length).zip os).filterMap fun x => x.2.esc.map fun q => (x.1, q)
  [{ t with kind := 2, fmt := 8, stream := c.sstream, payload := BitVec.ofNat 256 scale }]
    ++ (if q4 then [{ t with fmt := 3, payload := packCodes 4 codes }]
        else [{ t with fmt := 1, payload := packCodes 8 (codes.take 32) }]
          ++ (if decide (32 < nch) || c.emitHi then [{ t with fmt := 2, payload := packCodes 8 (codes.drop 32) }] else []))
    ++ (if escs.isEmpty then [] else [{ t with fmt := 9, stream := c.cstream, payload := corrPayload escs }])

/-- S × 2^t as binary32 with one rounding, saturated at the largest finite value (R133): the bits and whether it saturated. [DEDUCED, log 46] -/
def f32Out (relu : Bool) (sj t : Int) : Nat × Bool :=
  if relu && decide (sj < 0) then (0, false)
  else
    let tooBig := if 104 ≤ t then decide (2 ^ 24 - 1 < sj.natAbs * 2 ^ (t - 104).toNat)
      else decide ((2 ^ 24 - 1) * 2 ^ (104 - t).toNat < sj.natAbs)
    let neg := decide (sj < 0)
    if tooBig then ((fSign neg 0x7F7FFFFF).toNat, true)
    else
      let v := (fRound neg sj.natAbs t).toNat
      (if v % 2 ^ 31 = 0 then 0 else v, false)

/-- LAST on the last token of each stream (R69). -/
def markLast (ts : List Token) : List Token :=
  ((List.range ts.length).zip ts).map fun x =>
    { x.2 with last := !(ts.drop (x.1 + 1)).any (fun y => y.stream == x.2.stream) }

/-- A closed bank waits for its write (R161, R154): an earlier record for the same memory slot is dropped, and LOST is the
engine's count of such records. [DEDUCED, log 46] -/
def bankClosed (e : ElandUnit) : Bool × ElandUnit :=
  let same := fun (x : ClipBank) => x.window % 2 == e.bank.window % 2
  let hit := e.closed.any same
  let n := e.lost + b2n hit
  (hit, { e with lost := n, closed := e.closed.filter (fun x => !same x) ++ [{ e.bank with lost := n }] })

/-- The window's clip counts and the bank that counts a pass (R160, R161). [DEDUCED, log 46] -/
def State.clipBank (s : State) (u : Nat) (a : AccSet) (clips : List Nat) : State :=
  let e := s.eng u
  let epoch := (s.epochOf a.epochLo).getD s.epoch
  let w := a.window.getD e.bank.window
  let count := fun (b : ClipBank) => { b with
    passes := b.passes + 1, epoch := epoch, counts := clips.foldl (fun m j => m.upd j 0 (· + 1)) b.counts }
  if !e.bank.opened then s.setEng u { e with bank := count { window := w, opened := true } }
  else
    let d := sdiff 16 w e.bank.window
    if d = 0 then s.setEng u { e with bank := count e.bank }
    else if d < 0 then s.setEng u { e with bank := count { e.bank with late := e.bank.late + 1 } }
    else
      let fresh := count { window := w, opened := true }
      let (hit, e) := if s.reg .CND_OSTAT_BASE_ADDR == 0 then (false, e) else bankClosed e
      let s := s.setEng u { e with bank := fresh, bankSel := 1 - e.bankSel }
      if hit then s.bump .CND_CNT_MISC_OREC_LOST else s

/-- Take one injected failure of a class at a unit (R397). -/
def State.takeInject (s : State) (u cls : Nat) : Bool × State :=
  match s.ints.inject.get? (u, cls) with
  | some (n + 1) => (true, { s with ints := { s.ints with inject := s.ints.inject.put (u, cls) n } })
  | _ => (false, s)

/-- The posts of a pass's injected ELD_ACC and ELD_OUT failures (R467). -/
def State.eldPosts (s : State) (u : Nat) (c : EldCfg) (a : AccSet) (word : Int) : List CheckPost × State :=
  let (i1, s) := s.takeInject u 1
  let (i2, s) := s.takeInject u 2
  let s0 := (a.acc.head?).getD 0
  let r := (s0 % 7).toNat
  let p : CheckPost := { slot := c.slot, unit := u, tag := a.tag, epochLo := a.epochLo, element := 0, wordMain := ux 32 word
                         tbLo := s.tb.tb % 2 ^ 32, injected := true }
  ((if i1 then [{ p with cls := 1, resMain := r, resPred := (r + 1) % 7 }] else []) ++ (if i2 then [{ p with cls := 2 }] else []), s)

/-- Every quantised output block from b on: tokens, clipped channels, value of element 0, poison. -/
def State.quantOut (s : State) (u : Nat) (m : RegMap) (c : EldCfg) (a : AccSet) (t0 : Token) (adj : Int)
    (chans : List (Int × Nat)) : Nat → List Token × List Nat × List ChanOut × Bool × State
  | 0 => ([], [], [], false, s)
  | n + 1 =>
    let (ts, clips, os, bad, s) := s.quantOut u m c a t0 adj chans n
    let nch := s.eldNch m u n
    let xo := sx 8 (s.regIn m .ELD_OUTBLK_OUT_EXP (ix u 32 n)) + adj
    let zo := sx 8 (s.regIn m .ELD_OUTBLK_ZO (ix u 32 n))
    let (o, b, s) := s.blockOut u c (c.xbw + c.xba - 12) xo zo ((chans.drop (64 * n)).take nch) 0
    let clip := ((List.range o.length).zip o).filterMap fun x => if x.2.clip then some (64 * n + x.1) else none
    (ts ++ blockTokens c t0 n nch xo zo (a.evWindow.getD 0) (a.adapted && n == 0) o, clips ++ clip, os ++ o, bad || b, s)

/-- The F32 tokens of a pass (R131, R133): tokens, saturated values, the value of element 0. -/
def State.f32Tokens (s : State) (u : Nat) (m : RegMap) (c : EldCfg) (t0 : Token) (chans : List (Int × Nat)) :
    List Token × Nat :=
  let vals := (List.range (64 * eldBlocks c)).map fun j =>
    if j % 64 < s.eldNch m u (j / 64) then
      match chans[j]? with
      | some (sj, desc) => f32Out c.relu sj (c.xbw + c.xba - 12 + sx 8 (bits desc 16 8))
      | none => (0, false)
    else (0, false)
  ((List.range (8 * eldBlocks c)).map fun k =>
      { t0 with kind := 1, fmt := 4, stream := c.dstream, block := k
                payload := packCodes 32 (((vals.drop (8 * k)).take 8).map fun v => (v.1 : Int)) },
    (vals.filter (·.2)).length)

/-- The output stage of a completed pass: its tokens join the engine's output, one a cycle from last firing + Lpass. [DEDUCED, log 46] -/
def State.stagePass (s : State) (u : Nat) (p : PassOut) : State :=
  let a := p.set
  let m := (s.cfgOf a.epochLo).getD s.regs
  let c := s.eldCfg m u
  let n := 64 * eldBlocks c
  let (db, dbad, s) := s.passRead u c.chan (4 * n)
  let chans := (a.acc ++ List.replicate (n - a.acc.length) 0).zip (wordsOf 4 db)
  let adj : Int := if c.track then (match a.exp0 with | some x => x - c.xaNom | none => 0) else 0
  let t0 : Token := { tag := a.tag, epochLo := a.epochLo, poison := a.poison || dbad }
  let (ts, clips, word, s) : List Token × List Nat × Int × State :=
    if c.outFmt == 2 then
      let (ts, sat) := s.f32Tokens u m c t0 chans
      (ts, [], ((ts.head?).map fun t => sx 32 (bits t.payload.toNat 0 32)).getD 0,
        if sat = 0 then s else s.bump .ELD_CNT_PASS_F32_SAT 0 sat)
    else
      let (ts, clips, os, bad, s) := s.quantOut u m c a t0 adj chans (eldBlocks c)
      let escs := (os.filter (·.esc.isSome)).length
      let ovf := (os.filter (·.ovf)).length
      let s := (((s.bump .ELD_ECNT_CLIP u clips.length).bump .ELD_CNT_CLIP_COUNT 0 clips.length).bump .ELD_ECNT_ESC u escs).bump
        .ELD_CNT_CLIP_ESC 0 escs
      let s := (s.bump .ELD_ECNT2_ESC_OVF u ovf).bump .ELD_CNT_ESC2_ESC_OVF 0 ovf
      (ts.map (fun t => { t with poison := t.poison || bad }), clips, ((os.head?).map (·.code)).getD 0, s)
  let s := s.clipBank u a clips
  let (posts, s) := s.eldPosts u c a word
  let ts := (markLast ts).map Token_sealed
  -- the token that holds element 0: the block's data token behind its scale token, or the first F32 token
  let at_ := if c.outFmt == 2 then 0 else 1
  let e := s.eng u
  s.setEng u { e with
    done := removeFirst (· == p) e.done
    outQ := e.outQ ++ ((List.range ts.length).zip ts).map fun x =>
      ({ tok := x.2, cyc := p.lastFire + s.lpass + x.1
         posts := if x.1 == at_ then posts.map (fun q => { q with block := x.2.block }) else [] } : OutTok) }

/-- Send the first waiting output token of an engine when its cycle has come and the register accepts it, with its posts 16
cycles after the departure (R77, R79, R134, R364). -/
def State.eldSend (s : State) (u : Nat) : State :=
  match (s.eng u).outQ with
  | [] => s
  | t :: rest =>
    if s.cycle < t.cyc || s.outStop u || (s.regQ u 4).any (fun e => decide (s.cycle ≤ e.cyc)) then s
    else
      let s := s.setEng u { s.eng u with outQ := rest }
      let s := s.sendLocal u t.tok s.cycle
      t.posts.foldl (fun s p => s.postCheck p (s.cycle + 16)) s

/-- PASS_OUTPUT (R134, R135): the oldest completed pass whose Lpass has run leaves the output stage. -/
def passOutput (s : State) (u : Nat) : State :=
  match (s.eng u).done with
  | [] => s.eldSend u
  | p :: _ => if s.cycle < p.lastFire + s.lpass then s.eldSend u else (s.stagePass u p).eldSend u

/-- Output tokens of eland engines whose cycle has come (R134). -/
def State.eldSendAll (s : State) : State := s.eland.keys.foldl State.eldSend s

/-- ACC_EXPIRED (R112): sets whose first firing lies LIMIT cycles back are freed without output. -/
def accExpired (s : State) (u : Nat) : State :=
  let e := s.eng u
  let old := e.sets.filter fun a =>
    let lim := s.regIn ((s.cfgOf a.epochLo).getD s.regs) .FAB_UHOLD_LIMIT u
    lim != 0 && decide (a.first + lim ≤ s.cycle)
  if old.isEmpty then s
  else (s.setEng u { e with sets := e.sets.filter (fun a => !old.contains a) }).bump .ELD_CNT_ACC_ACC_EXPIRED 0 old.length

/-- OUTPUT_RECORD_WRITE (R161): the oldest closed bank is written as an output-channel record in the RECORD class, in its turn
(R270). -/
def outputRecordWrite (s : State) (u : Nat) : State :=
  let e := s.eng u
  let base := s.reg .CND_OSTAT_BASE_ADDR
  match e.closed with
  | [] => s
  | b :: rest =>
    if base == 0 then s.setEng u { e with closed := rest }
    else if !s.memTurn 6 then s
    else
      let s := s.setEng u { e with closed := rest }
      let n := 48 * UnitAddr.region u + 3 * UnitAddr.cluster u + UnitAddr.unit u / 5
      let head := leBytes 2 u ++ leBytes 2 b.window ++ leBytes 2 b.epoch ++ leBytes 4 b.passes ++ leBytes 4 b.late
        ++ leBytes 4 b.lost
      let counts := ((List.range 2048).map fun j => leBytes 4 (b.counts.getD j 0)).foldr (· ++ ·) []
      s.stackWrite (base + 16512 * n + 8256 * (b.window % 2)) (bytesAt head 0 64 ++ counts) 6

/-- FIRE (R86). -/
def execFire (unit : Nat) (s : State) : Answer := awake s (fire s unit)
/-- READY_FIRE (R89). -/
def execReadyFire (unit : Nat) (s : State) : Answer := awake s (readyFire s unit)
/-- PASS_OUTPUT (R134). -/
def execPassOutput (unit : Nat) (s : State) : Answer := awake s (passOutput s unit)
/-- OUTPUT_RECORD_WRITE (R161). -/
def execOutputRecordWrite (unit : Nat) (s : State) : Answer := awake s (outputRecordWrite s unit)
/-- ACC_EXPIRED (R112). -/
def execAccExpired (unit : Nat) (s : State) : Answer := awake s (accExpired s unit)

end Sys2Proof.Machine
end

