-- ==== Sys2Proof/Machine/Conditioner.lean ====
section
/-! DEFINITION. The ingress conditioners (R143 to R159): the channel table, conversion, windows, records, adaptation and
restarts. -/
namespace Sys2Proof.Machine
open Sys2Proof

/-! ### The channel table (R144, R162) -/

/-- The channel fields of an entry (Table "Channel-table entry"). -/
structure ChanCfg where
  gain : Int
  offset : Int
  width : Nat
  signed : Bool
  mask : Bool
  trig : Bool
  group : Nat
  deriving DecidableEq, Repr

/-- The block fields of an element-0 entry. -/
structure BlockCfg where
  q4 : Bool
  escEn : Bool
  adapt : Bool
  zp : Int
  expInit : Int
  expLo : Int
  expHi : Int
  win : Int
  thr : Int
  fallM1 : Nat
  deriving DecidableEq, Repr

/-- Channel fields; a WIDTH of 5 to 7 acts as 4 (R146). -/
def chanCfg (e : ChanEntry) : ChanCfg :=
  { gain := sx 24 (bits e.1 0 24), offset := sx 20 (bits e.1 24 20), width := min 4 (bits e.1 44 3) + 12
    signed := bitAt e.1 47, mask := bitAt e.1 48, trig := bitAt e.1 49, group := bits e.1 50 6 }

/-- Block fields; a reserved WIN acts as the nearer of −4 and 4 (R146). -/
def blockCfg (e : ChanEntry) : BlockCfg :=
  { q4 := bitAt e.2 0, escEn := bitAt e.2 1, adapt := bitAt e.2 2, zp := sx 8 (bits e.2 3 8)
    expInit := sx 6 (bits e.2 11 6), expLo := sx 6 (bits e.2 17 6), expHi := sx 6 (bits e.2 23 6)
    win := clampI (-4) 4 (sx 4 (bits e.2 29 4)), thr := sx 4 (bits e.2 33 4), fallM1 := bits e.2 37 4 }

/-- An entry of a table copy; after reset every bit is zero (R144). -/
def tblEntry (t : KMap Nat ChanEntry) (n : Nat) : ChanEntry := t.getD n (0, 0)

/-- The block fields of a block in a table copy. -/
def tblBlock (t : KMap Nat ChanEntry) (b : Nat) : BlockCfg := blockCfg (tblEntry t (64 * b))

/-- The entry that CND_TBL_INDEX addresses in the staged copy, with a new value stored at once (R162). -/
def State.tblStore (s : State) (f : ChanEntry → ChanEntry) (touch : Bool) : State :=
  let n := s.reg .CND_TBL_INDEX_INDEX
  { s with cond := { s.cond with
      staged := s.cond.staged.put n (f (tblEntry s.cond.staged n))
      dirty := true
      touched := if touch && !s.cond.touched.contains (n / 64) then s.cond.touched ++ [n / 64] else s.cond.touched } }

/-- CND_TBL_LO (R159, R162): the channel fields of the addressed entry; bits [63:56] are reserved. -/
def cndTblLo (s : State) (value : Nat) : State := s.tblStore (fun e => (value % 2 ^ 56, e.2)) false

/-- CND_TBL_HI (R159, R162): the block fields, which element 0 alone has; such a write marks the block for restart. -/
def cndTblHi (s : State) (value : Nat) : State :=
  let first := s.reg .CND_TBL_INDEX_INDEX % 64 == 0
  s.tblStore (fun e => (e.1, if first then value % 2 ^ 41 else 0)) first

/-! ### Conversion (R146 to R149) -/

/-- What one sample became: its difference d, code, escape, clip and overflow, and whether stray bits were ignored. -/
structure SampleOut where
  d : Int
  out : ChanOut
  stray : Bool
  deriving DecidableEq, Repr

/-- The sample's value r: the low bits of the raw sample, signed or not (R146). -/
def sampleValue (c : ChanCfg) (raw : Nat) : Int := if c.signed then sx c.width raw else ((raw % 2 ^ c.width : Nat) : Int)

/-- Bits above the sample's width that are neither its sign nor zero (R146). -/
def strayBits (c : ChanCfg) (raw : Nat) : Bool :=
  let high := raw % 65536 / 2 ^ c.width
  high != (if c.signed && decide (sampleValue c raw < 0) then 2 ^ (16 - c.width) - 1 else 0)

/-- The difference d of a sample at exponent X (R146). -/
def sampleDiff (c : ChanCfg) (x : Int) (raw : Nat) : Int :=
  if c.mask then 0 else roundShift ((sampleValue c raw - c.offset) * c.gain) (-16 - x)

/-- The code of a difference: emitted, escaped or clipped in the order of R130, `used` escapes already in the block (R147). -/
def diffCode (b : BlockCfg) (d : Int) (used : Nat) : ChanOut :=
  let top : Int := if b.q4 then 7 else 127
  let v := d + b.zp
  if -top ≤ v ∧ v ≤ top then { code := v }
  else if b.escEn && decide (used < 4) && decide (d.natAbs < 32768) then { code := -top - 1, esc := some d }
  else { code := clampI (-top) top v, clip := true, ovf := b.escEn }

/-- Convert a block's samples from element `i` on. -/
def convertFrom (t : KMap Nat ChanEntry) (b : Nat) (x : Int) : List Nat → Nat → Nat → List SampleOut
  | [], _, _ => []
  | raw :: rest, i, used =>
    let c := chanCfg (tblEntry t (64 * b + i))
    let d := sampleDiff c x raw
    let o := diffCode (tblBlock t b) d used
    { d := d, out := o, stray := strayBits c raw } :: convertFrom t b x rest (i + 1) (used + (if o.esc.isSome then 1 else 0))

/-- The converted block of a list of sample outcomes (R148). -/
def convResult (t : KMap Nat ChanEntry) (b : Nat) (x : Int) (window : Nat) (adapted : Bool) (os : List SampleOut) : ConvBlock :=
  let c := tblBlock t b
  { block := b, q4 := c.q4, exp := x, zp := c.zp, window := window % 65536, adapted := adapted, codes := os.map (·.out.code)
    corr := ((List.range os.length).zip os).filterMap fun e => e.2.out.esc.map fun d => (e.1, d) }

/-- The tokens of a converted block in the order of Table "Output token order" (R148): a Q8 block always with both halves. -/
def condTokens (c : ConvBlock) (r : ChanRec) (t0 : Token) : List Token :=
  let scale := ux 8 c.exp + (if c.q4 then ux 4 c.zp else ux 8 c.zp) * 2 ^ 8 + c.window % 65536 * 2 ^ 16 + b2n c.adapted * 2 ^ 32
  let t := { t0 with block := r.index, kind := 1, stream := r.dstream }
  [{ t with kind := 2, fmt := 8, stream := r.sstream, payload := BitVec.ofNat 256 scale }]
    ++ (if c.q4 then [{ t with fmt := 3, payload := packCodes 4 c.codes }]
        else [{ t with fmt := 1, payload := packCodes 8 (c.codes.take 32) },
              { t with fmt := 2, payload := packCodes 8 (c.codes.drop 32) }])
    ++ (if c.corr.isEmpty then [] else [{ t with fmt := 9, stream := r.cstream, payload := corrPayload c.corr }])

/-- The VOID tokens that replace a missing block: the replaced formats, all-zero payloads (R47, R71, R101). -/
def voidTokens (q4 : Bool) (r : ChanRec) (t0 : Token) : List Token :=
  let t := { t0 with block := r.index, kind := 4, payload := 0, stream := r.dstream }
  { t with fmt := 8, stream := r.sstream } :: (if q4 then [{ t with fmt := 3 }] else [{ t with fmt := 1 }, { t with fmt := 2 }])

/-! ### Windows, records and adaptation (R152 to R158) -/

/-- A block's window data. -/
def State.blkWin (s : State) (b : Nat) : BlockWin := s.cond.wins.getD b {}

/-- Replace a block's window data. -/
def State.setWin (s : State) (b : Nat) (w : BlockWin) : State := { s with cond := { s.cond with wins := s.cond.wins.put b w } }

/-- A block's live exponent (CND_BSTATEn.EXP). -/
def State.liveExp (s : State) (b : Nat) : Int := sx 6 (s.reg .CND_BSTATE_EXP b)

/-- Enter one sample in its channel's statistics (Table "Channel window entry"). -/
def chanWinAdd (w : ChanWin) (o : SampleOut) : ChanWin :=
  { clip := w.clip + b2n o.out.clip, esc := w.esc + b2n o.out.esc.isSome
    pos := if 0 ≤ o.d then max w.pos (min o.d.toNat 255) else w.pos
    neg := if o.d < 0 then max w.neg (min (-o.d).toNat 255) else w.neg }

/-- A channel's flags at the close of a window (R155, R156): MASKED, CONSTANT, OVER, FITS_DOUBLED. -/
structure ChanClose where
  masked : Bool
  constant : Bool
  above : Bool
  fits : Bool
  deriving DecidableEq, Repr

/-- The largest code magnitude of a format (R155). -/
def maxCode (q4 : Bool) : Int := if q4 then 7 else 127

/-- The flags of one channel: EVENTS the window's count, THR from −8. [DEDUCED, log 51] -/
def chanClose (b : BlockCfg) (c : ChanCfg) (x : Int) (events : Nat) (w : ChanWin) : ChanClose :=
  { masked := c.mask
    constant := w.pos == 0 && w.neg == 0 && decide (x = b.expLo)
    above := decide (events < w.clip * 2 ^ (8 + b.thr).toNat)
    fits := decide (2 * (w.pos : Int) ≤ maxCode b.q4 - b.zp) && decide (2 * (w.neg : Int) ≤ maxCode b.q4 + b.zp) }

/-- A decision for the next window (R155). -/
structure Decision where
  next : Int
  fallCnt : Nat
  ceiling : Bool := false
  floor : Bool := false
  deriving DecidableEq, Repr

/-- The pseudocode of R155 for a block that may adapt. [DEDUCED, log 51] -/
def adaptDecide (b : BlockCfg) (x : Int) (fallCnt : Nat) (above fits : Bool) : Decision :=
  if above then (if x < b.expHi then { next := x + 1, fallCnt := 0 } else { next := x, fallCnt := 0, ceiling := true })
  else if fits then
    if b.fallM1 + 1 ≤ fallCnt + 1 then
      (if b.expLo < x then { next := x - 1, fallCnt := 0 } else { next := x, fallCnt := 0, floor := true })
    else { next := x, fallCnt := fallCnt + 1 }
  else { next := x, fallCnt := 0 }

/-- The 64-byte header of a block record (Table "Block window record"). -/
def winHeader (window epoch block events : Nat) (x next : Int) (flags lost : Nat) : List Nat :=
  leBytes 64 (window % 2 ^ 32 + epoch % 65536 * 2 ^ 32 + block % 1024 * 2 ^ 48 + events % 2 ^ 32 * 2 ^ 64 + ux 6 x * 2 ^ 96
    + ux 6 next * 2 ^ 102 + flags * 2 ^ 108 + lost % 2 ^ 32 * 2 ^ 128)

/-- One 16-byte channel entry. -/
def chanBytes (w : ChanWin) (f : ChanClose) : List Nat :=
  leBytes 16 (w.clip % 2 ^ 32 + w.esc % 2 ^ 32 * 2 ^ 32 + w.pos * 2 ^ 64 + w.neg * 2 ^ 72 + b2n f.masked * 2 ^ 80
    + b2n f.constant * 2 ^ 81 + b2n f.above * 2 ^ 82 + b2n f.fits * 2 ^ 83)

/-- Queue a block record (R154); an earlier record for the same memory slot that is not yet written is dropped and counted. -/
def State.queueWin (s : State) (b window : Nat) (mk : (lost : Nat) → WinRecord) : State :=
  if s.reg .CND_STAT_BASE_ADDR == 0 then s
  else
    let same := fun (r : WinRecord) => r.block == b && r.window % 2 == window % 2
    let w := s.blkWin b
    if s.cond.queue.any same then
      let s := s.setWin b { w with lost := w.lost + 1 }
      let s := { s with cond := { s.cond with queue := s.cond.queue.filter (fun r => !same r) ++ [mk (w.lost + 1)] } }
      s.bump .CND_CNT_MISC_REC_LOST
    else { s with cond := { s.cond with queue := s.cond.queue ++ [mk w.lost] } }

/-- Close a block's open window (R152, R153): with a decision, or, at a restart, with EXP_INIT as the next exponent (R159). -/
def State.closeWindow (s : State) (b : Nat) (restart : Option Int) : State :=
  let t := s.cond.committed
  let k := tblBlock t b
  let w := s.blkWin b
  let x := s.liveExp b
  let window := s.reg .CND_BSTATE_WINDOW b
  let adaptEn := s.flag .CND_CTRL_ADAPT_EN
  let cs := (List.range 64).map fun i => (w.chans.getD i {}, chanClose k (chanCfg (tblEntry t (64 * b + i))) x w.events (w.chans.getD i {}))
  let live := cs.filter (fun c => !c.2.masked)
  let keep : Decision := { next := x, fallCnt := s.reg .CND_BSTATE_FALL_CNT b }
  let d : Decision := match restart with
    | some e => { next := e, fallCnt := 0 }
    | none =>
      if !adaptEn then { next := x, fallCnt := 0 }
      else if k.adapt then adaptDecide k x keep.fallCnt (live.any (·.2.above)) (live.all (·.2.fits))
      else keep
  let rise := restart.isNone && decide (x < d.next)
  let fall := restart.isNone && decide (d.next < x)
  let flags := b2n rise + 2 * b2n fall + 4 * b2n d.ceiling + 8 * b2n d.floor + 16 * b2n restart.isSome
  let chans := (cs.map fun c => chanBytes c.1 c.2).foldr (· ++ ·) []
  let s := s.queueWin b window fun lost =>
    { block := b, window := window, header := winHeader window s.epoch b w.events x d.next flags lost, chans := chans }
  let w := s.blkWin b
  let s := s.setWin b { w with events := 0, chans := [], adaptNext := rise || fall }
  let s := if rise then s.bump .CND_CNT_ADAPT_RISE else s
  let s := if fall then s.bump .CND_CNT_ADAPT_FALL else s
  let s := if d.ceiling then s.bump .CND_CNT_LIMIT_CEILING else s
  let s := (s.setReg .CND_BSTATE_EXP b (ux 6 d.next)).setReg .CND_BSTATE_FALL_CNT b d.fallCnt
  let s := (s.setFlag .CND_BSTATE_CEILING b d.ceiling).setFlag .CND_BSTATE_FLOOR b d.floor
  let s := s.setFlag .CND_BSTATE_CONSTANT b (cs.any (·.2.constant))
  s.setReg .CND_BSTATE_WINDOW b (window + 1)

/-- Count a converted event in its block's window, or as a repeat (R152): whether it counts, and whether its scale token
carries ADAPTED (R155), which a repeat of the latest event that opened a window with it does too. [DEDUCED, log 51] -/
def State.countEvent (s : State) (b num : Nat) : Bool × Bool × State :=
  let w := s.blkWin b
  if w.recent.contains num then (false, w.adaptEvent == some num, s.bump .CND_CNT_MISC2_REPEAT)
  else
    let first := w.adaptNext
    let s := s.setWin b { w with recent := lastN 16 (w.recent ++ [num]), adaptNext := false
                                 adaptEvent := if first then some num else w.adaptEvent, events := w.events + 1 }
    (true, first, s)

/-- What a conversion hands on: the deskew buffer's block, and the samples' outcomes under the committed table for
Springbok. -/
structure Converted where
  blk : DskBlock := {}
  outs : List SampleOut := []
  deriving DecidableEq, Repr

/-- Convert one block of an event (R146 to R149, R152): under the committed table, and, in a dual phase, under the staged
one, whose copy of a block to be restarted has EXP_INIT; its window's number is settled when the copy leaves, or at C
(R159). [DEDUCED, log 52] -/
def State.convertBlock (s : State) (num b : Nat) (raws : List Nat) : Converted × State :=
  let x := s.liveExp b
  let window := s.reg .CND_BSTATE_WINDOW b
  let (counts, adapted, s) := s.countEvent b num
  let outs := convertFrom s.cond.committed b x raws 0 0
  let n := fun (p : SampleOut → Bool) => (outs.filter p).length
  let s := s.bump .CND_CNT_CLIP_CLIP 0 (n (·.out.clip))
  let s := s.bump .CND_CNT_CLIP_ESC 0 (n (·.out.esc.isSome))
  let s := s.bump .CND_CNT_ESC2_ESC_OVF 0 (n (·.out.ovf))
  let s := s.bump .CND_CNT_ESC2_RAW_BITS 0 (n (·.stray))
  let cur := convResult s.cond.committed b x window adapted outs
  let next := if s.cond.dual then
      if s.cond.touched.contains b then
        let x' := (tblBlock s.cond.staged b).expInit
        some (convResult s.cond.staged b x' (window + 1) false (convertFrom s.cond.staged b x' raws 0 0))
      else some (convResult s.cond.staged b x window adapted (convertFrom s.cond.staged b x raws 0 0))
    else none
  let s := if counts then
      let w := s.blkWin b
      let s := s.setWin b { w with chans := ((List.range outs.length).zip outs).foldl
                                     (fun m e => m.upd e.1 {} (fun c => chanWinAdd c e.2)) w.chans }
      if 2 ^ (12 + (tblBlock s.cond.committed b).win).toNat ≤ (s.blkWin b).events then s.closeWindow b none else s
    else s
  ({ blk := { block := b, cur := cur, next := next, epoch := s.epoch }, outs := outs }, s)

/-- BLOCK_RECORD_WRITE (R154): the oldest queued record goes to the stack in the RECORD class, in its turn (R270). -/
def blockRecordWrite (s : State) : State :=
  match s.cond.queue with
  | [] => s
  | r :: rest =>
    let base := s.reg .CND_STAT_BASE_ADDR
    if base == 0 then { s with cond := { s.cond with queue := rest } }
    else if !s.memTurn 6 then s
    else
      let s := { s with cond := { s.cond with queue := rest } }
      let s := s.setWin r.block { s.blkWin r.block with lost := 0 }
      s.stackWrite (base + 2176 * r.block + 1088 * (r.window % 2)) (r.header ++ r.chans) 6

/-! ### Commits and restarts (R149, R158, R159) -/

/-- Restart one block: its window closes early and its exponent becomes EXP_INIT of the new table. -/
def State.restartBlock (s : State) (b : Nat) : State :=
  let x := (tblBlock s.cond.staged b).expInit
  let s := if s.liveExp b ≠ x then { s with cond := { s.cond with restarted := s.cond.restarted ++ [b] } } else s
  (s.closeWindow b (some x)).bump .CND_CNT_LIMIT_RESTART

/-- What cycle C of a commit does to the conditioners: restarts, the staged table committed, and, with ADAPT_EN = 0, fall
counts held at zero (R158, R159). [DEDUCED, log 52] -/
def State.condCommit (s : State) : State :=
  let touched := s.cond.touched
  let s := touched.foldl State.restartBlock { s with cond := { s.cond with restarted := [] } }
  let s := { s with cond := { s.cond with committed := s.cond.staged, touched := [], dirty := false, dual := false } }
  if s.flag .CND_CTRL_ADAPT_EN then s
  else { s with regs := s.regs.filter (fun e => e.1.1 != .CND_BSTATE_FALL_CNT) }

/-- CND_TBL_LO (R159). -/
def execCndTblLo (value : Nat) (s : State) : Answer := awake s (cndTblLo s value)
/-- CND_TBL_HI (R159). -/
def execCndTblHi (value : Nat) (s : State) : Answer := awake s (cndTblHi s value)
/-- BLOCK_RECORD_WRITE (R154). -/
def execBlockRecordWrite (s : State) : Answer := awake s (blockRecordWrite s)

end Sys2Proof.Machine
end

