-- ==== Sys2Proof/Machine/Deskew.lean ====
section
/-! DEFINITION. The ingress deskew buffer (R41, R46 to R50, R78, R93, R101, R157, R468): assembly, slack, overruns, release
and marks. -/
namespace Sys2Proof.Machine
open Sys2Proof

/-! ### Networks by epoch -/

/-- A slot's network data. -/
def State.netSlot (s : State) (slot : Nat) : SlotNet := s.nets.getD slot {}

/-- The network a slot holds after the next commit (R203, R206). -/
def SlotNet_next (n : SlotNet) : Option Net :=
  if n.unload then none
  else match n.staged with
    | some (.load l) => some l
    | some (.bank b true) => some b
    | _ => n.live

/-- The epoch that an ingress mark selects: the new one from cycle C on (R34). -/
def State.markEpoch (s : State) (mark : Nat) : Nat :=
  match s.commit with
  | .broadcast c e => if c ≤ mark then e else s.epoch
  | _ => s.epoch

/-- The network a slot holds in an epoch, the present one or the one being broadcast. -/
def State.netIn (s : State) (slot epoch : Nat) : Option Net :=
  if epoch == s.epoch then (s.netSlot slot).live
  else match s.commit with
    | .broadcast _ e => if epoch == e then SlotNet_next (s.netSlot slot) else none
    | _ => none

/-- The channel table of an epoch, the present one or the one being broadcast. -/
def State.tableIn (s : State) (epoch : Nat) : KMap Nat ChanEntry :=
  if epoch == s.epoch then s.cond.committed else s.cond.staged

/-- Blocks whose exponent the commit of an epoch changes, or changed, by a restart (R159). -/
def State.restartedIn (s : State) (epoch : Nat) : List Nat :=
  if epoch == s.epoch then s.cond.restarted
  else s.cond.touched.filter fun b => decide (s.liveExp b ≠ (tblBlock s.cond.staged b).expInit)

/-! ### The buffer -/

/-- A slot's part of the buffer. -/
def State.dskSlot (s : State) (slot : Nat) : DskSlot := s.dsk.getD slot {}

/-- Replace a slot's part of the buffer. -/
def State.setDsk (s : State) (slot : Nat) (d : DskSlot) : State := { s with dsk := s.dsk.put slot d }

/-- Block places of the pool in use (R50). -/
def State.poolUsed (s : State) : Nat :=
  (s.dsk.map fun e => (e.2.events.map (·.blocks.length)).foldl (· + ·) 0).foldl (· + ·) 0

/-- An event leaves the buffer, which remembers the numbers of the last 64 (R49). -/
def dskLeave (d : DskSlot) (num : Nat) : DskSlot :=
  { d with events := removeFirst (·.num == num) d.events, gone := lastN 64 (d.gone ++ [num]) }

/-- The copy of a block that a mark's epoch selects (R149). -/
def pickCopy (d : DskBlock) (epoch : Nat) : ConvBlock := if epoch == d.epoch then d.cur else d.next.getD d.cur

/-- The blocks of an event that owe ADAPTED to a restart (R159): the slot's first event of the epoch for each. -/
def State.restartOwed (s : State) (slot epoch : Nat) (blocks : List DskBlock) : List Nat :=
  (s.restartedIn epoch).filter fun b =>
    blocks.any (·.block == b) && !(s.dskSlot slot).adaptGiven.contains (epoch, b)

/-- An event that is not injected leaves the buffer and waits for its mark (R47, R48). -/
def State.dskDrop (s : State) (slot : Nat) (ev : DskEvent) (overrun : Bool) : State :=
  let d := dskLeave (s.dskSlot slot) ev.num
  s.setDsk slot { d with noinj := d.noinj ++
    [{ num := ev.num, since := s.cycle, overrun := overrun, incomplete := ev.incomplete, blocks := ev.blocks }] }

/-- The copy of a block that leaves with an event. Before C, the copy of a block to be restarted carries the number that its
window would have if the restart came now (R159). [DEDUCED, log 52] -/
def State.leavingCopy (s : State) (d : DskBlock) (epoch : Nat) : ConvBlock :=
  let c := pickCopy d epoch
  if epoch != s.epoch && s.cond.touched.contains d.block then
    { c with window := (s.reg .CND_BSTATE_WINDOW d.block + 1) % 65536 }
  else c

/-- A scale token with another window number (Table "SCALE_BLK payload"). -/
def Token_withWindow (t : Token) (w : Nat) : Token :=
  let p := t.payload.toNat
  Token_sealed { t with payload := BitVec.ofNat 256 (p % 2 ^ 16 + w % 65536 * 2 ^ 16 + p / 2 ^ 32 * 2 ^ 32) }

/-- Cycle C settles the restarted windows' numbers (R159): in the new-table copies that the buffer keeps, and in the tokens of
the new epoch that have not left it yet, with their retention copies. -/
def State.settleWindows (s : State) (touched : List Nat) (epoch : Nat) : State :=
  if touched.isEmpty then s
  else
    let number := fun (b : Nat) => s.reg .CND_BSTATE_WINDOW b
    let recsOf := fun (slot : Nat) => match SlotNet_next (s.netSlot slot) with
      | some n => n.img.chans.filter fun r => touched.contains r.block
      | none => []
    let every := ((List.range 16).map recsOf).foldr (· ++ ·) []
    let fix := fun (recs : List ChanRec) (t : Token) =>
      match recs.find? (fun r => t.block == r.index && t.stream == r.sstream) with
      | some r => if t.kind == 2 && t.epochLo == epoch % 256 then Token_withWindow t (number r.block) else t
      | none => t
    let block := fun (d : DskBlock) =>
      if touched.contains d.block then { d with next := d.next.map fun c => { c with window := number d.block % 65536 } } else d
    { s with
      dsk := s.dsk.map fun e => (e.1, { e.2 with events := e.2.events.map fun v => { v with blocks := v.blocks.map block } })
      fab := { s.fab with inj := s.fab.inj.map fun e => (e.1, e.2.map fun x =>
        if s.cycle < x.cyc then { x with tok := fix (every.filter (·.row == e.1)) x.tok } else x) }
      memS := { s.memS with retQueue := s.memS.retQueue.map fun r =>
        if s.cycle ≤ r.mark then { r with tokens := r.tokens.map (fix (recsOf r.slot)) } else r } }

/-! ### Release (R78) -/

/-- The tokens of an event by injection row, ascending conditioner block in each (R78, R101, R465); LAST comes with the
streams' ends. -/
def State.eventTokens (s : State) (slot : Nat) (net : Net) (epoch tag : Nat) (blocks : List DskBlock) : List (Nat × Token) :=
  let owed := s.restartOwed slot epoch blocks
  let t0 : Token := { tag := tag, epochLo := epoch % 256 }
  let chans := sortBy (·.block) net.img.chans
  let all := (chans.map fun r =>
    match blocks.find? (·.block == r.block) with
    | some d =>
      let c := s.leavingCopy d epoch
      (condTokens { c with adapted := c.adapted || owed.contains r.block } r t0).map fun t => (r.row, t)
    | none => (voidTokens (tblBlock (s.tableIn epoch) r.block).q4 r t0).map fun t => (r.row, t)).foldr (· ++ ·) []
  let rows := sortBy (·.1) all
  let marked := markLast (rows.map (·.2))
  (rows.map (·.1)).zip (marked.map Token_sealed)

/-- The rows' token counts: the largest is n_max (R78). -/
def rowMax (ts : List (Nat × Token)) : Nat :=
  ((List.range 24).map fun r => (ts.filter (·.1 == r)).length).foldl max 1

/-- The mark an event would take if its release began in this cycle, when the spacing and the marks given allow it (R48). [DEDUCED, log 54] -/
def State.markAllowed (s : State) (slot : Nat) (n : Nat) : Option Nat :=
  let d := s.dskSlot slot
  let mark := s.cycle + n - 1
  match s.netIn slot (s.markEpoch mark) with
  | none => some mark
  | some net =>
    let spaced := match d.lastInj with | some p => decide (p + net.img.ii ≤ mark) | none => true
    if spaced && !d.marks.contains mark then some mark else none

/-- The event that is released next: the one that became ready first. -/
def dskHead (d : DskSlot) : Option DskEvent := minBy (fun e => e.ready.getD 0) (d.events.filter (·.ready.isSome))

/-- The head event can begin its release in this cycle. [DEDUCED, log 54] -/
def State.headGoes (s : State) (slot : Nat) : Bool :=
  match dskHead (s.dskSlot slot), s.netIn slot s.epoch with
  | some ev, some net => (s.markAllowed slot (rowMax (s.eventTokens slot net s.epoch 0 ev.blocks))).isSome
  | _, _ => false

/-- An event becomes ready for release; with four waiting for their spacing it is an overrun (R48). -/
def State.dskReady (s : State) (slot : Nat) (ev : DskEvent) : State :=
  let d := s.dskSlot slot
  let waiting := (d.events.filter (·.ready.isSome)).length - b2n (s.headGoes slot)
  if 4 ≤ waiting then s.dskDrop slot ev true
  else s.setDsk slot { d with events := updateFirst (·.num == ev.num) (fun _ => { ev with ready := some s.cycle }) d.events }

/-- An event is declared incomplete and follows INC_POLICY (R46, R47). -/
def State.dskIncomplete (s : State) (slot : Nat) (ev : DskEvent) : State :=
  let ev := { ev with incomplete := true }
  if s.flag .VRD_CTRL_INC_POLICY slot then s.dskReady slot ev else s.dskDrop slot ev false

/-- The oldest event in assembly that does not wait for its spacing (R50). -/
def dskOldest (d : DskSlot) : Option DskEvent := minBy (·.t0) (d.events.filter (·.ready.isNone))

/-- A block enters one slot's buffer (R49, R50); a block that meets both limits finds the pool full first, is discarded, and no event
is evicted. [DESIGN CHOICE, log 101] -/
def State.dskEnter (s : State) (slot : Nat) (net : Net) (num : Nat) (blk : DskBlock) : State :=
  let d := s.dskSlot slot
  match d.events.find? (·.num == num) with
  | some ev =>
    if ev.incomplete then s.bump .VRD_CNT_INGRESS_LATE_BLOCK slot
    else if ev.blocks.any (·.block == blk.block) then s.bump .VRD_CNT_INGRESS_DUP_BLOCK slot
    else if 16384 ≤ s.poolUsed then s.bump .VRD_CNT_INGRESS2_POOL_FULL slot
    else
      let ev := { ev with blocks := ev.blocks ++ [blk] }
      let s := s.setDsk slot { d with events := updateFirst (·.num == num) (fun _ => ev) d.events }
      if net.img.chans.all (fun c => ev.blocks.any (·.block == c.block)) then s.dskReady slot ev else s
  | none =>
    if d.gone.contains num then s.bump .VRD_CNT_INGRESS_LATE_BLOCK slot
    else if 16384 ≤ s.poolUsed then s.bump .VRD_CNT_INGRESS2_POOL_FULL slot
    else
      let s := if 16 ≤ d.events.length then
          match dskOldest d with
          | some old => (s.bump .VRD_CNT_INGRESS2_EVICTED slot).dskIncomplete slot old
          | none => s
        else s
      let d := s.dskSlot slot
      let ev : DskEvent := { num := num, t0 := s.cycle, blocks := [blk] }
      let s := s.setDsk slot { d with events := d.events ++ [ev] }
      if net.img.chans.all (fun c => c.block == blk.block) then s.dskReady slot ev else s

/-- A converted block enters the buffer of every slot whose committed channel set holds it; one that enters none counts
(R49, R468). -/
def State.dskBlock (s : State) (num : Nat) (blk : DskBlock) : State :=
  let slots := (List.range 16).filterMap fun i =>
    match (s.netSlot i).live with
    | some net => if net.img.chans.any (·.block == blk.block) then some (i, net) else none
    | none => none
  if slots.isEmpty then s.bump .CND_CNT_MISC_NOSLOT
  else slots.foldl (fun s e => s.dskEnter e.1 e.2 num blk) s

/-! ### Commands -/

/-- EVENT_INCOMPLETE (R46): the first event whose slack has run out with blocks missing is declared incomplete. -/
def eventIncomplete (s : State) (slot : Nat) : State :=
  match ((s.dskSlot slot).events.filter fun e => e.ready.isNone && decide (e.t0 + s.reg .VRD_INGRESS_SLACK slot ≤ s.cycle)).head? with
  | some ev => s.dskIncomplete slot ev
  | none => s

/-- An event ends without a mark: each of its blocks counts as late (R468). -/
def State.dskCancel (s : State) (slot : Nat) (ev : DskEvent) : State :=
  (s.setDsk slot (dskLeave (s.dskSlot slot) ev.num)).bump .VRD_CNT_INGRESS_LATE_BLOCK slot ev.blocks.length

/-- An unload's cycle C: the slot's events in assembly or waiting end (R468). -/
def State.dskUnload (s : State) (slot : Nat) : State :=
  let s := (s.dskSlot slot).events.foldl (fun s ev => s.dskCancel slot ev) s
  let d := s.dskSlot slot
  s.setDsk slot { d with noinj := [], lastInj := none, given := 0, lastTag := none, adaptGiven := [] }

/-- Note a mark given (R48). -/
def State.noteMark (s : State) (slot mark : Nat) (d : DskSlot) : State :=
  s.setDsk slot { d with marks := mark :: d.marks.filter (fun m => decide (s.cycle ≤ m)) }

/-- The tokens leave the buffer on their rows: the k-th of n on a row in cycle mark − n + 1 + k (R78). -/
def injEntries (mark : Nat) (ts : List (Nat × Token)) : List (Nat × Entry) :=
  ((List.range 24).map fun r =>
    let q := (ts.filter (·.1 == r)).map (·.2)
    ((List.range q.length).zip q).map fun e => (r, ({ tok := e.2, cyc := mark + 1 + e.1 - q.length } : Entry))).foldr (· ++ ·) []

/-- The retention entry of an injected event (R266), its tokens in the order they leave; RET_EN decides at its mark. -/
def State.retQueueEvent (s : State) (slot num tag epoch mark : Nat) (es : List (Nat × Entry)) : State :=
  if s.cycle ≤ mark || s.flag .MEM_CTRL_RET_EN then
    let toks := (sortBy (·.2.cyc) es).map (·.2.tok)
    let e : RetEntry := { slot := slot, tag := tag, epoch := epoch, num := num, mark := mark, tokens := toks
                          markTB := if mark == s.cycle then s.tb.tb else 0
                          len := (64 + 48 * toks.length + 63) / 64 * 64 }
    { s with memS := { s.memS with retQueue := s.memS.retQueue ++ [e] } }
  else s

/-- EVENT_RELEASE (R34, R41, R48, R78, R93): the event that became ready first begins its release, unless its mark would come
too close to the last one's; its mark fixes its epoch, and it takes the next tag. [DEDUCED, log 54] -/
def eventRelease (s : State) (slot : Nat) : State :=
  let d := s.dskSlot slot
  match dskHead d with
  | none => s
  | some ev =>
    let size := fun (net : Net) => rowMax (s.eventTokens slot net s.epoch 0 ev.blocks)
    let n := match (s.netSlot slot).live with | some net => size net | none => 1
    match s.markAllowed slot n with
    | none => s
    | some mark =>
      let epoch := s.markEpoch mark
      match s.netIn slot epoch with
      | none => s.dskCancel slot ev
      | some net =>
        let given := if d.tagImg == net.img.imageId then d.given else 0
        let tag := net.img.tagBase + given % max 1 net.img.tagCount
        let es := injEntries mark (s.eventTokens slot net epoch tag ev.blocks)
        let owed := s.restartOwed slot epoch ev.blocks
        let d := dskLeave d ev.num
        let s := s.noteMark slot mark { d with
          lastInj := some mark, given := given + 1, tagImg := net.img.imageId, lastTag := some tag
          adaptGiven := d.adaptGiven ++ owed.map (fun b => (epoch, b)) }
        let s := { s with fab := { s.fab with
          inj := es.foldl (fun (m : KMap Nat (List Entry)) (e : Nat × Entry) => m.upd e.1 [] (· ++ [e.2])) s.fab.inj } }
        let ve : VEvent := { num := ev.num, tag := tag, epoch := epoch, bank := net.bank, lnet := net.img.lnet, mark := mark
                             ingressTB := if mark == s.cycle then s.tb.tb else 0, incomplete := ev.incomplete }
        let s := { s with vrd := s.vrd.upd slot {} (fun v => { v with events := v.events ++ [ve], taken := v.taken.filter (· != (tag, epoch % 256)) }) }
        s.retQueueEvent slot ev.num tag epoch mark es

/-- NOINJECT_MARK (R48, R157): the oldest event that is not injected takes its mark in this cycle, when no other event of
the slot does; its notice to the verdict unit carries ADAPTED of the blocks converted for it. -/
def noinjectMark (s : State) (slot : Nat) : State :=
  let d := s.dskSlot slot
  match d.noinj with
  | [] => s
  | x :: rest =>
    if d.marks.contains s.cycle then s
    else
      let epoch := s.markEpoch s.cycle
      match s.netIn slot epoch with
      | none => s.setDsk slot { d with noinj := rest }
      | some net =>
        let owed := s.restartOwed slot epoch x.blocks
        let adapted := !owed.isEmpty || x.blocks.any (fun b => (pickCopy b epoch).adapted)
        let tag := (if d.tagImg == net.img.imageId then d.lastTag else none).getD (net.img.tagBase + net.img.tagCount - 1)
        let s := s.noteMark slot s.cycle { d with
          noinj := rest, adaptGiven := d.adaptGiven ++ owed.map (fun b => (epoch, b)) }
        let ve : VEvent := { num := x.num, tag := tag, epoch := epoch, bank := net.bank, lnet := net.img.lnet, mark := s.cycle
                             ingressTB := s.tb.tb, injected := false, incomplete := x.incomplete, overrun := x.overrun
                             adapted := adapted }
        { s with vrd := s.vrd.upd slot {} (fun v => { v with events := v.events ++ [ve] }) }

/-- EVENT_INCOMPLETE (R46). -/
def execEventIncomplete (slot : Fin 16) (s : State) : Answer := awake s (eventIncomplete s slot.val)
/-- EVENT_RELEASE (R78). -/
def execEventRelease (slot : Fin 16) (s : State) : Answer := awake s (eventRelease s slot.val)
/-- NOINJECT_MARK (R48). -/
def execNoinjectMark (slot : Fin 16) (s : State) : Answer := awake s (noinjectMark s slot.val)

end Sys2Proof.Machine
end

