-- ==== Sys2Proof/Machine/Opalxis.lean ====
section
/-! DEFINITION. The Opalxis ports (R273 to R297): frames, retry, violations, the port states, markers, DEEP and the test
facilities. -/
namespace Sys2Proof.Machine
open Sys2Proof

/-! ### Ports -/

/-- A port beside its registers. -/
def State.port (s : State) (p : Nat) : OpxPort := s.opx.getD p {}

/-- Replace a port. -/
def State.setPort (s : State) (p : Nat) (x : OpxPort) : State := { s with opx := s.opx.put p x }

/-- Change a port. -/
def State.updPort (s : State) (p : Nat) (f : OpxPort → OpxPort) : State := s.setPort p (f (s.port p))

/-- OPX_PSTATp.STATE: 0 DISABLED, 1 TRAINING, 2 UP, 3 DEEP, 4 DARK. -/
def State.portSt (s : State) (p : Nat) : Nat := s.reg .OPX_PSTAT_STATE p

/-- A port is UP. -/
def State.portUp (s : State) (p : Nat) : Bool := s.portSt p == 2

/-- Instance of a lane's register. -/
def lx (p l : Nat) : Nat := 8 * p + l

/-- A lane's taps: adapting in TRAINING, UP and DARK unless they are held (R280, R282). -/
def State.laneTaps (s : State) (i : Nat) : Nat :=
  if [1, 2, 4].contains (s.reg .OPX_PSTAT_STATE (i / 8)) && s.reg .OPX_LCTRL_DFE_FREEZE i == 0 then Config.dfeTaps i s.cycle % 2 ^ 60
  else s.reg .OPX_LDFE_TAPS i

/-- Hold a lane's taps at what they are (R280). -/
def State.holdTaps (s : State) (i : Nat) : State := s.setReg .OPX_LDFE_TAPS i (s.laneTaps i)

/-- Enter a port state (R282): OPX_PSTATp, the summary and trace point 4 (R438). A port whose receivers stop keeps their taps, and
one that stops sending begins its MARKER rows anew. -/
def State.enterPort (s : State) (p st : Nat) : State :=
  if s.portSt p == st then s.updPort p (fun x => { x with since := s.cycle })
  else
    let s := if st == 0 || st == 3 then
        ((List.range 8).foldl (fun s l => s.holdTaps (lx p l)) s).updPort p (fun x => { x with markers := none })
      else s
    let s := (s.setReg .OPX_PSTAT_STATE p st).updPort p (fun x => { x with since := s.cycle })
    let s := s.setReg .OPX_SUMMARY_UP 0 (setBits (s.reg .OPX_SUMMARY_UP) p 1 (b2n (st == 2)))
    let s := s.setReg .OPX_SUMMARY_DARK 0 (setBits (s.reg .OPX_SUMMARY_DARK) p 1 (b2n (st == 4)))
    s.trace 4 .opx [p, st, s.reg .OPX_PSTAT_LAST_CAUSE p]

/-- Entry to TRAINING: a freeze of the taps is lifted (R280), alignment starts from scratch, T_TRAIN runs (R282). -/
def State.enterTraining (s : State) (p : Nat) : State :=
  let s := (List.range 8).foldl (fun s l =>
    (s.setReg .OPX_LCTRL_DFE_FREEZE (lx p l) 0).setReg .OPX_LSTAT_ALIGNED (lx p l) 0) s
  let s := s.updPort p (fun x => { x with readyRows := 0, deep := .none, retryN := none, retryE := none, unacked := 0
                                          unackedFrom := none, roleOk := false, versionOk := false
                                          owesRetry := false, skipN := false, skipE := false
                                          lanes := x.lanes.map (fun e => (e.1, { e.2 with synced := false })) })
  s.enterPort p 1

/-- An UP port drops to TRAINING with a cause (R282). -/
def State.dropPort (s : State) (p cause : Nat) : State :=
  if s.portUp p then ((s.bump .OPX_PCNT_LINK_DROPS p).setReg .OPX_PSTAT_LAST_CAUSE p cause).enterTraining p else s

/-! ### Frames (R286, R289) -/

/-- One bit of the CRC-16 of R286: polynomial 0x8BB7, not reflected. -/
def crc16Bit (c : Nat) : Nat := if bitAt c 15 then (2 * c % 65536) ^^^ 0x8BB7 else 2 * c % 65536

/-- One byte of the CRC-16. -/
def crc16Byte (c b : Nat) : Nat :=
  crc16Bit (crc16Bit (crc16Bit (crc16Bit (crc16Bit (crc16Bit (crc16Bit (crc16Bit (c ^^^ (b % 256 * 256)))))))))

/-- CRC-16 with initial value 0xFFFF. -/
def crc16 (bs : List Nat) : Nat := bs.foldl crc16Byte 0xFFFF

/-- The 16-bit frame header (Table "Frame header"). -/
def frameHeader (ftype seq len : Nat) : List Nat := leBytes 2 (ftype % 8 + seq % 64 * 8 + len % 128 * 512)

/-- The trailer's value: CRC-16 up to LEN 8, CRC-32C above (R286). -/
def frameCrc (ftype seq : Nat) (payload : List Nat) : Nat :=
  let len := payload.length / 8
  let body := frameHeader ftype seq len ++ payload
  if len ≤ 8 then crc16 body else crc32c body

/-- A received frame's CRC checks, its length being that of its header. -/
def frameGood (ftype : Nat) (f : Frame) : Bool :=
  f.payload.length == 8 * f.len && decide (f.len < 128) && f.crc == frameCrc ftype (f.seq % 64) f.payload

/-- The trailer bytes. -/
def frameTrailer (f : Frame) : List Nat := if f.len ≤ 8 then leBytes 2 f.crc else leBytes 4 f.crc

/-- Sequenced types (Table "Frame types"). -/
def sequenced (ftype : Nat) : Bool := [1, 2, 3, 4, 6].contains ftype

/-- Types of the express stream. -/
def expressType (ftype : Nat) : Bool := ftype == 3 || ftype == 4

/-- The roles' accepted types (Table "Frames by role"). -/
def roleAccepts (role ftype : Nat) : Bool :=
  match role with
  | 0 => [0, 1, 7].contains ftype
  | 1 => [0, 2, 3, 4, 5, 6, 7].contains ftype
  | 2 => [0, 7].contains ftype
  | _ => [0, 7].contains ftype

/-- The roles' sent types. -/
def roleSends (role ftype : Nat) : Bool :=
  match role with
  | 0 => [0, 5, 7].contains ftype
  | 1 => [0, 2, 3, 4, 5, 6, 7].contains ftype
  | 2 => [0, 2, 3, 4, 5, 7].contains ftype
  | _ => false

/-- A frame leaves a port. A lane with an armed CRC inversion spends it on the next sequenced frame (R296). -/
def State.putFrame (s : State) (p ftype seq : Nat) (payload : List Nat) (cyc : Nat) (fs : Bool) : State :=
  let x := s.port p
  match (if sequenced ftype then x.lanes.find? (·.2.injCrc) else none) with
  | some (l, y) =>
    (s.setPort p { x with lanes := x.lanes.put l { y with injCrc := false, injected := y.injected + 1 } }).emit
      (.frame p ftype (seq % 64) payload cyc true fs)
  | none => s.emit (.frame p ftype (seq % 64) payload cyc false fs)

/-- An unsequenced frame leaves an UP port. [DEDUCED, log 78] -/
def State.sendPlain (s : State) (p ftype : Nat) (payload : List Nat) : State :=
  if s.portUp p then s.putFrame p ftype 0 payload s.cycle (ftype == 5) else s

/-- A CTRL frame (Table "CTRL payload"). -/
def State.sendCtrl (s : State) (p kind stream seqN seqE reason ftype : Nat) : State :=
  s.sendPlain p 7 (leBytes 8 (kind + stream % 2 * 2 ^ 8 + seqN % 64 * 2 ^ 16 + seqE % 65536 * 2 ^ 24 + reason % 256 * 2 ^ 40
    + ftype % 8 * 2 ^ 48))

/-- CTRL ACK with the next SEQ expected of both streams (R291). -/
def State.sendAck (s : State) (p : Nat) : State :=
  let x := s.port p
  (s.setPort p { x with unacked := 0, unackedFrom := none }).sendCtrl p 1 0 x.rxN x.rxE 0 0

/-- CTRL RETRY naming the expected SEQ of a stream (R291). -/
def State.sendRetry (s : State) (p : Nat) (express : Bool) : State :=
  let x := s.port p
  let s := s.bump .OPX_PCNT_RETRY_SENT p
  if express then (s.setPort p { x with retryE := some s.cycle }).sendCtrl p 2 1 0 x.rxE 0 0
  else (s.setPort p { x with retryN := some s.cycle }).sendCtrl p 2 0 x.rxN 0 0 0

/-- A sequenced frame is discarded: the first discard after an accepted frame is answered with a RETRY (R291), unless the normal
stream's is held until the TOKEN buffer has room (R294). [DEDUCED, log 79] -/
def State.discardSeq (s : State) (p : Nat) (express : Bool) : State :=
  let x := s.port p
  if (if express then x.retryE.isSome else x.retryN.isSome || x.owesRetry) then s else s.sendRetry p express

/-- Send a CTRL NAK and note its reason. -/
def State.sendNak (s : State) (p reason ftype stream seqN seqE : Nat) : State :=
  let s := s.updPort p (fun x => { x with nakAt := some s.cycle })
  let s := (s.bump .OPX_PCNT_VIOL_NAK_SENT p).setReg .OPX_PLAST_NAK_OUT p reason
  s.sendCtrl p 3 stream seqN seqE reason ftype

/-- A NAK that the limit of one in 1,024 cycles lets go (R295). -/
def State.limitedNak (s : State) (p reason ftype stream seqN seqE : Nat) : State :=
  match (s.port p).nakAt with
  | some c => if s.cycle < c + 1024 then s else s.sendNak p reason ftype stream seqN seqE
  | none => s.sendNak p reason ftype stream seqN seqE

/-- A partner's violation (R295): counted, recorded once a second for each reason, answered at most once in 1,024 cycles. -/
def State.violation (s : State) (p reason ftype : Nat) (seqN : Nat := 0) : State :=
  let s := s.bump .OPX_PCNT_VIOL_VIOL p
  let x := s.port p
  let sec := s.cycle / 1200000000
  let s := if x.warned.get? reason == some sec then s
    else (s.setPort p { x with warned := x.warned.put reason sec }).raise clsWarn .opx 0x000F 0xFFFF [p, reason, ftype]
  s.limitedNak p reason ftype 0 seqN 0

/-! ### Receiving (R291, R294, R295) -/

/-- An accepted sequenced frame: the expected SEQ advances, and an ACK follows the fourth (R291). -/
def State.acceptSeq (s : State) (p : Nat) (express : Bool) (next : Nat) : State :=
  let s := s.updPort p fun x =>
    let x := if express then { x with rxE := next % 65536, rxEAny := false, retryE := none }
      else { x with rxN := next % 64, retryN := none }
    { x with unacked := x.unacked + 1, unackedFrom := some (x.unackedFrom.getD s.cycle) }
  if 4 ≤ (s.port p).unacked then s.sendAck p else s

/-- The payload SEQ of a VERDICT or VOID frame (R64). -/
def payloadSeq (f : Frame) : Nat := leAt f.payload 10 2

/-- A sequenced frame carries the next SEQ of its stream (R291). -/
def State.seqNext (s : State) (p ftype : Nat) (f : Frame) : Bool :=
  let x := s.port p
  if expressType ftype then
    decide (16 ≤ f.payload.length) && payloadSeq f % 64 == f.seq % 64 && (x.rxEAny || payloadSeq f == x.rxE)
  else f.seq % 64 == x.rxN

/-- Reserved fields are judged unless the partner's minor version is higher (R7, R8). -/
def State.judgeReserved (s : State) (p : Nat) : Bool := s.reg .OPX_PSTAT_PARTNER_MINOR p == 0

/-- The receiver is skipping to a stream's next _FS block (R286, R291). -/
def portSkips (x : OpxPort) (express : Bool) : Bool := if express then x.skipE else x.skipN

/-- Set or end the skip of a stream. -/
def State.setSkip (s : State) (p : Nat) (express v : Bool) : State :=
  s.updPort p (fun x => if express then { x with skipE := v } else { x with skipN := v })

/-- A frame reaches an UP port's receiver (R291): checked, sequenced and acknowledged, refused when its type or its sender is
(R273, R21), else handled. After a failed CRC nothing of the stream is taken before its next _FS block. [DEDUCED, log 78] -/
def State.receiveFrame (s : State) (p ftype : Nat) (f : Frame) (handle : State → State) : State :=
  if !s.portUp p || (portSkips (s.port p) (expressType ftype) && !f.fs) then s
  else if !frameGood ftype f then
    let s := (s.bump .OPX_PCNT_CRC_CRC p).setSkip p (expressType ftype) true
    if sequenced ftype then s.discardSeq p (expressType ftype) else s
  else if sequenced ftype && !s.seqNext p ftype f then
    ((s.setSkip p (expressType ftype) false).bump .OPX_PCNT_CRC_SEQ p).discardSeq p (expressType ftype)
  else
    let s := s.setSkip p (expressType ftype) false
    let s := if sequenced ftype then
        s.acceptSeq p (expressType ftype) ((if expressType ftype then payloadSeq f else f.seq) + 1)
      else s
    if !roleAccepts (s.reg .OPX_PCTRL_ROLE p) ftype then s.violation p 1 ftype
    else if s.reg .OPX_PCTRL_ROLE p == 1 && s.flag .OPX_PSTAT_SAME_SYS p && ftype != 7 then s.violation p 6 ftype
    else handle s

/-! ### Sending sequenced frames (R290, R292) -/

/-- Departure delay of a port's verdict-path frames (Table "Output delays"). -/
def portDelay (p : Nat) : Nat := if p < 2 || 14 ≤ p then 26 else if p < 4 || 12 ≤ p then 25 else 24

/-- The express history: frames that departed within the last 1,024 cycles (R290). -/
def State.expressHeld (s : State) (p : Nat) : List SentFrame :=
  (s.port p).history.filter fun h => decide (s.cycle ≤ h.cyc + 1024)

/-- Release an express frame whose payload is made from its payload SEQ: it enters the history, and an UP port of a role that
sends it lets it go after its fixed delay (R62, R285, R290, R293). [DEDUCED, log 55] -/
def State.sendExpress (s : State) (p ftype : Nat) (mk : (seq : Nat) → List Nat) : State :=
  let x := s.port p
  let payload := mk x.txE
  let goes := s.portUp p && roleSends (s.reg .OPX_PCTRL_ROLE p) ftype
  let h : SentFrame := { ftype := ftype, seq := x.txE, payload := payload, cyc := s.cycle + portDelay p, sent := goes }
  let run := (s.expressHeld p).any fun g => g.sent && g.cyc == h.cyc
  let s := s.setPort p { x with txE := (x.txE + 1) % 65536, history := s.expressHeld p ++ [h] }
  if goes then s.putFrame p ftype h.seq payload h.cyc (!run) else s

/-- Start normal frames while the replay buffer has room and no DEEP request holds them (R284, R290). -/
def State.flushNormal (s : State) (p : Nat) : Nat → State
  | 0 => s
  | n + 1 =>
    let x := s.port p
    match x.txWait with
    | [] => s
    | (ftype, payload) :: rest =>
      if !s.portUp p || decide (16 ≤ x.replay.length) || x.deep != .none then s
      else
        let h : SentFrame := { ftype := ftype, seq := x.txN, payload := payload, cyc := s.cycle }
        let s := s.setPort p { x with txN := (x.txN + 1) % 64, replay := x.replay ++ [h], txWait := rest }
        (s.putFrame p ftype h.seq payload s.cycle false).flushNormal p n

/-- Queue a sequenced normal frame. [DEDUCED, log 78] -/
def State.sendNormal (s : State) (p ftype : Nat) (payload : List Nat) : State :=
  let s := s.updPort p (fun x => { x with txWait := x.txWait ++ [(ftype, payload)] })
  s.flushNormal p (s.port p).txWait.length

/-- Resend frames, identical to the originals, beginning at an _FS block (R292). -/
def State.resend (s : State) (p : Nat) (fs : List SentFrame) (cyc : Nat) : State :=
  match fs with
  | [] => s
  | h :: rest =>
    (rest.foldl (fun s (g : SentFrame) => s.putFrame p g.ftype g.seq g.payload cyc false)
      (s.putFrame p h.ftype h.seq h.payload cyc true)).bump .OPX_PCNT_RETRY_SERVED p

/-- Resend the normal stream from a SEQ (R292). [DEDUCED, log 79] -/
def State.retryNormal (s : State) (p seq : Nat) : State :=
  let x := s.port p
  if x.replay.any (·.seq == seq % 64) then s.resend p (x.replay.dropWhile (·.seq != seq % 64)) s.cycle
  else if seq % 64 == x.txN then s
  else s.violation p 8 7 seq

/-- How many SEQs of the express stream lie between one and the next to be sent. -/
def sentBehind (x : OpxPort) (seq : Nat) : Nat := (x.txE + 65536 - seq % 65536) % 65536

/-- The frames that a RETRY of the express stream may send again: held, sent before, and not older than the SEQ it names. A frame
that was never sent counts as no longer held (R293). A SEQ that is yet to come names no frame: all of them. [DEDUCED, log 79] -/
def State.resendable (s : State) (p seq : Nat) : List SentFrame :=
  let x := s.port p
  (s.expressHeld p).filter fun h => h.sent && (decide (32768 ≤ sentBehind x seq) || decide (sentBehind x h.seq ≤ sentBehind x seq))

/-- Resend the express stream from a payload SEQ, or answer REPLAY_LOST and resend from the oldest held (R292, R293). [DEDUCED, log 79] -/
def State.retryExpress (s : State) (p seq : Nat) : State :=
  let x := s.port p
  let held := s.resendable p seq
  let oldest := match held with | h :: _ => h.seq | [] => x.txE
  if seq % 65536 == x.txE then s
  else if oldest == seq % 65536 then s.resend p held (s.cycle + portDelay p)
  else
    let lost := if decide (sentBehind x seq < 32768) then (oldest + 65536 - seq % 65536) % 65536 else 0
    let s := (s.bump .OPX_PCNT_NAK_EXPRESS_LOST p lost).limitedNak p 9 7 1 0 oldest
    (s.raise clsFault .opx 0x000D).resend p held (s.cycle + portDelay p)

/-! ### DEEP (R284) -/

/-- A DEEP request is denied: DEEP clears and the port stays UP. -/
def State.denyDeep (s : State) (p : Nat) : State :=
  let s := (s.setReg .OPX_PCTRL_DEEP p 0).bump .OPX_PCNT_MISC_DEEP_DENIED p
  let s := s.updPort p (fun x => { x with deep := .none })
  s.flushNormal p (s.port p).txWait.length

/-- A draining request whose replay buffer is empty goes on to LPI blocks. -/
def State.deepDrained (s : State) (p : Nat) : State :=
  let x := s.port p
  match x.deep with
  | .drain _ => if x.replay.isEmpty then s.setPort p { x with deep := .lpi s.cycle 0 0 true } else s
  | _ => s

/-- A port named in the VRD_PORTS.MAP of a committed slot. -/
def State.carriesVerdicts (s : State) (p : Nat) : Bool :=
  (List.range 16).any fun i => (s.netSlot i).live.isSome && bitAt (s.reg .VRD_PORTS_MAP i) p

/-- DEEP (R284): a write of OPX_PCTRLp.DEEP. -/
def deep (s : State) (p : Nat) (value : Bool) : State :=
  if value then
    if s.portSt p == 3 then s.setReg .OPX_PCTRL_DEEP p 1
    else if (s.port p).deep != .none then s.setReg .OPX_PCTRL_DEEP p 1
    else
      let s := s.setReg .OPX_PCTRL_DEEP p 1
      if s.carriesVerdicts p || !s.portUp p then s.denyDeep p
      else (s.updPort p (fun x => { x with deep := .drain s.cycle })).deepDrained p
  else
    let was := s.flag .OPX_PCTRL_DEEP p
    let s := s.setReg .OPX_PCTRL_DEEP p 0
    if s.portSt p == 3 then (if was then s.enterTraining p else s)
    else
      let s := s.updPort p (fun x => { x with deep := .none })
      s.flushNormal p (s.port p).txWait.length

/-- DEEP_TIMEOUT (R284): the buffer has not emptied in 1 ms, or no LPI came within 10 µs. -/
def deepTimeout (s : State) (p : Nat) : State :=
  match (s.port p).deep with
  | .drain since => if since + 1200000 ≤ s.cycle then s.denyDeep p else s
  | .lpi since _ received true => if received == 0 && decide (since + 12000 ≤ s.cycle) then s.denyDeep p else s
  | _ => s

/-- LPI (R284): LPI blocks arrive; a port that may answers, and after 64 each way it enters DEEP. -/
def lpi (s : State) (p blocks : Nat) : State :=
  if !s.portUp p || blocks == 0 then s
  else
    let go := fun (since sent received : Nat) (own : Bool) =>
      if 64 ≤ sent + blocks ∧ 64 ≤ received + blocks then
        (s.updPort p (fun x => { x with deep := .none })).enterPort p 3
      else s.updPort p (fun x => { x with deep := .lpi since (sent + blocks) (received + blocks) own })
    match (s.port p).deep with
    | .lpi since sent received own => go since sent received own
    | _ => if s.flag .OPX_PCTRL_DEEP_OK p then go s.cycle 0 0 false else s

/-! ### Markers and bring-up (R276, R279, R282, R283, R293) -/

/-- 13 FCLK cycles' worth of the period between MARKER rows: 16,384 rows of 262 unit intervals at 133.12 Gb/s are 503,040 / 13
cycles (R274, R279). -/
def markerPeriod13 : Nat := 503040

/-- Every lane of a port satisfies a test. -/
def allLanes (f : Nat → Bool) : Bool := (List.range 8).all f

/-- A lane of a port. [DESIGN CHOICE, log 81] -/
def State.lane (s : State) (p l : Nat) : OpxLane := (s.port p).lanes.getD l {}

/-- Change a lane. -/
def State.updLane (s : State) (p l : Nat) (f : OpxLane → OpxLane) : State :=
  s.updPort p (fun x => { x with lanes := x.lanes.upd l {} f })

/-- The scrambler seed of a lane (R276). -/
def laneSeed (l : Nat) : Nat := 0x40000000 + 0x01111111 * l

/-- The receiver is locked, aligned and synchronised on all lanes (RX_READY). -/
def State.rxReady (s : State) (p : Nat) : Bool :=
  allLanes fun l => !s.flag .OPX_LSTAT_LOL (lx p l) && s.flag .OPX_LSTAT_ALIGNED (lx p l) && (s.lane p l).synced

/-- The role a partner must advertise (Table "Frames by role"). -/
def partnerRole (role : Nat) : Option Nat := match role with | 0 => some 3 | 1 => some 1 | 2 => some 4 | _ => none

/-- The first bring-up condition that does not hold, as LAST_CAUSE (R282). [DEDUCED, log 80] -/
def State.trainCause (s : State) (p : Nat) : Nat :=
  if !allLanes (fun l => !s.flag .OPX_LSTAT_LOS (lx p l)) then 1
  else if !allLanes (fun l => !s.flag .OPX_LSTAT_LOL (lx p l)) then 2
  else if !allLanes (fun l => s.flag .OPX_LSTAT_ALIGNED (lx p l) && (s.lane p l).synced) then 3
  else if !(s.port p).roleOk then 4
  else if !(s.port p).versionOk then 5
  else 6

/-- The port returns to UP (R293): the streams resume or restart. -/
def State.portComesUp (s : State) (p session sys pport nextN nextE : Nat) : State :=
  let x := s.port p
  let s := s.setReg .OPX_PSESS_PARTNER p session
  let key := (session, sys, pport)
  let fresh := fun (s : State) =>
    s.updPort p (fun x => { x with lastUp := some key, rxN := 0, txN := 0, replay := [], rxEAny := true })
  let s := match x.lastUp with
    | some k =>
      if k == key then (((s.enterPort p 2).retryNormal p nextN).retryExpress p nextE)
      else ((fresh (s.bump .OPX_PCNT_MISC_DISCARDED p x.replay.length)).raise clsWarn .opx 0x000E).enterPort p 2
    | none => (fresh s).enterPort p 2
  s.flushNormal p (s.port p).txWait.length

/-- The lanes' part of a MARKER row (R279): alignment and synchronisation. -/
def State.markerLanes (s : State) (p : Nat) (row : List MarkerLane) (good : Bool) : State :=
  row.foldl (fun s m =>
    let l := m.payload % 16
    if 7 < l || s.flag .OPX_LSTAT_LOL (lx p l) then s
    else
      let s := (s.setReg .OPX_LSTAT_FIBRE (lx p l) m.fibre).setReg .OPX_LSTAT_SKEW (lx p l) (min m.skew 3)
      let s := s.updLane p l (fun y => { y with synced := true, rxScram := laneSeed l })
      s.setFlag .OPX_LSTAT_ALIGNED (lx p l) good) s

/-- A row aligns: eight distinct lanes, each within 3 rows and locked (R279). -/
def State.markerGood (s : State) (p : Nat) (row : List MarkerLane) : Bool :=
  row.length == 8 && row.all (fun m => decide (m.skew ≤ 3))
    && allLanes (fun l => (row.filter (fun m => m.payload % 16 == l)).length == 1 && !s.flag .OPX_LSTAT_LOL (lx p l))

/-- MARKER (R279, R282, R283): a MARKER row is received. [DEDUCED, log 80, 81] -/
def marker (s : State) (p : Nat) (row : List MarkerLane) : State :=
  if s.portSt p == 0 || s.portSt p == 3 then s
  else
    let good := s.markerGood p row
    let s := s.markerLanes p row good
    match row with
    | [] => s
    | m :: _ =>
      let w := m.payload
      let (sys, pport, role) := (bits w 8 6, bits w 4 4, bits w 14 3)
      let (major, minor, minMajor) := (bits w 24 8, bits w 32 8, bits w 40 8)
      let s := ((s.setReg .OPX_PSTAT_PARTNER_SYS p sys).setReg .OPX_PSTAT_PARTNER_PORT p pport).setReg .OPX_PSTAT_PARTNER_ROLE p role
      let s := ((s.setReg .OPX_PSTAT_PARTNER_MAJOR p major).setReg .OPX_PSTAT_PARTNER_MINOR p minor).setFlag
        .OPX_PSTAT_SAME_SYS p (sys == s.reg .CHIP_SYSID_ID)
      let s := s.updPort p (fun x => { x with
        roleOk := partnerRole (s.reg .OPX_PCTRL_ROLE p) == some role
        versionOk := decide (minMajor ≤ 1) && decide (1 ≤ major)
        readyRows := if bitAt w 17 then x.readyRows + 1 else 0
        lastMarker := if good then some s.cycle else x.lastMarker })
      if s.portUp p then (if good then s else s.dropPort p 3)
      else
        let x := s.port p
        if s.portSt p == 1 && good && s.rxReady p && x.roleOk && x.versionOk && decide (2 ≤ x.readyRows) then
          s.portComesUp p (bits w 72 16) sys pport (bits w 88 6) (bits w 96 16)
        else s

/-- The payload of a port's MARKER block on lane 0 (Table "Marker payload"). -/
def State.markerPayload (s : State) (p : Nat) : Nat :=
  let x := s.port p
  p * 2 ^ 4 + s.reg .CHIP_SYSID_ID * 2 ^ 8 + s.reg .OPX_PCTRL_ROLE p * 2 ^ 14 + b2n (s.rxReady p) * 2 ^ 17 + 1 * 2 ^ 24
    + 1 * 2 ^ 40 + 3 * 2 ^ 48 + s.reg .OPX_PSESS_LOCAL p * 2 ^ 72 + x.rxN * 2 ^ 88 + x.rxE * 2 ^ 96 + x.mcount % 65536 * 2 ^ 112

/-- A port's next MARKER row is due: its first slot, then every 16,384 rows (R279). -/
def State.markerDue (s : State) (p : Nat) : Bool :=
  match (s.port p).markers with
  | none => true
  | some (c, n) => decide (13 * c + n * markerPeriod13 ≤ 13 * s.cycle)

/-- The lanes whose slots carry the port's own blocks: no pattern generator and no far loopback replaces them (R296). -/
def State.ownLanes (s : State) (p : Nat) : List Nat :=
  (List.range 8).filter fun l =>
    !([1, 2].contains (s.reg .OPX_LCTRL_PATTERN (lx p l))) && s.reg .OPX_LCTRL_LOOP (lx p l) != 2

/-- MARKER_ROW_SEND (R276, R279): when the row is due, an enabled port that is not DEEP sends a MARKER block on its lanes and resets
their scramblers. With near loopback on all eight the row comes back to its own receiver (R296). [DEDUCED, log 81] -/
def markerRowSend (s : State) (p : Nat) : State :=
  if s.portSt p == 0 || s.portSt p == 3 || !s.markerDue p then s
  else
    let payload := fun (l : Nat) => s.markerPayload p + l
    let row := (List.range 8).map fun l => ({ fibre := l, payload := payload l } : MarkerLane)
    let s := s.emit (.marker p ((s.port p).mcount % 65536) ((s.ownLanes p).flatMap fun l => leBytes 32 (payload l)))
    let s := (s.ownLanes p).foldl (fun s l => s.updLane p l (fun y => { y with txScram := laneSeed l })) s
    let s := s.updPort p fun x => { x with
      mcount := (x.mcount + 1) % 65536
      markers := match x.markers with | none => some (s.cycle, 1) | some (c, n) => some (c, n + 1) }
    if (s.ownLanes p).length == 8 && allLanes (fun l => s.reg .OPX_LCTRL_LOOP (lx p l) == 1) then marker s p row else s

/-! ### Blocks on a lane (R275, R276, R278, R296) -/

/-- The six valid block headers (Table "Block headers"). -/
def validHeader (h : Nat) : Bool := [0b0101, 0b0110, 0b1010, 0b1001, 0b1100, 0b0011].contains h

/-- One step of the sequence x^31 + x^28 + 1, the newest bit lowest (R276). -/
def scramStep (r : Nat) : Nat := 2 * r % 2 ^ 31 + (b2n (bitAt r 30) ^^^ b2n (bitAt r 27))

/-- One step of PRBS13, x^13 + x^12 + x^2 + x + 1, the newest bit lowest: PRBS13Q's symbols sent as their two Gray-coded bits are
PRBS13's bits in their order (R296). [PRESUMED, log 81] -/
def prbs13Step (r : Nat) : Nat :=
  2 * r % 2 ^ 13 + (b2n (bitAt r 12) ^^^ b2n (bitAt r 11) ^^^ b2n (bitAt r 1) ^^^ b2n (bitAt r 0))

/-- The checker takes a bit: it fills its register with the first of them, then predicts each; the answer is whether this one is
wrong (R296). -/
def checkBit (y : OpxLane) (prbs13 : Bool) (b : Nat) : OpxLane × Bool :=
  let next := if prbs13 then prbs13Step y.chkReg else scramStep y.chkReg
  if y.chkBits < (if prbs13 then 13 else 31) then
    ({ y with chkBits := y.chkBits + 1, chkReg := (2 * y.chkReg + b) % (if prbs13 then 2 ^ 13 else 2 ^ 31) }, false)
  else ({ y with chkBits := y.chkBits + 1, chkReg := next }, next % 2 != b)

/-- The checker takes a block's 256 bits, block bit 0 first, and counts the errors. -/
def checkBlock (y : OpxLane) (prbs13 : Bool) (w : Nat) : OpxLane × Nat :=
  (List.range 256).foldl (fun a k =>
    let z := checkBit a.1 prbs13 (b2n (bitAt w k))
    (z.1, a.2 + b2n z.2)) (y, 0)

/-- A lane with its checker on counts the pattern's bit errors in OPX_LCNTl.PAT_ERR (R296). -/
def State.checkLane (s : State) (p l w : Nat) : State :=
  let pat := s.reg .OPX_LCTRL_PATTERN (lx p l)
  if s.flag .OPX_LCTRL_CHECK (lx p l) && (pat == 1 || pat == 2) then
    let (y, bad) := checkBlock (s.lane p l) (pat == 2) w
    (s.updLane p l (fun _ => y)).bump .OPX_LCNT_PAT_ERR (lx p l) bad
  else s

/-- A hunting lane tests a header at its trial position: 64 valid ones in a row lock it, an invalid one moves it (R278). -/
def State.huntBlock (s : State) (p l w : Nat) : State :=
  let y := s.lane p l
  if !validHeader (w % 16) then s.updLane p l (fun _ => { y with run := 0, trial := (y.trial + 1) % 262 })
  else if 63 ≤ y.run then
    (s.setReg .OPX_LSTAT_LOL (lx p l) 0).updLane p l (fun _ => { y with run := 0, window := [], synced := false })
  else s.updLane p l (fun _ => { y with run := y.run + 1 })

/-- A locked lane takes a block: an invalid header is counted and its block discarded, the scrambler runs on, and 16 invalid among
the last 64 lose the lock (R275, R276, R278, R281). -/
def State.lockedBlock (s : State) (p l w : Nat) : State :=
  let bad := !validHeader (w % 16)
  let s := if bad then s.bump .OPX_LCNT_BAD_HDR (lx p l) else s
  let y := s.lane p l
  let window := (bad :: y.window).take 64
  let scram := if y.synced && w % 16 != 0b1100 then (List.range 252).foldl (fun r _ => scramStep r) y.rxScram else y.rxScram
  if 16 ≤ window.count true then
    let s := (s.setReg .OPX_LSTAT_LOL (lx p l) 1).setReg .OPX_LSTAT_ALIGNED (lx p l) 0
    (s.updLane p l (fun _ => { y with window := [], run := 0, synced := false, rxScram := scram })).dropPort p 2
  else s.updLane p l (fun _ => { y with window := window, rxScram := scram })

/-- Blocks reach a lane's receiver, oldest first (R275, R278, R296); a DISABLED or DEEP port hears nothing. -/
def State.laneBlocks (s : State) (p l : Nat) : List Nat → State
  | [] => s
  | w :: rest =>
    if s.portSt p == 3 then s
    else
      let s := s.checkLane p l w
      let s := if s.portSt p == 0 then s else if s.flag .OPX_LSTAT_LOL (lx p l) then s.huntBlock p l w else s.lockedBlock p l w
      s.laneBlocks p l rest

/-- LANE_LOCK (R278): the blocks that a lane hunting for the slot position receives. [DESIGN CHOICE, log 81] -/
def laneLock (s : State) (p l : Nat) (rx : List Nat) : State :=
  if s.flag .OPX_LSTAT_LOL (lx p l) then s.laneBlocks p l rx else s

/-- LANE_LOCK_LOSS (R275, R278, R281): the blocks that a locked lane receives; an UP port that loses lock drops. [DESIGN CHOICE, log 81] -/
def laneLockLoss (s : State) (p l : Nat) (rx : List Nat) : State :=
  if s.flag .OPX_LSTAT_LOL (lx p l) then s else s.laneBlocks p l rx

/-- LOS_ASSERT (R281). -/
def losAssert (s : State) (p l : Nat) : State := (s.setReg .OPX_LSTAT_LOS (lx p l) 1).dropPort p 1

/-- LOS_CLEAR (R281, R282): it also takes a DEEP port to TRAINING. -/
def losClear (s : State) (p l : Nat) : State :=
  let was := s.flag .OPX_LSTAT_LOS (lx p l)
  let s := s.setReg .OPX_LSTAT_LOS (lx p l) 0
  if was && s.portSt p == 3 then s.enterTraining p else s

/-- TRAIN_TIMEOUT (R282): T_TRAIN has expired, 50 ms less its tolerance of 0.5 ms at the earliest. [DEDUCED, log 80] -/
def trainTimeout (s : State) (p : Nat) : State :=
  if s.portSt p == 1 && decide ((s.port p).since + 59400000 ≤ s.cycle) then
    let s := s.setReg .OPX_PSTAT_LAST_CAUSE p (s.trainCause p)
    ((s.bump .OPX_PCNT_LINK_DARK p).raise clsWarn .opx 0x000C).enterPort p 4
  else s

/-- MARKER_TIMEOUT (R282): an UP port without a valid row for 4 marker periods. -/
def markerTimeout (s : State) (p : Nat) : State :=
  if s.portUp p && decide (13 * (s.port p).lastMarker.getD (s.port p).since + 4 * markerPeriod13 ≤ 13 * s.cycle) then s.dropPort p 7 else s

/-- DARK_RETRY (R282): T_RETRY after entering DARK, 100 ms less its tolerance of 1 ms at the earliest. -/
def darkRetry (s : State) (p : Nat) : State :=
  if s.portSt p == 4 && decide ((s.port p).since + 118800000 ≤ s.cycle) then s.enterTraining p else s

/-- OPX_PCTRL_EN (R282): enable into TRAINING with a new SESSION, or disable. -/
def opxPctrlEn (s : State) (p : Nat) (en : Bool) : State :=
  let s := s.setFlag .OPX_PCTRL_EN p en
  if en then
    if s.portSt p == 0 then (s.setReg .OPX_PSESS_LOCAL p (s.tb.tb / 65536)).enterTraining p else s
  else
    let s := s.updPort p (fun x => { x with replay := [], history := [], deep := .none, retryN := none, retryE := none
                                            unacked := 0, unackedFrom := none, readyRows := 0, owesRetry := false
                                            skipN := false, skipE := false })
    s.enterPort p 0

/-! ### Lane tests (R296) -/

/-- OPX_LCTRL (R280, R296): a masked write; pattern tests and loopbacks only while the port is DISABLED or TRAINING.
INJ_INTERVAL is staged as R6 states. -/
def opxLctrl (s : State) (p l mask value : Nat) : State :=
  let put := fun (s : State) (r : Reg) (lo : Nat) =>
    let w := r.width
    let m := bits mask lo w
    s.setReg r (lx p l) ((s.reg r (lx p l) &&& (2 ^ w - 1 - m)) ||| (bits value lo w &&& m))
  let (chk, pat) := (s.flag .OPX_LCTRL_CHECK (lx p l), s.reg .OPX_LCTRL_PATTERN (lx p l))
  let s := if s.portSt p ≤ 1 then
      put (put (put s .OPX_LCTRL_PATTERN 0) .OPX_LCTRL_CHECK 2) .OPX_LCTRL_LOOP 3
    else s
  let on := s.flag .OPX_LCTRL_CHECK (lx p l) && s.reg .OPX_LCTRL_PATTERN (lx p l) != pat
  let s := if on || (s.flag .OPX_LCTRL_CHECK (lx p l) && !chk) then
      s.updLane p l (fun y => { y with chkBits := 0, chkReg := 0 })
    else s
  let s := (put s .OPX_LCTRL_INJ 5).holdTaps (lx p l)
  let s := put s .OPX_LCTRL_DFE_FREEZE 7
  let m := bits mask 16 16
  if m == 0 then s
  else
    let old := s.regIn s.nextCfg .OPX_LCTRL_INJ_INTERVAL (lx p l)
    s.stageReg .OPX_LCTRL_INJ_INTERVAL (lx p l) ((old &&& (65535 - m)) ||| (bits value 16 16 &&& m))

/-- INJ_INTERVAL blocks have passed since a lane's last injection; 0 acts as 1, and 13,312 blocks take 31,440 cycles (R274, R296). -/
def State.injDue (s : State) (p l : Nat) : Bool :=
  match (s.lane p l).injAt with
  | none => true
  | some c => decide (31440 * max 1 (s.reg .OPX_LCTRL_INJ_INTERVAL (lx p l)) ≤ 13312 * (s.cycle - c))

/-- ERROR_INJECTION (R296): while UP, once every INJ_INTERVAL blocks, one error of the selected mode; mode 3 falls on the next
sequenced frame. [DESIGN CHOICE, log 81] -/
def errorInjection (s : State) (p l : Nat) : State :=
  if !s.portUp p || !s.injDue p l then s
  else match s.reg .OPX_LCTRL_INJ (lx p l) with
    | 0 => s
    | 3 => s.updLane p l (fun y => { y with injCrc := true, injAt := some s.cycle })
    | k => (s.updLane p l (fun y => { y with injected := y.injected + 1, injAt := some s.cycle })).emit (.injection p l k)

/-! ### Received frames that end at the port -/

/-- IDLE (R286): a header byte with TYPE 0 and any other bit set is a violation, and the receiver then skips to the stream's next
_FS block. -/
def idle (s : State) (p : Nat) (express : Bool) (byte : Nat) : State :=
  if s.portUp p && !portSkips (s.port p) express && byte % 8 == 0 && byte % 256 != 0 then (s.violation p 2 0).setSkip p express true else s

/-- The bytes of 64-byte record of a received verdict-path frame, as received (R273). -/
def verdictRecord (ftype : Nat) (f : Frame) : List Nat :=
  bytesAt (frameHeader ftype f.seq f.len ++ f.payload ++ frameTrailer f) 0 64

/-- VERDICT and VOID on a peer port (R64, R273): into the circular area, over its oldest record. -/
def peerVerdict (s : State) (p ftype : Nat) (f : Frame) : State :=
  s.receiveFrame p ftype f fun s =>
    let head := leAt f.payload 0 16
    let count := bits head 64 3
    if 4 < count || (s.judgeReserved p && (bits head 67 5 != 0 || bits head 78 2 != 0 || bits head 96 32 != 0
        || (ftype == 4 && bits head 32 32 != 0))) then s.violation p 4 ftype
    else if f.len ≠ 2 + count then s.violation p 3 ftype
    else
      let len := s.reg .OPX_PVRING_LEN p
      if len == 0 then s
      else
        let n := s.reg .OPX_PVRING_NEXT p % len
        (s.stackWrite (s.reg .OPX_PVRING_BASE p + 64 * n) (verdictRecord ftype f) 4).setReg .OPX_PVRING_NEXT p ((n + 1) % len)

/-- Write TOKEN units from an address, poisoned ones with POISON set (R260, R288). [DEDUCED, log 82] -/
def State.tokenUnits (s : State) (a : Nat) (bs : List Nat) (poison : Nat) : Nat → State
  | 0 => s
  | n + 1 =>
    let s := s.stackWrite a (bytesAt bs 0 32) 4
    let s := if poison % 2 == 1 then s.poisonWord a else s
    s.tokenUnits (a + 32) (bs.drop 32) (poison / 2) n

/-- TOKEN (R288, R294): on a peer port the units go to the stack, unless the port's write buffer is full. [DEDUCED, log 82] -/
def tokenFrame (s : State) (p : Nat) (f : Frame) : State :=
  let head := leAt f.payload 0 16
  let addr := bits head 0 40
  let count := bits head 40 5
  if s.portUp p && s.reg .OPX_PCTRL_ROLE p == 1 && !((s.port p).skipN && !f.fs) && frameGood 2 f && s.seqNext p 2 f
      && decide (65536 < (s.port p).tokenBytes + 32 * count) then
    (s.bump .OPX_PCNT_MISC_BUSY p).updPort p (fun x => { x with owesRetry := true, skipN := false })
  else s.receiveFrame p 2 f fun s =>
    if count == 0 || (s.judgeReserved p && (bits head 45 3 != 0 || bits head 79 49 != 0)) then s.violation p 4 2
    else if f.len ≠ 2 + 4 * count then s.violation p 3 2
    else if addr % 32 != 0 || addr < s.reg .OPX_PRX_BASE p
        || s.reg .OPX_PRX_BASE p + s.reg .OPX_PRX_LEN p < addr + 32 * count then s.violation p 11 2
    else
      let s := s.updPort p (fun x => { x with tokenBytes := x.tokenBytes + 32 * count })
      s.tokenUnits addr (f.payload.drop 16) (bits head 48 31) count

/-- TOKEN_BUFFER_ROOM (R294): the buffer's writes complete, and a RETRY owed for a discarded frame goes out. [DEDUCED, log 82] -/
def tokenBufferRoom (s : State) (p : Nat) : State :=
  let x := s.port p
  let s := s.setPort p { x with tokenBytes := 0, owesRetry := false }
  if x.owesRetry && s.portUp p then s.sendRetry p false else s

/-- A CTRL frame's payload checks (R289): length, kind, reserved fields; `kind` is what the command names. -/
def ctrlFrame (s : State) (p : Nat) (f : Frame) (kind : Nat) (handle : Nat → State → State) : State :=
  s.receiveFrame p 7 f fun s =>
    let w := leAt f.payload 0 8
    let stream := bitAt w 8
    let rsv := bits w 9 7 != 0 || bits w 22 2 != 0 || bits w 51 13 != 0 || f.seq % 64 != 0
      || (kind == 1 && (stream || bits w 40 11 != 0))
      || (kind == 2 && (bits w 40 11 != 0 || (if stream then bits w 16 6 != 0 else bits w 24 16 != 0)))
    if f.len ≠ 1 then s.violation p 3 7
    else if w % 256 ≠ kind then (if [1, 2, 3].contains (w % 256) then s else s.violation p 10 7)
    else if s.judgeReserved p && rsv then s.violation p 4 7
    else handle w s

/-- ACK (R290, R291): the acknowledged frames leave the replay buffer. -/
def ack (s : State) (p : Nat) (f : Frame) : State :=
  ctrlFrame s p f 1 fun w s =>
    let x := s.port p
    let next := bits w 16 6
    let oldest := match x.replay with | h :: _ => h.seq | [] => x.txN
    let k := (next + 64 - oldest) % 64
    let s := if k ≤ x.replay.length then s.setPort p { x with replay := x.replay.drop k } else s
    let s := s.deepDrained p
    s.flushNormal p (s.port p).txWait.length

/-- RETRY (R292). -/
def retry (s : State) (p : Nat) (f : Frame) : State :=
  ctrlFrame s p f 2 fun w s => if bitAt w 8 then s.retryExpress p (bits w 24 16) else s.retryNormal p (bits w 16 6)

/-- NAK (R295). -/
def nak (s : State) (p : Nat) (f : Frame) : State :=
  ctrlFrame s p f 3 fun w s => (s.bump .OPX_PCNT_NAK_NAK_RECEIVED p).setReg .OPX_PLAST_NAK_IN p (bits w 40 8)

/-- ACK_TIMER (R291): 64 cycles after the first frame not yet acknowledged. -/
def ackTimer (s : State) (p : Nat) : State :=
  match (s.port p).unackedFrom with
  | some c => if s.portUp p && decide (c + 64 ≤ s.cycle) then s.sendAck p else s
  | none => s

/-- RETRY_REPEAT (R291): every 512 cycles until the expected SEQ arrives. -/
def retryRepeat (s : State) (p : Nat) : State :=
  let due := fun (r : Option Nat) => match r with | some c => decide (c + 512 ≤ s.cycle) | none => false
  let x := s.port p
  if !s.portUp p then s
  else
    let s := if due x.retryN then s.sendRetry p false else s
    if due x.retryE then s.sendRetry p true else s

/-- LANE_LOCK (R278). -/
def execLaneLock (port : Fin 16) (lane : Fin 8) (s : State) (rx : List Nat := []) : Answer := awake s (laneLock s port.val lane.val rx)
/-- LANE_LOCK_LOSS (R278). -/
def execLaneLockLoss (port : Fin 16) (lane : Fin 8) (s : State) (rx : List Nat := []) : Answer :=
  awake s (laneLockLoss s port.val lane.val rx)
/-- LOS_ASSERT (R281). -/
def execLosAssert (port : Fin 16) (lane : Fin 8) (s : State) : Answer := awake s (losAssert s port.val lane.val)
/-- LOS_CLEAR (R281). -/
def execLosClear (port : Fin 16) (lane : Fin 8) (s : State) : Answer := awake s (losClear s port.val lane.val)
/-- MARKER (R279). -/
def execMarker (port : Fin 16) (row : List MarkerLane) (s : State) : Answer := awake s (marker s port.val row)
/-- TRAIN_TIMEOUT (R282). -/
def execTrainTimeout (port : Fin 16) (s : State) : Answer := awake s (trainTimeout s port.val)
/-- MARKER_TIMEOUT (R282). -/
def execMarkerTimeout (port : Fin 16) (s : State) : Answer := awake s (markerTimeout s port.val)
/-- DARK_RETRY (R282). -/
def execDarkRetry (port : Fin 16) (s : State) : Answer := awake s (darkRetry s port.val)
/-- OPX_PCTRL_EN (R282). -/
def execOpxPctrlEn (port : Fin 16) (en : Bool) (s : State) : Answer := awake s (opxPctrlEn s port.val en)
/-- DEEP (R284). -/
def execDeep (port : Fin 16) (value : Bool) (s : State) : Answer := awake s (deep s port.val value)
/-- DEEP_TIMEOUT (R284). -/
def execDeepTimeout (port : Fin 16) (s : State) : Answer := awake s (deepTimeout s port.val)
/-- LPI (R284). -/
def execLpi (port : Fin 16) (blocks : Nat) (s : State) : Answer := awake s (lpi s port.val blocks)
/-- IDLE (R286). -/
def execIdle (port : Fin 16) (express : Bool) (byte : Nat) (s : State) : Answer := awake s (idle s port.val express byte)
/-- TOKEN (R288). -/
def execToken (port : Fin 16) (f : Frame) (s : State) : Answer := awake s (tokenFrame s port.val f)
/-- VERDICT (R273). -/
def execVerdict (port : Fin 16) (f : Frame) (s : State) : Answer := awake s (peerVerdict s port.val 3 f)
/-- VOID (R273). -/
def execVoid (port : Fin 16) (f : Frame) (s : State) : Answer := awake s (peerVerdict s port.val 4 f)
/-- ACK (R291). -/
def execAck (port : Fin 16) (f : Frame) (s : State) : Answer := awake s (ack s port.val f)
/-- RETRY (R292). -/
def execRetry (port : Fin 16) (f : Frame) (s : State) : Answer := awake s (retry s port.val f)
/-- NAK (R295). -/
def execNak (port : Fin 16) (f : Frame) (s : State) : Answer := awake s (nak s port.val f)
/-- ACK_TIMER (R291). -/
def execAckTimer (port : Fin 16) (s : State) : Answer := awake s (ackTimer s port.val)
/-- RETRY_REPEAT (R291). -/
def execRetryRepeat (port : Fin 16) (s : State) : Answer := awake s (retryRepeat s port.val)
/-- OPX_LCTRL (R296). -/
def execOpxLctrl (port : Fin 16) (lane : Fin 8) (mask value : Nat) (s : State) : Answer :=
  awake s (opxLctrl s port.val lane.val mask value)
/-- ERROR_INJECTION (R296). -/
def execErrorInjection (port : Fin 16) (lane : Fin 8) (s : State) : Answer := awake s (errorInjection s port.val lane.val)
/-- MARKER_ROW_SEND (R279). -/
def execMarkerRowSend (port : Fin 16) (s : State) : Answer := awake s (markerRowSend s port.val)
/-- TOKEN_BUFFER_ROOM (R294). -/
def execTokenBufferRoom (port : Fin 16) (s : State) : Answer := awake s (tokenBufferRoom s port.val)

end Sys2Proof.Machine
end

