-- ==== Sys2Proof/Machine/Memory.lean ====
section
/-! DEFINITION. Package memory (R17, R256 to R272): the address interleave, golden-copy restores and SRAM scrub, the retention
ring, refresh, stack scrub and class credits. -/
namespace Sys2Proof.Machine
open Sys2Proof

/-! ### The address interleave (R257) -/

/-- Where an internal stack address lies: channel, rank, and row and column within the rank. -/
def stackPlace (addr : Nat) : Nat × Nat × Nat :=
  let a := addr - stackLo
  let a2 := bits a 14 21 * 256 + bits a 0 8
  (bits a 8 6 ^^^ bits a 14 6, a2 / 2 ^ 27, a2 % 2 ^ 27)

/-- The internal stack address that lies at a place: R257's mapping the other way. -/
def stackAddr (p : Nat × Nat × Nat) : Nat :=
  let a2 := p.2.1 * 2 ^ 27 + p.2.2
  stackLo + a2 / 256 * 2 ^ 14 + (p.1 ^^^ (a2 / 256 % 64)) * 256 + a2 % 256

/-- The die that holds a rank of a channel (R256). -/
def stackDie (channel rank : Nat) : Nat := 4 * rank + channel / 16

/-! ### Golden-copy restore (R262 to R265) -/

/-- Entries of the device-wide restore queue in use (R264). -/
def State.restoreQueued (s : State) : Nat :=
  ((s.memS.restore.map fun e => (e.2.filter (·.queued)).length).foldl (· + ·) 0)

/-- Replace a steward's restore list. -/
def State.setRestore (s : State) (steward : Nat) (l : List RestoreEntry) : State :=
  { s with memS := { s.memS with restore := s.memS.restore.put steward l } }

/-- RESTORE_REQUEST (R264, R423): the steward's first listed word without a queue entry takes one of the 16, when one is free,
and asks for one unit of RESTORE leave. -/
def restoreRequest (s : State) (steward : Nat) : State :=
  if s.isFrozen (0x10000 + steward) then s
  else
    let l := s.restoreList steward
    let waits := fun (e : RestoreEntry) => !e.queued && !e.failed
    if l.any waits && decide (s.restoreQueued < 16) then
      (s.setRestore steward (updateFirst waits (fun e => { e with queued := true }) l)).askLeave
        { cls := 1, req := steward, units := 1, region := some (UnitAddr.region steward) }
    else s

/-- The restore of a listed word fails: the entry stays listed, gives up its queue entry and its leave, and the cluster becomes
suspect (R264). [DEDUCED, log 76] -/
def State.restoreFails (s : State) (steward : Nat) (e : RestoreEntry) : State :=
  let l := updateFirst (· == e) (fun e => { e with queued := false, failed := true }) (s.restoreList steward)
  ((s.setRestore steward l).releaseLeave 1 steward).suspect steward 6

/-- The golden word is written into the SRAM: the word is good again, the entry leaves the list, and the leave is released
(R264, R265, R423). -/
def State.restoreDone (s : State) (steward : Nat) (e : RestoreEntry) (bs : List Nat) : State :=
  let s := s.setRestore steward (removeFirst (· == e) (s.restoreList steward))
  let s := { s.wr e.addr bs with ue := s.ue.filter (· != e.addr), ce := s.ce.filter (· != e.addr) }
  let s := { s with memS := { s.memS with
    restored := (e.addr, s.cycle) :: s.memS.restored.filter (fun r => decide (r.1 ≠ e.addr)) } }
  let s := (s.bump .MEM_CNT_GOLD_RESTORES).releaseLeave 1 steward
  if e.detected + 2400 < s.cycle then s.bump .MEM_CNT_GOLD_SLOW else s

/-- A commit addressed the steward's cluster in this cycle: a restore of the same cycle would have come first and moved C (R36). -/
def State.committedNow (s : State) (steward : Nat) : Bool :=
  match s.memS.committed with
  | some (c, ks) => c == s.cycle && ks.contains (17 * UnitAddr.region steward + UnitAddr.cluster steward)
  | none => false

/-- RESTORE_WRITE (R264): the golden word of the steward's oldest queued entry returns, once its leave is granted; it is written in no
cycle in which a commit has addressed its cluster already (R36). [DEDUCED, log 76] -/
def restoreWrite (s : State) (steward : Nat) : State :=
  match (s.restoreList steward).find? (·.queued) with
  | none => s
  | some e =>
    if s.isFrozen (0x10000 + steward) || !s.leaveGranted 1 steward || s.committedNow steward then s
    else
      let (bs, bad, s) := s.stackRead (s.goldenAddr steward (e.addr % sramBytes)) 32 0
      if bad.isEmpty then s.restoreDone steward e bs else s.restoreFails steward e

/-- A word comes to hold an error, which its next read finds. [DESIGN CHOICE, log 98] -/
def State.struck (s : State) (w : Nat) (e : WordError) : State :=
  match e with
  | .none => s
  | .single => if s.ue.contains w || s.ce.contains w then s else { s with ce := w :: s.ce }
  | .double => if s.ue.contains w then s else { s with ue := w :: s.ue }

/-- STEWARD_SCRUB (R17, R264): the steward reads the next 32-byte word of its SRAM; a corrected word is good again, and an
uncorrectable one enters the restore list as it would at a consumer's read. -/
def stewardScrub (s : State) (steward : Nat) (found : WordError := .none) : State :=
  if s.isFrozen (0x10000 + steward) then s
  else
    let at_ := s.memS.scrubAt.getD steward 0
    let base := sramBase (UnitAddr.region steward) (UnitAddr.cluster steward)
    let (_, _, s) := (s.struck (base + at_) found).sramWord steward (base + at_)
    { s with memS := { s.memS with scrubAt := s.memS.scrubAt.put steward ((at_ + 32) % sramBytes) } }

/-! ### Retention (R266, R267) -/

/-- Whether a retention entry is held (R267). -/
def State.retHeld (s : State) (e : RetEntry) : Bool :=
  !e.settled || e.sampling || e.replaying || decide (s.cycle < e.mark + s.reg .MEM_RET_HOLD_MIN)

/-- The bytes of a retention entry: Table "Retention header", then the tokens. -/
def retBytes (e : RetEntry) : List Nat :=
  bytesAt (leBytes 8 e.markTB ++ leBytes 2 e.tag ++ [e.slot, 0] ++ leBytes 2 e.epoch ++ leBytes 2 e.tokens.length
    ++ leBytes 4 e.len ++ List.replicate 44 0 ++ (e.tokens.map tokenBytes).foldr (· ++ ·) []) 0 e.len

/-- RETENTION_WRITE (R266, R267): the entry queued first at its ingress mark is written at the ring's next position,
or at its base when it does not fit before the end, unless it would overwrite a held entry; it waits its turn (R270). [DEDUCED, log 77] -/
def retentionWrite (s : State) : State :=
  match s.retNext with
  | none => s
  | some e =>
    if !s.memTurn 1 then s
    else
      let s := { s with memS := { s.memS with retQueue := removeFirst (· == e) s.memS.retQueue } }
      let len := s.reg .MEM_RET_LEN
      let off := if s.memS.retPos + e.len ≤ len then s.memS.retPos else 0
      let pos := s.reg .MEM_RET_BASE + off
      let hit := fun (x : RetEntry) => overlaps x.pos x.len pos e.len
      if len < e.len || s.memS.ret.any (fun x => hit x && s.retHeld x) then s.bump .MEM_CNT_RET_DROPPED
      else
        let s := s.stackWrite pos (retBytes e) 1
        let s := { s with memS := { s.memS with
          ret := s.memS.ret.filter (fun x => !hit x) ++ [{ e with pos := pos, written := true }]
          retPos := off + e.len } }
        s.bump .MEM_CNT_RET_WRITTEN

/-- Find a written retention entry; a lookup that finds none counts (R267). [DEDUCED, log 77] -/
def State.retFind (s : State) (slot tag epoch markTB : Nat) : Option RetEntry :=
  s.memS.ret.find? (fun e => e.slot == slot && e.tag == tag && e.epoch == epoch && e.markTB == markTB)

/-- Change the retention entry of an event, written or still queued. -/
def State.retUpd (s : State) (slot tag epoch markTB : Nat) (f : RetEntry → RetEntry) : State :=
  let p := fun (e : RetEntry) => e.slot == slot && e.tag == tag && e.epoch == epoch && e.markTB == markTB
  { s with memS := { s.memS with ret := updateWhere p f s.memS.ret, retQueue := updateWhere p f s.memS.retQueue } }

/-! ### Refresh and scrub (R268, R269) -/

/-- The refresh multiplier at a base-die temperature (R268). -/
def refreshRate (deg : Int) : Nat := if deg ≤ 85 then 1 else if deg ≤ 95 then 2 else 4

/-- REFRESH (R268): one refresh of all banks, at the rate the sensor's reading sets; the WARN record is raised when the
temperature passes 95 °C. -/
def refresh (s : State) (deg : Nat) : State :=
  let rate := refreshRate (sx 8 deg)
  let before := s.reg .MEM_TEMP_REFRESH
  let s := (s.setReg .MEM_TEMP_DEG 0 deg).setReg .MEM_TEMP_REFRESH 0 rate
  let s := { s with memS := { s.memS with refreshes := s.memS.refreshes + 1 } }
  if rate == 4 && before != 4 then s.raise clsWarn .mem 0x000B 0xFFFF [deg] else s

/-- The golden area's last byte and one more. -/
def State.goldenHi (s : State) : Nat := s.reg .MEM_GOLD_BASE + 136 * s.span

/-- The SRAM word that a golden word mirrors: its steward and internal address. -/
def State.goldenSource (s : State) (w : Nat) : Nat × Nat :=
  let o := w - s.reg .MEM_GOLD_BASE
  let c := o / s.span
  let steward := UnitAddr.mk (c / 17) (c % 17) 15
  (steward, sramBase (c / 17) (c % 17) + o % s.span)

/-- An uncorrectable golden word is rewritten from an original that reads without error, or counted as not repairable; an
uncorrectable original is found by this read, and enters the restore list as at any read (R264, R269). -/
def State.goldenRepair (s : State) (w : Nat) : State :=
  let (steward, a) := s.goldenSource w
  let (bad, _, s) := s.sramWord steward a
  if bad then s.bump .MEM_CNT_GOLD2_FAILED
  else (s.stackWrite w (s.rd a 32) 8).bump .MEM_CNT_GOLD2_REPAIRED

/-- Scrub reads one word that has an error (R258, R259, R269). -/
def State.scrubWord (s : State) (w : Nat) : State :=
  let bad := s.ue.contains w
  let (_, s) := s.stackCheck w
  if bad && decide (s.reg .MEM_GOLD_BASE ≤ w) && decide (w < s.goldenHi) then s.goldenRepair w else s

/-- Cycles from one pass of 1 MiB to the next: the whole stack, 24,576 passes, once every PERIOD seconds (R269). [DEDUCED, log 76] -/
def State.scrubStep (s : State) : Nat := s.reg .MEM_SCRUB_PERIOD * 1200000000 / 24576

/-- SCRUB_PASS (R269): with its leave granted, scrub reads the next 1 MiB; the words without an error read as they are; it waits
its turn (R270). [DEDUCED, log 76] -/
def scrubPass (s : State) (found : List (Nat × WordError) := []) : State :=
  if !s.flag .MEM_CTRL_SCRUB_EN || !s.leaveGranted 5 0x4000 || !s.memTurn 8 then s
  else
    let pos := s.reg .MEM_SCRUB_POS
    let lo := stackLo + pos * 2 ^ 20
    let here := fun w => decide (lo ≤ w) && decide (w < lo + 2 ^ 20)
    let s := (found.filter fun e => e.1 % 32 == 0 && here e.1).foldl (fun (s : State) (e : Nat × WordError) => s.struck e.1 e.2) s
    let words := (s.ue ++ s.ce ++ s.poison).filter here
    let s := ((sortBy id words).eraseDups.foldl State.scrubWord s).traffic 8 (2 ^ 20)
    let s := { s with memS := { s.memS with scrubDue := s.memS.scrubDue + s.scrubStep } }
    (s.setReg .MEM_SCRUB_POS 0 ((pos + 1) % 24576)).releaseLeave 5 0x4000

/-! ### Credits and the capture (R270, R272) -/

/-- CLASS_CREDIT (R270): every 1,024 cycles each class but RESTORE gains its LIMIT and holds no more than that. [DESIGN CHOICE, log 4] -/
def classCredit (s : State) : State :=
  if s.cycle % 1024 ≠ 0 then s
  else { s with memS := { s.memS with credits := (List.range 8).map fun k => (k + 1, s.reg .MEM_CLASS_LIMIT k) } }

/-- RESTORE_REQUEST (R264). -/
def execRestoreRequest (steward : Nat) (s : State) : Answer := awake s (restoreRequest s steward)
/-- RESTORE_WRITE (R264). -/
def execRestoreWrite (steward : Nat) (s : State) : Answer := awake s (restoreWrite s steward)
/-- RETENTION_WRITE (R266). -/
def execRetentionWrite (s : State) : Answer := awake s (retentionWrite s)
/-- REFRESH (R268). -/
def execRefresh (deg : Nat) (s : State) : Answer := awake s (refresh s deg)
/-- SCRUB_PASS (R269). -/
def execScrubPass (s : State) (found : List (Nat × WordError) := []) : Answer := awake s (scrubPass s found)
/-- CLASS_CREDIT (R270). -/
def execClassCredit (s : State) : Answer := awake s (classCredit s)
/-- MEM_FIRST_UE_REARM (R272): writing 1 to VALID re-arms the capture. -/
def execMemFirstUeRearm (s : State) : Answer := awake s (s.setReg .MEM_FIRST_UE_VALID 0 0)
/-- STEWARD_SCRUB (R17). -/
def execStewardScrub (steward : Nat) (s : State) (found : WordError := .none) : Answer := awake s (stewardScrub s steward found)

end Sys2Proof.Machine
end

