-- ==== Sys2Proof/Machine/Sampler.lean ====
section
/-! DEFINITION. The sampler of each network slot (R210 to R214): which verdicts are selected, and the training ring. -/
namespace Sys2Proof.Machine
open Sys2Proof

/-- The class of a verdict (Table "Sampler classes"). -/
inductive SampleClass where
  | accepted | rejected | other
  deriving DecidableEq, Repr

/-- Sort a verdict into its class (R210). -/
def State.sampleClass (s : State) (slot entry : Nat) : SampleClass :=
  let e := VEntry_of entry
  if e.cause == 0 && !(e.timeout || e.incomplete || e.poison || e.thermal) then
    let m := s.reg .NSL_SMP_MATCH_ACC_MASK slot
    if e.result &&& m == s.reg .NSL_SMP_MATCH_ACC_MATCH slot &&& m then .accepted else .rejected
  else .other

/-- A slot's sampler. -/
def State.sampler (s : State) (slot : Nat) : Sampler := s.samplers.getD slot {}

/-- Replace a slot's sampler. -/
def State.setSampler (s : State) (slot : Nat) (x : Sampler) : State := { s with samplers := s.samplers.put slot x }

/-- A selected event waits for its copy; a ring that is not placed drops it at once (R212, R261). -/
def State.sampleSelect (s : State) (q : SampleReq) : State :=
  if s.reg .NSL_SMP_RING_BASE q.slot == 0 then s.bump .NSL_SMP_CNT3_DROPPED q.slot
  else
    let x := s.sampler q.slot
    (s.setSampler q.slot { x with waiting := x.waiting ++ [q] }).retUpd q.slot q.tag q.epoch q.ingressTB
      (fun e => { e with sampling := true })

/-- The sampler's decision at a verdict's validation, or at the issue of its corrected entry (R210, R211). [DEDUCED, log 72] -/
def State.sampleDecide (s : State) (slot : Nat) (num tag epoch entry markTB ingressTB : Nat) : State :=
  if !s.flag .NSL_SMP_CTRL_ENABLE slot then s
  else
    let x := s.sampler slot
    let req := fun (acc : Bool) (w : Nat) => ({ slot := slot, num := num, tag := tag, epoch := epoch, markTB := markTB, ingressTB := ingressTB
                                                entry := entry, accepted := acc, weight := w, cyc := s.cycle } : SampleReq)
    match s.sampleClass slot entry with
    | .other => s.bump .NSL_SMP_CNT2_OTHER slot
    | .accepted =>
      let w := s.reg .NSL_SMP_CTRL_ACC_PRESCALE slot
      if w == 0 then s
      else if w ≤ x.accCnt + 1 then (s.setSampler slot { x with accCnt := 0 }).sampleSelect (req true w)
      else s.setSampler slot { x with accCnt := x.accCnt + 1 }
    | .rejected =>
      let w := s.reg .NSL_SMP_CTRL_REJ_PRESCALE slot
      if w == 0 then s
      else if w ≤ x.rejCnt + 1 then (s.setSampler slot { x with rejCnt := 0 }).sampleSelect (req false w)
      else s.setSampler slot { x with rejCnt := x.rejCnt + 1 }

/-- A sequence number lies in a range that may wrap. -/
def seqIn (first last q : Nat) : Bool :=
  decide ((q + 2 ^ 32 - first % 2 ^ 32) % 2 ^ 32 ≤ (last + 2 ^ 32 - first % 2 ^ 32) % 2 ^ 32)

/-- A record lies in the sample range of a job of the slot that is neither DONE nor ABORTED (R214). -/
def State.seqHeld (s : State) (slot q : Nat) : Bool :=
  (List.range 8).any fun j =>
    match s.jobs.get? j with
    | some b => b.slot == slot && [1, 2, 3].contains (s.reg .NSL_JOB_STATE_STATE j) && seqIn b.first b.last q
    | none => false

/-- The records to overwrite so that `need` bytes fit in a ring of `cap`: how many of the oldest. [DEDUCED, log 72] -/
def ringEvict (cap need : Nat) (recs : List SampleRec) : Nat :=
  let used := (recs.map (·.len)).foldl (· + ·) 0
  ((List.range (recs.length + 1)).find? fun k =>
    decide (used - ((recs.take k).map (·.len)).foldl (· + ·) 0 + need ≤ cap)).getD recs.length

/-- Write bytes into a ring at a byte position, past its end from its base on (R214). [DEDUCED, log 72] -/
def State.ringWrite (s : State) (base len pos : Nat) (bs : List Nat) (cls : Nat) : State :=
  let first := min bs.length (len - pos)
  let s := s.stackWrite (base + pos) (bs.take first) cls
  if first < bs.length then s.stackWrite base (bs.drop first) cls else s

/-- A sample record's bytes (Table "Sample record"). -/
def State.sampleBytes (s : State) (q : SampleReq) (seq ntok : Nat) (toks : List Nat) : List Nat :=
  let len := (64 + 48 * ntok + 63) / 64 * 64
  bytesAt (leBytes 4 seq ++ leBytes 4 len ++ leBytes 8 q.markTB ++ leBytes 8 q.entry ++ [if q.accepted then 1 else 2, 0]
    ++ leBytes 2 ntok ++ leBytes 4 q.weight ++ leBytes 4 (s.reg .NSL_IMAGE_ID q.slot) ++ leBytes 4 (s.reg .NSL_IMAGE_BANK_ID q.slot)
    ++ List.replicate 24 0 ++ toks) 0 len

/-- Put a record into the slot's ring, overwriting the oldest it needs, or drop it (R213, R214). -/
def State.sampleStore (s : State) (q : SampleReq) (ntok : Nat) (toks : List Nat) : State :=
  let x := s.sampler q.slot
  let cap := s.reg .NSL_SMP_RLEN_LEN q.slot * 64
  let seq := s.reg .NSL_SMP_SEQ_NEXT q.slot
  let bs := s.sampleBytes q seq ntok toks
  let k := ringEvict cap bs.length x.recs
  if cap < bs.length || (x.recs.take k).any (fun r => s.seqHeld q.slot r.seq) then s.bump .NSL_SMP_CNT3_DROPPED q.slot
  else
    let pos := if x.nextPos < cap then x.nextPos else 0
    let s := s.ringWrite (s.reg .NSL_SMP_RING_BASE q.slot) cap pos bs 5
    let recs := x.recs.drop k ++ [({ seq := seq, pos := pos, len := bs.length } : SampleRec)]
    let s := s.setSampler q.slot { x with recs := recs, nextPos := (pos + bs.length) % cap }
    let s := (s.setReg .NSL_SMP_SEQ_NEXT q.slot (seq + 1)).setReg .NSL_SMP_SEQ_OLDEST q.slot ((recs.head?.map (·.seq)).getD (seq + 1))
    s.bump (if q.accepted then .NSL_SMP_CNT_ACCEPTED else .NSL_SMP_CNT_REJECTED) q.slot

/-- The head request leaves the sampler, which ends its hold on the retention entry (R267). -/
def State.sampleTake (s : State) (q : SampleReq) : State :=
  let x := s.sampler q.slot
  (s.setSampler q.slot { x with waiting := x.waiting.drop 1 }).retUpd q.slot q.tag q.epoch q.ingressTB
    (fun e => { e with sampling := false })

/-- SAMPLE_WRITE (R212, R213, R214): the oldest selected event's retained inputs are copied into the ring; one that retention
no longer holds, or that reads poisoned, is lost; one that a commit has left without a placed ring is dropped (R261).
The copy waits its turn (R270). -/
def sampleWrite (s : State) (slot : Nat) : State :=
  match (s.sampler slot).waiting with
  | [] => s
  | q :: _ =>
    if s.reg .NSL_SMP_RING_BASE slot == 0 || decide (q.cyc + 4096 < s.cycle) then (s.sampleTake q).bump .NSL_SMP_CNT3_DROPPED slot
    else if !s.memTurn 5 then s
    else match s.retFind slot q.tag q.epoch q.ingressTB with
      | none => ((s.sampleTake q).bump .MEM_CNT_RET2_MISSING).bump .NSL_SMP_CNT2_LOST slot
      | some e =>
        let (bs, bad, s) := s.stackRead e.pos e.len 5
        let s := s.sampleTake q
        if bad.isEmpty then
          let ntok := leAt bs 14 2
          s.sampleStore q ntok (bytesAt bs 64 (48 * ntok))
        else s.bump .NSL_SMP_CNT2_LOST slot

/-- SAMPLE_DROP (R212): the oldest selected event has not been accepted within 4,096 cycles of its selection. -/
def sampleDrop (s : State) (slot : Nat) : State :=
  match (s.sampler slot).waiting with
  | [] => s
  | q :: _ => if q.cyc + 4096 ≤ s.cycle then (s.sampleTake q).bump .NSL_SMP_CNT3_DROPPED slot else s

/-- SAMPLE_WRITE (R213). -/
def execSampleWrite (slot : Fin 16) (s : State) : Answer := awake s (sampleWrite s slot.val)
/-- SAMPLE_DROP (R212). -/
def execSampleDrop (slot : Fin 16) (s : State) : Answer := awake s (sampleDrop s slot.val)

end Sys2Proof.Machine
end

