-- ==== Sys2Proof/Machine/Lockstep.lean ====
section
/-! DEFINITION. Reproducibility and lock-step (R399 to R413): the key, COMPARE frames, matching, divergence. -/
namespace Sys2Proof.Machine
open Sys2Proof

/-- The reproducibility key of a configuration (Table "Reproducibility key"). -/
def reproKeyOf (arith tableVer level adaptEn : Nat) : Nat :=
  arith % 256 + tableVer % 256 * 2 ^ 8 + level % 16 * 2 ^ 16 + adaptEn % 2 * 2 ^ 20 + 1 * 2 ^ 22 + 1 * 2 ^ 24

/-- The key in force is that of CND_CTRL.ADAPT_EN in force (R400). -/
def State.setReproKey (s : State) : State :=
  s.setReg .CHIP_REPRO_KEY 0 (reproKeyOf (s.reg .CHIP_STEP_ARITH) (s.reg .ELD_REV_TABLE_VER) (s.reg .FAB_FC_LEVEL_LEVEL)
    (s.reg .CND_CTRL_ADAPT_EN))

/-- The device takes part in lock-step (R406). -/
def State.lockActive (s : State) : Bool :=
  let p := s.reg .CHIP_LOCK_CTRL_PORT
  s.flag .CHIP_LOCK_CTRL_ENABLE && s.portUp p && s.reg .OPX_PCTRL_ROLE p == 1

/-- A slot is compared (R406). -/
def State.lockSlot (s : State) (slot : Nat) : Bool := bitAt (s.reg .CHIP_LOCK_CTRL_SLOTS) slot

/-- An entry of a COMPARE frame (Table "COMPARE payload"). -/
def lockBytes (e : LockEntry) : List Nat :=
  leBytes 8 (e.event % 2 ^ 32 + e.slot % 16 * 2 ^ 32 + e.kind % 4 * 2 ^ 36 + e.cp % 8 * 2 ^ 38 + b2n e.voided * 2 ^ 41) ++ leBytes 8 e.value

/-- The entry that 16 bytes spell. -/
def lockOf (bs : List Nat) (cyc : Nat) : LockEntry :=
  let w := leAt bs 0 8
  { slot := bits w 32 4, event := bits w 0 32, kind := bits w 36 2, cp := bits w 38 3, voided := bitAt w 41
    value := leAt bs 8 8, cyc := cyc }

/-- Two entries of one key (R410). -/
def lockSame (a b : LockEntry) : Bool := a.slot == b.slot && a.event == b.event && a.kind == b.kind && a.cp == b.cp

/-- An entry of an event. -/
def lockOfEvent (slot event : Nat) (e : LockEntry) : Bool := e.slot == slot && e.event == event

/-- Release every entry of an event (R410). -/
def State.lockRelease (s : State) (slot event : Nat) : State :=
  { s with lock := { s.lock with mine := s.lock.mine.filter (fun e => !lockOfEvent slot event e)
                                 partner := s.lock.partner.filter (fun e => !lockOfEvent slot event e) } }

/-- Write the divergence capture (R412). -/
def State.lockCapture (s : State) (kind slot event cp loc par : Nat) : State :=
  let unit := if kind == 1 then 0 else s.reg .CHIP_LOCK_CP_UNIT cp
  let s := (((s.setReg .CHIP_LOCK_DIV0_VALID 0 1).setReg .CHIP_LOCK_DIV0_KIND 0 kind).setReg .CHIP_LOCK_DIV0_SLOT 0 slot)
  let s := ((s.setReg .CHIP_LOCK_DIV0_CP 0 cp).setReg .CHIP_LOCK_DIV0_UNIT 0 unit).setReg .CHIP_LOCK_DIV0_EVENT 0 event
  ((s.setReg .CHIP_LOCK_DIV1_LOCAL 0 loc).setReg .CHIP_LOCK_DIV2_PARTNER 0 par).setReg .CHIP_LOCK_DIV3_TB 0 s.tb.tb

/-- An event diverges (R410 to R412): kinds 1 VERDICT, 2 CHECKPOINT, 3 MISSING, 4 OVERRUN. A divergence of the capture's own
cycle with a lower slot, then event number, takes its place. -/
def State.lockDiverge (s : State) (kind slot event cp loc par : Nat) : State :=
  let s := s.lockRelease slot event
  let s := s.bump .CHIP_LOCK_CNT2_DIVERGED
  let s := if 3 ≤ kind then s.bump .CHIP_LOCK_CNT2_MISSING else s
  if !s.flag .CHIP_LOCK_DIV0_VALID then
    (s.lockCapture kind slot event cp loc par).raise clsFault .chip 0x0019 0xFFFF [kind, slot, event, cp]
  else if s.reg .CHIP_LOCK_DIV3_TB == s.tb.tb
      && (slot < s.reg .CHIP_LOCK_DIV0_SLOT || (slot == s.reg .CHIP_LOCK_DIV0_SLOT && event < s.reg .CHIP_LOCK_DIV0_EVENT)) then
    s.lockCapture kind slot event cp loc par
  else s

/-- A final verdict falls outside the guarantee (R403). -/
def verdictExcluded (value : Nat) : Bool :=
  let e := VEntry_of value
  e.timeout || e.incomplete || e.thermal || e.poison || e.cause != 0

/-- The value of a side's entry. -/
def lockVal (e : Option LockEntry) : Nat := match e with | some x => x.value | none => 0

/-- The first difference of an event's checkpoints in ascending CP (R410, R411): kind and CP. -/
def cpDiff (mine partner : List LockEntry) : List Nat → Option (Nat × Nat)
  | [] => none
  | k :: ks =>
    match mine.find? (fun e => e.kind == 2 && e.cp == k), partner.find? (fun e => e.kind == 2 && e.cp == k) with
    | some a, some b => if a.value == b.value then cpDiff mine partner ks else some (2, k)
    | none, none => cpDiff mine partner ks
    | _, _ => some (3, k)

/-- Resolve an event whose two VERDICT entries are held (R410). [DEDUCED, log 63] -/
def State.lockResolve (s : State) (slot event : Nat) : State :=
  let mine := s.lock.mine.filter (lockOfEvent slot event)
  let partner := s.lock.partner.filter (lockOfEvent slot event)
  match mine.find? (·.kind == 1), partner.find? (·.kind == 1) with
  | some a, some b =>
    if a.voided || b.voided || verdictExcluded a.value || verdictExcluded b.value then
      (s.lockRelease slot event).bump .CHIP_LOCK_CNT_EXCLUDED
    else
      let s := s.bump .CHIP_LOCK_CNT_COMPARED
      match cpDiff mine partner (List.range 8) with
      | some (kind, k) =>
        s.lockDiverge kind slot event k (lockVal (mine.find? (fun e => e.kind == 2 && e.cp == k)))
          (lockVal (partner.find? (fun e => e.kind == 2 && e.cp == k)))
      | none =>
        if setBits a.value 22 1 0 == setBits b.value 22 1 0 then s.lockRelease slot event
        else s.lockDiverge 1 slot event 0 a.value b.value
  | _, _ => s

/-- A local entry is held, and its event resolved when it can be (R410, R411). [DEDUCED, log 63] -/
def State.lockMine (s : State) (e : LockEntry) : State :=
  if s.lock.mine.any (lockSame e) then s.lockDiverge 3 e.slot e.event e.cp e.value (lockVal (s.lock.partner.find? (lockSame e)))
  else if 4096 ≤ s.lock.mine.length then s.lockDiverge 4 e.slot e.event e.cp e.value (lockVal (s.lock.partner.find? (lockSame e)))
  else { s with lock := { s.lock with mine := s.lock.mine ++ [e] } }.lockResolve e.slot e.event

/-- A partner's entry is held, and its event resolved when it can be. -/
def State.lockPartner (s : State) (e : LockEntry) : State :=
  if s.lock.partner.any (lockSame e) then s.lockDiverge 3 e.slot e.event e.cp (lockVal (s.lock.mine.find? (lockSame e))) e.value
  else { s with lock := { s.lock with partner := s.lock.partner ++ [e] } }.lockResolve e.slot e.event

/-- The checkpoint entries of an event of a slot (R408): the tokens that the unit sent for its tag; none for an event that was
not injected. [DEDUCED, log 63] -/
def State.checkpointEntries (s : State) (slot num tag epoch : Nat) (injected : Bool) : List LockEntry :=
  if num % max 1 (s.reg .CHIP_LOCK_CTRL_CP_EVERY) ≠ 0 then []
  else (List.range 8).filterMap fun k =>
    if s.flag .CHIP_LOCK_CP_VALID k && s.reg .CHIP_LOCK_CP_SLOT k == slot then
      let d := (s.lock.digests.find? (fun d => injected && d.cp == k && d.slot == slot && d.tag == tag && d.epochLo == epoch % 256)).getD {}
      some { slot := slot, event := num, kind := 2, cp := k, value := crc32c d.bytes + d.tokens % 2 ^ 32 * 2 ^ 32, cyc := s.cycle }
    else none

/-- An event's verdict is final: its digests are used up, and in lock-step its entries are sent in one frame, checkpoints
first, and held (R408, R409). -/
def State.lockFinal (s : State) (slot num tag epoch : Nat) (injected voided : Bool) (value : Nat) : State :=
  let cps := s.checkpointEntries slot num tag epoch injected
  let s := if injected then { s with lock := { s.lock with digests := s.lock.digests.filter (fun d =>
      !(d.slot == slot && d.tag == tag && d.epochLo == epoch % 256)) } }
    else s
  if s.lockActive && s.lockSlot slot then
    let es := cps ++ [({ slot := slot, event := num, kind := 1, voided := voided, value := value, cyc := s.cycle } : LockEntry)]
    let head := es.length + s.reg .CHIP_SYSID_ID * 2 ^ 8
    let s := s.sendNormal (s.reg .CHIP_LOCK_CTRL_PORT) 6 (leBytes 8 head ++ (es.map lockBytes).foldr (· ++ ·) [])
    es.foldl State.lockMine s
  else s

/-- COMPARE (R407, R410): the entries of a frame from the lock-step partner. -/
def compareFrame (s : State) (p : Nat) (f : Frame) : State :=
  s.receiveFrame p 6 f fun s =>
    let head := leAt f.payload 0 8
    let count := bits head 0 6
    let entries := (List.range count).map fun k => bytesAt f.payload (8 + 16 * k) 16
    let badEntry := fun (b : List Nat) =>
      let w := leAt b 0 8
      let kind := bits w 36 2
      kind == 0 || kind == 3 || (s.judgeReserved p && (bits w 42 22 != 0 || (kind == 1 && bits w 38 3 != 0)))
    if count == 0 || (s.judgeReserved p && (bits head 6 2 != 0 || bits head 14 50 != 0)) then s.violation p 4 6
    else if f.len ≠ 1 + 2 * count then s.violation p 3 6
    else if entries.any badEntry then s.violation p 4 6
    else if s.lockActive && p == s.reg .CHIP_LOCK_CTRL_PORT then
      ((entries.map (fun b => lockOf b s.cycle)).filter (fun e => s.lockSlot e.slot)).foldl State.lockPartner s
    else s

/-- The entries of one side that have stayed unmatched for TIMEOUT µs (R411). -/
def State.lockStale (s : State) (xs ys : List LockEntry) : List LockEntry :=
  xs.filter fun e => !ys.any (lockSame e) && decide (e.cyc + 1200 * max 1 (s.reg .CHIP_LOCK_CTRL_TIMEOUT) ≤ s.cycle)

/-- LOCK_TIMEOUT (R411): the events of entries unmatched for TIMEOUT µs diverge as MISSING, each once, in ascending slot and
event number. -/
def lockTimeout (s : State) : State :=
  let stale := (s.lockStale s.lock.mine s.lock.partner).map (fun e => (e, true))
    ++ (s.lockStale s.lock.partner s.lock.mine).map (fun e => (e, false))
  let order := sortBy (fun (x : LockEntry × Bool) => x.1.slot * 2 ^ 32 + x.1.event) stale
  order.foldl (fun (s : State) (x : LockEntry × Bool) =>
    let e := x.1
    if s.lock.mine.any (· == e) && x.2 then s.lockDiverge 3 e.slot e.event e.cp e.value 0
    else if s.lock.partner.any (· == e) && !x.2 then s.lockDiverge 3 e.slot e.event e.cp 0 e.value
    else s) s

/-- COMPARE (R410). -/
def execCompare (port : Fin 16) (f : Frame) (s : State) : Answer := awake s (compareFrame s port.val f)
/-- LOCK_TIMEOUT (R411). -/
def execLockTimeout (s : State) : Answer := awake s (lockTimeout s)
/-- CHIP_LOCK_DIV0_REARM (R413): writing 1 to VALID re-arms the capture. -/
def execChipLockDiv0Rearm (s : State) : Answer := awake s (s.setReg .CHIP_LOCK_DIV0_VALID 0 0)

end Sys2Proof.Machine
end

