-- ==== Sys2Proof/Machine/Springbok.lean ====
section
/-! DEFINITION. Springbok (R230 to R255): rows, terms, the trigger bus, coincidence units, groups, segments, credits, masks;
and the SENSOR command (R287), whose blocks go through the conditioners to the deskew buffer and to Springbok. -/
namespace Sys2Proof.Machine
open Sys2Proof

/-! ### Groups and their configuration (R230, R254) -/

/-- The channels of a group in channel-index order, with width and SIGNED (R230). -/
def groupChans (t : KMap Nat ChanEntry) (g : Nat) : List (Nat × Nat × Bool) :=
  let ns := if g == 0 then List.range 65536 else sortBy (fun n => n) t.keys
  (ns.map fun n => (n, chanCfg (tblEntry t n))).filterMap fun e =>
    if e.2.group == g then some (e.1, e.2.width, e.2.signed) else none

/-- A group is enabled: EN, with Springbok on. -/
def State.groupEnIn (s : State) (m : RegMap) (g : Nat) : Bool :=
  s.regIn m .SPB_CTRL_ENABLE == 1 && s.regIn m .SPB_GCFG_EN g == 1

/-- A group's configuration under given registers and channel table; a group that is not enabled has no channels listed. -/
def State.groupCfgIn (s : State) (m : RegMap) (t : KMap Nat ChanEntry) (g : Nat) : GroupCfg :=
  let r := fun x => s.regIn m x g
  let en := s.groupEnIn m g
  { en := en, reduce := r .SPB_GCFG_REDUCE, avgK := r .SPB_GCFG_AVG_K, holdMode := r .SPB_GCFG_HOLD_MODE == 1
    hold := r .SPB_GHOLD_HOLD, prio := r .SPB_GCFG_PRIO, maskEn := r .SPB_GCFG_MASK_EN == 1, rowWait := r .SPB_GCFG_ROW_WAIT
    pre := r .SPB_GDEPTH_PRE, post := r .SPB_GDEPTH_POST, deadband := r .SPB_GDEAD_DEADBAND, units := r .SPB_GCMASK_UNITS
    ringBase := r .SPB_GRING_BASE, slots := r .SPB_GRLEN_SLOTS, areaBase := r .SPB_GAREA_BASE, areaLen := r .SPB_GALEN_LEN
    share := r .SPB_GSHARE_SHARE, burst := r .SPB_GSHARE_BURST, maskFirst := r .SPB_GMASK_FIRST
    maskCount := r .SPB_GMASK_COUNT, chans := if en then groupChans t g else [] }

/-- A group. -/
def State.grp (s : State) (g : Nat) : Group := s.spb.groups.getD g {}

/-- Replace a group. -/
def State.setGrp (s : State) (g : Nat) (x : Group) : State := { s with spb := { s.spb with groups := s.spb.groups.put g x } }

/-- Change a group. -/
def State.updGrp (s : State) (g : Nat) (f : Group → Group) : State := s.setGrp g (f (s.grp g))

/-- The configuration a group works under: a capture keeps the one it began with (R241). -/
def State.groupCfg (s : State) (g : Nat) : GroupCfg := ((s.grp g).heldCfg).getD (s.groupCfgIn s.regs s.cond.committed g)

/-- SPB_GSTATn.STATE. -/
def State.groupSt (s : State) (g : Nat) : Nat := s.reg .SPB_GSTAT_STATE g

/-- Groups with EN set, found among the registers written. -/
def State.enabledGroups (s : State) : List Nat :=
  sortBy (fun g => g) (s.regs.filterMap fun e => if e.1.1 == .SPB_GCFG_EN && s.groupEnIn s.regs e.1.2 then some e.1.2 else none)

/-- The blocks of a group, ascending. -/
def groupBlocks (c : GroupCfg) : List Nat := (c.chans.map (·.1 / 64)).foldl (fun bs b => if bs.contains b then bs else bs ++ [b]) []

/-- Bytes of a stored value. -/
def valueBytes (c : GroupCfg) : Nat := if c.reduce == 2 then 3 else 2

/-- SLOT_BYTES: the largest stored-row entry rounded up to 64. -/
def slotBytes (c : GroupCfg) : Nat := (16 + (valueBytes c * c.chans.length + 7) / 8 * 8 + 8 + 63) / 64 * 64

/-- The reservation of a segment (R245). -/
def segReserve (c : GroupCfg) : Nat :=
  let rowmax := if c.reduce == 1 then 24 + 4 * c.chans.length else slotBytes c
  (64 + (c.pre + 1 + c.post) * (rowmax + 32) + 63) / 64 * 64

/-! ### Entries (Tables "Entry header", "Entry kinds"; R248) -/

/-- An entry: header, payload padded to 8 bytes, and MISSING when partial. -/
def entryBytes (kind : Nat) (trig key poison : Bool) (row tb missing : Nat) (payload : List Nat) : List Nat :=
  let words := (payload.length + 7) / 8
  let partial_ := missing != 0
  [kind + b2n partial_ * 16 + b2n trig * 32 + b2n key * 64 + b2n poison * 128, 0] ++ leBytes 2 words ++ leBytes 4 row
    ++ leBytes 8 tb ++ bytesAt payload 0 (8 * words) ++ (if partial_ then leBytes 8 missing else [])

/-- A ROW or AVG entry; missing channels are stored as zero. -/
def rowEntry (c : GroupCfg) (r : Row) (trig : Bool) : List Nat :=
  let w := valueBytes c
  entryBytes (if c.reduce == 2 then 2 else 1) trig false false r.row r.tb r.missing
    ((r.vals.map fun v => leBytes w (ux (8 * w) (v.getD 0))).foldr (· ++ ·) [])

/-- A GAP entry. -/
def gapEntry (row lost tb lengthTb : Nat) (poison : Bool) : List Nat :=
  entryBytes 4 false false poison row tb 0 (leBytes 8 (lost % 2 ^ 32) ++ leBytes 8 lengthTb)

/-- The channels a CHANGE row writes: those absent from the last row, and those that moved by more than the deadband. -/
def changed (deadband : Nat) (key : Bool) : List (Option Int) → List (Option Int) → Nat → List (Nat × Int)
  | [], _, _ => []
  | v :: vs, last, i =>
    let rest := changed deadband key vs (last.drop 1) (i + 1)
    match v, (last.head?).join with
    | some x, some y => if key || decide (deadband < (x - y).natAbs) then (i, x) :: rest else rest
    | some x, none => (i, x) :: rest
    | none, _ => rest

/-- The values last written after a row that was written: a channel missing from it counts as absent. -/
def lastAfter (vals last : List (Option Int)) (written : List (Nat × Int)) : List (Option Int) :=
  (List.range vals.length).map fun i =>
    match written.find? (·.1 == i) with
    | some e => some e.2
    | none => if (nth none vals i).isSome then nth none last i else none

/-- The entries of a segment's items in order (R248): each with its bytes; `last` and `key` carry the CHANGE reduction. -/
def segEntries (c : GroupCfg) (trig : Option Nat) : List RingItem → List (Option Int) → Bool → List (List Nat)
  | [], _, _ => []
  | .gap row lost tb len poison :: rest, last, _ => gapEntry row lost tb len poison :: segEntries c trig rest last true
  | .row r :: rest, last, key =>
    let isTrig := trig == some r.row
    if c.reduce == 1 then
      let ws := changed c.deadband key r.vals last 0
      let quiet := ws.isEmpty && !key && !isTrig
      let last' := if quiet then last else lastAfter r.vals last ws
      let e := if quiet then []
        else entryBytes 3 isTrig key false r.row r.tb r.missing
          ((ws.map fun w => leBytes 2 w.1 ++ leBytes 2 (ux 16 w.2)).foldr (· ++ ·) [])
      e :: segEntries c trig rest last' false
    else rowEntry c r isTrig :: segEntries c trig rest last key

/-- The entries of a segment. -/
def segmentEntries (x : Segment) : List (List Nat) := segEntries x.cfg x.trigRow x.items [] true

/-- Bytes rounded up to 64, as credit counts them (R249). -/
def roundUp64 (n : Nat) : Nat := (n + 63) / 64 * 64

/-! ### Segments (R245 to R247) -/

/-- A segment by its SEQ. -/
def State.seg (s : State) (q : Nat) : Option Segment := s.spb.segs.find? (·.seq == q)

/-- Change a segment. -/
def State.updSeg (s : State) (q : Nat) (f : Segment → Segment) : State :=
  { s with spb := { s.spb with segs := updateWhere (·.seq == q) f s.spb.segs } }

/-- Bytes a segment holds in its area: its reservation, or, once complete, its length (R247). -/
def segSize (x : Segment) : Nat := if x.complete then roundUp64 x.len else x.reserve

/-- Where a segment would start, if the area has room beside the segments not released (R246, R247). -/
def State.segStart (s : State) (g : Nat) (c : GroupCfg) : Option Nat :=
  let res := segReserve c
  let off := if (s.grp g).areaNext + res ≤ c.areaLen then (s.grp g).areaNext else 0
  let live := s.spb.segs.filter (·.group == g)
  if res ≤ c.areaLen && live.all (fun x => !overlaps (c.areaBase + off) res x.addr (segSize x)) then some (c.areaBase + off) else none

/-- The bytes of a segment-table entry. -/
def segTableBytes (x : Segment) : List Nat :=
  leBytes 8 (x.addr % 2 ^ 40 + x.group % 64 * 2 ^ 40 + (if x.complete then 2 else 1) * 2 ^ 46 + x.flags % 256 * 2 ^ 48)
    ++ leBytes 4 x.len ++ leBytes 4 x.seq

/-- Write a segment's table entry. -/
def State.writeSegTable (s : State) (x : Segment) : State :=
  s.stackWrite (s.reg .SPB_SEGTAB_BASE + 16 * (x.seq % 65536)) (segTableBytes x) 3

/-- Rows of the ring that a trigger may use: closed after the previous segment's last row (R245). -/
def usable (g : Group) (r : Row) : Bool := decide (0 ≤ sdiff 32 r.row g.freeFrom)

/-- Walk back from the trigger row, the ring newest first, taking up to `k` rows and the gap markers among them. -/
def collectPre (g : Group) : Nat → List (Nat × RingItem) → List (Nat × RingItem) → List (Nat × RingItem)
  | _, [], acc => acc
  | k, (sl, .row r) :: rest, acc => if k == 0 || !usable g r then acc else collectPre g (k - 1) rest ((sl, .row r) :: acc)
  | k, (sl, .gap a b c d e) :: rest, acc => if k == 0 then acc else collectPre g k rest ((sl, .gap a b c d e) :: acc)

/-- Whether an item is a row. -/
def isRow : RingItem → Bool
  | .row _ => true
  | .gap .. => false

/-- The ring's part of a trigger: the trigger row, if there is one, and the pre-trigger rows before it (R245). -/
def ringPart (g : Group) (pre : Nat) : Option (Nat × List (Nat × RingItem)) :=
  let back := (g.ring.reverse).dropWhile (fun e => !isRow e.2)
  match back with
  | (sl, .row r) :: rest =>
    if usable g r then some (r.row, (collectPre g pre rest []).dropWhile (fun e => !isRow e.2) ++ [(sl, .row r)]) else none
  | _ => none

/-- Refresh SPB_GSTATn.PRE_AVAIL: rows that would stand before the trigger row; none in a capture, whose rows are its own, nor in a
group that is disabled (R245, R254). -/
def State.preAvail (s : State) (g : Nat) : State :=
  let n := if s.groupSt g == 0 || s.groupSt g == 2 then 0
    else ((s.grp g).ring.filter fun e => match e.2 with | .row r => usable (s.grp g) r | _ => false).length
  s.setReg .SPB_GSTAT_PRE_AVAIL g (min (n - 1) 65535)

/-- Write an item to the next slot of a group's ring. -/
def State.ringPush (s : State) (g : Nat) (c : GroupCfg) (it : RingItem) : State :=
  if c.slots == 0 || c.ringBase == 0 then s
  else
    let x := s.grp g
    let slot := x.ringPos % c.slots
    let bs := match it with
      | .row r => rowEntry { c with reduce := if c.reduce == 2 then 2 else 0 } r false
      | .gap a b t l p => gapEntry a b t l p
    let s := s.stackWrite (c.ringBase + slot * slotBytes c) bs 3
    s.setGrp g { x with ring := x.ring.filter (·.1 != slot) ++ [(slot, it)], ringPos := (slot + 1) % c.slots }

/-! ### The trigger row, arming and capture ends (R241, R242, R245) -/

/-- The cycle in which a row closed, 0 when that was long ago. -/
def closedAt (x : Group) (row : Nat) : Nat := ((x.closes.find? (·.1 == row)).map (·.2)).getD 0

/-- ARMED with empty history. -/
def State.armEmpty (s : State) (g st : Nat) : State :=
  let s := s.updGrp g fun x => { x with
    heldCfg := none, avgCnt := 0, avgSum := [], avgMissing := 0, ring := [], gap := none
    waiting := x.waiting.filter (·.2.isSome), freeFrom := x.nextRow, lastTrig := none }
  (s.setReg .SPB_GSTAT_STATE g st).preAvail g

/-- The capture in progress ends: its last row has closed, or it is cut short. -/
def State.endCapture (s : State) (g lastRow close : Nat) (trunc : Bool) : State :=
  let x := s.grp g
  let s := match x.cur with
    | some q => s.updSeg q (fun y => { y with ended := true, trunc := trunc })
    | none => s
  s.setGrp g { x with lastRowClose := close, freeFrom := (lastRow + 1) % 2 ^ 32 }

/-- Rows beyond a segment's last one, closed before its trigger row was settled, go to the ring. -/
def State.ringRest (s : State) (g lastRow : Nat) : State :=
  let x := s.grp g
  let far := fun (e : Row × Option Nat) => e.2 == x.cur && e.2.isSome && decide (0 < sdiff 32 e.1.row lastRow)
  let n := (x.waiting.filter far).length
  let s := match x.cur with
    | some q => s.updSeg q (fun y => { y with waiting := y.waiting - n })
    | none => s
  s.setGrp g { x with waiting := x.waiting.map fun e => if far e then (e.1, none) else e }

/-- The row numbered trigger row + POST has closed, stored or lost: the group waits, or, its configuration changed meanwhile, is armed
anew. [DEDUCED, log 74] -/
def State.captureDone (s : State) (g lastRow : Nat) : State :=
  let s := (s.endCapture g lastRow (closedAt (s.grp g) lastRow) false).ringRest g lastRow
  if (s.grp g).heldCfg.isSome then s.armEmpty g 1 else (s.setReg .SPB_GSTAT_STATE g 3).preAvail g

/-- A capture whose last row has closed is over. -/
def State.captureCheck (s : State) (g : Nat) : State :=
  if s.groupSt g != 2 then s
  else match (s.grp g).cur.bind s.seg with
    | some y => match y.trigRow with
      | some r =>
        let last := (r + y.cfg.post) % 2 ^ 32
        if y.resolved && decide (0 < sdiff 32 (s.grp g).nextRow last) then s.captureDone g last else s
      | none => s
    | none => s

/-- The trigger row is settled once the rows that had closed by the trigger are written or lost, or at once with `force`: the ring's
part of the segment, else the first row that closes after the trigger (R245). -/
def State.settleTrigger (s : State) (g : Nat) (force : Bool) : State :=
  let x := s.grp g
  match x.cur.bind s.seg with
  | none => s
  | some y =>
    if y.resolved || (!force && x.waiting.any (·.2.isNone)) then s
    else
      let part := ringPart x y.cfg.pre
      let items := match part with | some p => p.2 | none => []
      let preAct := ((items.filter (fun e => isRow e.2)).length) - 1
      let first := (x.waiting.find? (·.2 == some y.seq)).map (·.1.row)
      let s := s.updSeg y.seq fun z => { z with
        resolved := true, trigRow := (part.map (·.1)) <|> first, preAct := preAct, preShort := decide (preAct < z.cfg.pre)
        items := items.map (·.2)
        precopy := (List.range items.length).map (fun i => ((nth (0, RingItem.gap 0 0 0 0 false) items i).1, i)) }
      let s := if preAct < y.cfg.pre then s.bump .SPB_GCNT3_PRE_SHORT g else s
      s.captureCheck g

/-- Hold-off has ended (R242). -/
def State.holdEnded (s : State) (g : Nat) : Bool :=
  let c := s.groupCfg g
  let x := s.grp g
  if c.holdMode then decide (c.hold ≤ x.rowsSince) else decide (x.trigCyc + c.hold ≤ s.cycle)

/-- STOP (R241). -/
def stop (s : State) (g : Nat) : State :=
  match s.groupSt g with
  | 2 => (((s.endCapture g ((s.grp g).nextRow + 2 ^ 32 - 1) s.cycle true).updGrp g (fun x => { x with heldCfg := none })).setReg
      .SPB_GSTAT_STATE g 4).preAvail g
  | 1 | 3 => s.setReg .SPB_GSTAT_STATE g 4
  | _ => s

/-- ARM (R241, R252). -/
def arm (s : State) (g : Nat) : State :=
  if s.groupSt g == 4 then ((s.settleTrigger g true).setReg .SPB_GSTAT_MASK_FAIL g 0).armEmpty g 1 else s

/-! ### Rows (R231 to R233) -/

/-- A stored row has closed: it waits to be written to the ring or to the segment being captured (R245, R249). -/
def State.storeRow (s : State) (g : Nat) (r : Row) : State :=
  let x := s.grp g
  let dest := if s.groupSt g == 2 then x.cur else none
  let s := s.setGrp g { x with
    nextRow := (x.nextRow + 1) % 2 ^ 32, waiting := x.waiting ++ [(r, dest)]
    closes := (r.row, r.cyc) :: x.closes.filter fun e => decide (s.cycle < e.2 + 192) }
  match dest with
  | some q =>
    (s.updSeg q (fun y => { y with
      waiting := y.waiting + 1, trigRow := if y.resolved then some (y.trigRow.getD r.row) else none })).captureCheck g
  | none => s

/-- The input row of an assembly: values by channel index, and MISSING (R231, R232). -/
def inputRow (c : GroupCfg) (a : RowAsm) : List (Option Int) × Nat :=
  let bs := groupBlocks c
  let vals := c.chans.map fun ch =>
    (a.blocks.find? (·.1 == ch.1 / 64)).map fun b =>
      let raw := nth 0 b.2 (ch.1 % 64)
      if ch.2.2 then sx ch.2.1 raw else ((raw % 2 ^ ch.2.1 : Nat) : Int)
  let missing := ((List.range bs.length).filter fun i => !(a.blocks.any (·.1 == nth 0 bs i))).foldl (fun m i => m + 2 ^ i) 0
  (vals, missing)

/-- Add rows channel by channel; a channel missing from either is missing. -/
def addVals : List (Option Int) → List (Option Int) → List (Option Int)
  | a :: as, b :: bs => (match a, b with | some x, some y => some (x + y) | _, _ => none) :: addVals as bs
  | _, _ => []

/-- An input row closes (R232, R233): stored as it is, or summed into its AVG interval. [DEDUCED, log 73] -/
def State.closeRow (s : State) (g : Nat) (a : RowAsm) : State :=
  let c := s.groupCfg g
  let (vals, missing) := inputRow c a
  let x := s.grp g
  let x := { x with asm := x.asm.filter (·.num != a.num), lastClosed := some a.num, rowsSince := x.rowsSince + 1 }
  let mk := fun (vs : List (Option Int)) (ms : Nat) => ({ row := x.nextRow, tb := s.tb.tb, cyc := s.cycle, vals := vs, missing := ms } : Row)
  if c.reduce == 2 then
    let sum := if x.avgCnt == 0 then vals else addVals x.avgSum vals
    let miss := x.avgMissing ||| missing
    if 2 ^ c.avgK ≤ x.avgCnt + 1 then
      let out := sum.map fun v => v.map fun y => roundDiv y (2 ^ (c.avgK / 2))
      (s.setGrp g { x with avgCnt := 0, avgSum := [], avgMissing := 0 }).storeRow g (mk out miss)
    else s.setGrp g { x with avgCnt := x.avgCnt + 1, avgSum := sum, avgMissing := miss }
  else (s.setGrp g x).storeRow g (mk vals missing)

/-- A row may close: all blocks are in, or its wait is over (R232). -/
def rowReady (c : GroupCfg) (cycle : Nat) (a : RowAsm) : Bool :=
  (groupBlocks c).all (fun b => a.blocks.any (·.1 == b)) || decide (a.first + c.rowWait ≤ cycle)

/-- The row in assembly with the smallest event number. -/
def firstAsm : List RowAsm → Option RowAsm
  | [] => none
  | a :: as => match firstAsm as with
    | none => some a
    | some b => if sdiff 32 b.num a.num < 0 then some b else some a

/-- Close rows in ascending event-number order for as long as the first may close (R232). [DEDUCED, log 73] -/
def State.closeRows (s : State) (g : Nat) : Nat → State
  | 0 => s
  | n + 1 =>
    match firstAsm (s.grp g).asm with
    | some a => if rowReady (s.groupCfg g) s.cycle a then (s.closeRow g a).closeRows g n else s
    | none => s

/-- A block's raw samples reach a group (R231, R232). [DEDUCED, log 73] -/
def State.groupBlock (s : State) (g num b : Nat) (raws : List Nat) : State :=
  let x := s.grp g
  let late := match x.lastClosed with | some l => decide (sdiff 32 num l ≤ 0) | none => false
  if late then s.bump .SPB_CNT_ROW_LATE_SAMPLE
  else
    let asm := if x.asm.any (·.num == num) then x.asm else x.asm ++ [({ num := num, first := s.cycle } : RowAsm)]
    let asm := updateFirst (·.num == num)
      (fun a => if a.blocks.any (·.1 == b) then a else { a with blocks := a.blocks ++ [(b, raws)] }) asm
    (s.setGrp g { x with asm := asm }).closeRows g asm.length

/-! ### Terms (R234, R235, R239) -/

/-- Pulses older than any delay and window can reach are forgotten. -/
def State.addPulse (s : State) (p : Pulse) : State :=
  { s with spb := { s.spb with pulses := s.spb.pulses.filter (fun q => decide (s.cycle < q.cyc + 16384)) ++ [p] } }

/-- Exact comparison of a × 2^x with b × 2^y. -/
def leScaled (a x b y : Int) : Bool :=
  let m := min x y
  decide (a * (2 ^ (x - m).toNat : Nat) ≤ b * (2 ^ (y - m).toNat : Nat))

/-- One comparator sees a value d × 2^X (R234): fires or not, and the new ARMED. -/
def comparatorStep (slope : Nat) (armed seen : Bool) (level hyst lexp d x : Int) : Bool × Bool :=
  let ge := fun (l : Int) => leScaled l lexp d x
  let le := fun (l : Int) => leScaled d x l lexp
  match slope with
  | 1 => if armed && ge level then (true, false) else (false, armed || le (level - hyst))
  | 2 => if armed && le level then (true, false) else (false, armed || ge (level + hyst))
  | 3 =>
    if !seen then (false, ge level)
    else if armed && le (level - hyst) then (true, false)
    else if !armed && ge (level + hyst) then (true, true)
    else (false, armed)
  | _ => (false, armed)

/-- The comparators that watch a channel of a block, found among the registers written. [DEDUCED, log 52] -/
def State.blockComparators (s : State) (b : Nat) : List Nat :=
  sortBy (fun c => c) (s.regs.filterMap fun e =>
    if e.1.1 == .SPB_CMP_SLOPE && e.2 != 0 && s.reg .SPB_CMP_CHAN e.1.2 / 64 == b then some e.1.2 else none)

/-- The comparators of a converted block evaluate its values (R234). -/
def State.comparators (s : State) (b : Nat) (x : Int) (ds : List Int) : State :=
  (s.blockComparators b).foldl (fun s c =>
    let ch := s.reg .SPB_CMP_CHAN c
    if !(chanCfg (tblEntry s.cond.committed ch)).trig then s
    else
      let (fires, armed) := comparatorStep (s.reg .SPB_CMP_SLOPE c) (s.flag .SPB_CMPH_ARMED c) (s.spb.cmpSeen.contains c)
        (sx 24 (s.reg .SPB_CMP_LEVEL c)) (s.reg .SPB_CMPH_HYST c) (sx 8 (s.reg .SPB_CMP_LEXP c)) (nth 0 ds (ch % 64)) x
      let s := s.setFlag .SPB_CMPH_ARMED c armed
      let s := { s with spb := { s.spb with cmpSeen := if s.spb.cmpSeen.contains c then s.spb.cmpSeen else c :: s.spb.cmpSeen } }
      if fires then (s.bump .SPB_CMPH_FIRES c).addPulse { term := c, cyc := s.cycle + 2 } else s) s

/-- A verdict term accepts an entry (R235). -/
def State.termMatches (s : State) (v slot entry : Nat) : Bool :=
  let mask := s.reg .SPB_VT_MASK v
  s.flag .SPB_VT_EN v && s.reg .SPB_VT_SLOT v == slot
    && (bits entry 0 16 &&& mask) == (s.reg .SPB_VT_MATCH v &&& mask)
    && (!s.flag .SPB_VT_CAUSE_REQ v || bits entry 23 3 == 0)
    && (entryFlags entry &&& s.reg .SPB_VT_FLAG_VETO v) == 0

/-- The verdict terms see an entry: at its mark (`mode` 0), at its validation (1), or as a corrected entry (any mode) (R235). [DEDUCED, log 75] -/
def State.spbVerdict (s : State) (slot entry markTB : Nat) (mode : Option Nat) : State :=
  (List.range 32).foldl (fun s v =>
    let m := s.reg .SPB_VT_MODE v
    if s.termMatches v slot entry && (match mode with | some k => m == k | none => true) then
      s.addPulse { term := 1024 + v, cyc := s.cycle + 1, verdict := entry, slot := slot, markTB := markTB
                   corrected := mode.isNone, unvalidated := mode == some 0 }
    else s) s

/-- The cycle in which a line's term pulses for a compensated edge time: the third FCLK edge after the first at or after it (R239). -/
def linePulse (tc : Nat) : Nat := (tc + 31) / 32 + 3

/-- An edge closer than 4 cycles to the line's last one makes no pulse (R239). -/
def State.edgeClose (s : State) (l edge : Nat) : Bool :=
  match s.spb.lastEdge.get? l with | some e => decide (edge < e + 128) | none => false

/-- A falling edge at a line's ball, at a time in 1/32 cycles (R239). The pulse's EDGE_TB settles when the compensated time comes. -/
def State.lineEdge (s : State) (l edge : Nat) : State :=
  let close := s.edgeClose l edge
  let s := s.bump .SPB_LCNT_EDGES l
  let s := { s with spb := { s.spb with lastEdge := s.spb.lastEdge.put l edge } }
  if close then s
  else
    let tc := edge + s.reg .SPB_LINE_DLY l
    s.addPulse { term := 1056 + l, cyc := linePulse tc, edgeTB := (s.tbAt32 tc).1 }

/-! ### Triggers (R240 to R246) -/

/-- A trigger that a group does not capture (R243, R244). -/
def State.lostTrigger (s : State) (g u reason : Nat) : State :=
  let n := s.reg .SPB_LOST_IDX_NEXT
  let e := s.tb.tb + g % 64 * 2 ^ 64 + reason % 8 * 2 ^ 72 + u % 128 * 2 ^ 80 + s.epoch * 2 ^ 96
  let s := ((s.setReg .SPB_LOST_ENTRY n e).setReg .SPB_LOST_IDX_NEXT 0 (n + 1)).bump .SPB_LOST_IDX_TOTAL
  let s := (s.bump .SPB_GCNT_LOST g).bump .SPB_CNT_TRIG_LOST
  let s := s.updGrp g (fun x => { x with lastTrig := some s.cycle })
  s.trace 5 .spb [g, reason]

/-- What a firing's pulses add to a segment: verdicts used, CORRECTED, EDGE_TB of the lowest-numbered unit (R236, R237). -/
def segUse (x : Segment) (u : Nat) (ps : List Pulse) (first : Bool) : Segment :=
  let edge := match ps.find? (fun p => decide (1056 ≤ p.term) && decide (p.term < 1064)) with | some p => p.edgeTB | none => 0
  let vs := ps.filter (fun p => decide (1024 ≤ p.term) && decide (p.term < 1056))
  let best := minBy (·.term) vs
  let x := match best with
    | some p => if p.term - 1024 < x.verdictTerm then { x with verdict := p.verdict, verdictTerm := p.term - 1024 } else x
    | none => x
  let lower := first || decide (u < x.source)
  { x with
    source := if lower then u else x.source
    edgeTB := if lower then edge else x.edgeTB
    count := x.count + 1
    corrected := x.corrected || vs.any (·.corrected)
    voided := x.voided || vs.any (·.voided)
    pendingVerdicts := x.pendingVerdicts ++ (vs.filter (·.unvalidated)).map (fun p => (p.slot, p.markTB)) }

/-- A trigger of units, the lowest first, is captured (R245, R246). [DEDUCED, log 74] -/
def State.capture (s : State) (g : Nat) (c : GroupCfg) (start : Nat) (us : List (Nat × List Pulse)) : State :=
  let q := s.reg .SPB_SEG_WR
  let new : Segment := { seq := q, group := g, addr := start, reserve := segReserve c, trigTB := s.tb.tb, epoch := s.epoch, cfg := c }
  let y := (us.foldl (fun (acc : Segment × Bool) u => (segUse acc.1 u.1 u.2 acc.2, false)) (new, true)).1
  let s := s.setReg .SPB_SEG_WR 0 (q + 1)
  let s := { s with spb := { s.spb with segs := s.spb.segs ++ [y] } }
  let s := s.writeSegTable y
  let s := s.updGrp g fun x => { x with
    cur := some q, trigCyc := s.cycle, lastTrig := some s.cycle, rowsSince := 0
    areaNext := start - c.areaBase + segReserve c }
  let s := ((s.bump .SPB_GCNT_CAPTURED g).bump .SPB_CNT_TRIG_CAPTURED).setReg .SPB_GSTAT_STATE g 2
  ((s.trace 5 .spb [g, q]).preAvail g).settleTrigger g false

/-- The units that have fired in a cycle, the lowest first, trigger a group (R240, R241, R243). -/
def State.groupTrigger (s : State) (g : Nat) (us : List (Nat × List Pulse)) : State :=
  match us with
  | [] => s
  | (u, _) :: _ =>
    match s.groupSt g with
    | 1 =>
      let c := s.groupCfg g
      if (s.reg .SPB_SEG_WR + 2 ^ 32 - s.reg .SPB_SEG_RD) % 2 ^ 32 == 65536 then s.lostTrigger g u 5
      else match s.segStart g c with
        | some start => s.capture g c start us
        | none => s.lostTrigger g u 6
    | 2 => s.lostTrigger g u 2
    | 3 => s.lostTrigger g u (if s.holdEnded g then 4 else 3)
    | 4 => s.lostTrigger g u 1
    | _ => s

/-- As a cycle ends, the units that have fired in it trigger the groups, in ascending group number (R240, R244, R246). -/
def State.triggerGroups (s : State) : State :=
  let us := sortBy (·.1) s.spb.fires
  if us.isEmpty then s
  else
    let s := s.enabledGroups.foldl (fun (s : State) g => s.groupTrigger g (us.filter fun u => bitAt (s.groupCfg g).units u.1)) s
    { s with spb := { s.spb with fires := [] } }

/-- A line's drives with one more, in 1/32 cycles: it extends a drive under way at the firing, or one that it touches, else it is a
drive of its own, and the truth value says so (R238). [DEDUCED, log 75] -/
def driveAdd (ds : List LineDrive) (now from_ until_ : Nat) : Bool × List LineDrive :=
  let joins := fun (d : LineDrive) => decide (now < d.end32) && (decide (d.start32 ≤ now) || decide (from_ ≤ d.end32))
  if ds.any joins then (false, updateFirst joins (fun d => { d with end32 := max d.end32 until_ }) ds)
  else (true, ds ++ [{ start32 := from_, end32 := until_ }])

/-- A firing drives the lines whose SRC it is (R238), and a drive on an unvalidated verdict is noted (R383). -/
def State.driveLines (s : State) (u : Nat) (ps : List Pulse) : State :=
  (List.range 8).foldl (fun s l =>
    if s.flag .SPB_LINE_DIR l && s.reg .SPB_LINE_SRC l == u then
      let from_ := 32 * (s.cycle + 5) + s.reg .SPB_LINE_DLY l
      let until_ := from_ + 32 * max 2 (s.reg .SPB_LINE_WIDTH l)
      let notes := (ps.filter (·.unvalidated)).map fun p => (l, p.slot, p.markTB, (s.tbAt32 from_).1)
      let (fresh, ds) := driveAdd (s.spb.lines.getD l []) (32 * s.cycle) from_ until_
      let s := { s with spb := { s.spb with drives := lastN 64 (s.spb.drives ++ notes), lines := s.spb.lines.put l ds } }
      if fresh then (s.bump .SPB_LCNT_DRIVEN l).emit (.pin 2 l 0 from_) else s
    else s) s

/-- The latest pulse an input has seen by now (R240): a pulse is seen 3 + DELAY cycles after it occurs. -/
def State.lastPulse (s : State) (u i : Nat) : Option (Nat × Pulse) :=
  let term := s.reg .SPB_COIN_TERM (8 * u + i)
  let delay := 3 + s.reg .SPB_COIN_DELAY (8 * u + i)
  let since := s.spb.coSince.getD u 0
  (s.spb.pulses.filter fun p => p.term == term && decide (p.cyc + delay ≤ s.cycle) && decide (since ≤ p.cyc + delay)).foldl
    (fun (b : Option (Nat × Pulse)) p => match b with
      | none => some (p.cyc + delay, p)
      | some x => if x.1 ≤ p.cyc + delay then some (p.cyc + delay, p) else some x) none

/-- COINCIDENCE_FIRE (R240): the unit's evaluation of this cycle; its triggers act as the cycle ends. [DEDUCED, log 75] -/
def coincidenceFire (s : State) (u : Nat) : State :=
  let t := s.cycle
  let ins := (List.range 8).filter (fun i => s.flag .SPB_COIN_EN (8 * u + i))
  let pos := ins.filter (fun i => !s.flag .SPB_COIN_VETO (8 * u + i))
  let window := s.reg .SPB_CO_WINDOW u
  let vwin := s.reg .SPB_CO_VWIN u
  let seen := pos.filterMap fun i => (s.lastPulse u i).map fun x => (i, x)
  let hits := seen.filter fun e => decide (t < e.2.1 + window)
    && (match s.spb.used.get? (u, e.1) with | some k => decide (k < e.2.1) | none => true)
  let fresh := seen.any (fun e => e.2.1 == t)
  let veto := (ins.filter (fun i => s.flag .SPB_COIN_VETO (8 * u + i))).any fun i =>
    match s.lastPulse u i with | some x => decide (0 < vwin) && decide (t < x.1 + vwin) | none => false
  if fresh && !veto && decide (s.reg .SPB_CO_MIN u ≤ hits.length) && s.spb.firedAt.get? u != some t then
    let used := seen.foldl (fun (m : KMap (Nat × Nat) Nat) (e : Nat × Nat × Pulse) => m.put (u, e.1) e.2.1) s.spb.used
    let ps := hits.map (·.2.2)
    let s := { s with spb := { s.spb with used := used, firedAt := s.spb.firedAt.put u t, fires := s.spb.fires ++ [(u, ps)] } }
    (s.bump .SPB_COCNT_FIRES u).driveLines u ps
  else s

/-- LINE_DRIVE_END (R238): the line's earliest drive is over. -/
def lineDriveEnd (s : State) (l : Nat) : State :=
  match s.spb.lines.getD l [] with
  | d :: ds => if d.end32 ≤ 32 * s.cycle then
      { s with spb := { s.spb with lines := if ds.isEmpty then s.spb.lines.del l else s.spb.lines.put l ds } }.emit (.pin 2 l 1 d.end32)
    else s
  | [] => s

/-- A pulse after its verdict has been validated or voided (R236). -/
def Pulse_resolved (slot markTB : Nat) (voided : Bool) (p : Pulse) : Pulse :=
  if p.slot == slot && p.markTB == markTB && p.unvalidated then { p with unvalidated := false, voided := voided } else p

/-- A verdict has been validated or voided: its segments note it and stop waiting, a void marks drives (R236, R383). -/
def State.spbResolve (s : State) (slot markTB : Nat) (voided : Bool) : State :=
  let f := fun (x : Segment) =>
    if x.pendingVerdicts.contains (slot, markTB) then
      { x with pendingVerdicts := x.pendingVerdicts.filter (· != (slot, markTB)), voided := x.voided || voided }
    else x
  let hits := s.spb.drives.filter (fun d => d.2.1 == slot && d.2.2.1 == markTB)
  let s := { s with spb := { s.spb with
    segs := s.spb.segs.map f
    drives := s.spb.drives.filter (fun d => !(d.2.1 == slot && d.2.2.1 == markTB))
    pulses := s.spb.pulses.map (Pulse_resolved slot markTB voided)
    fires := s.spb.fires.map fun u => (u.1, u.2.map (Pulse_resolved slot markTB voided)) } }
  if voided then hits.foldl (fun s d => s.raise clsWarn .spb 0x0017 0xFFFF [d.1, d.2.2.2]) s else s

/-! ### Writing rows (R248 to R250) -/

/-- The gap marker that stands before a row stored now. -/
def gapBefore (x : Group) (r : Row) : List RingItem :=
  match x.gap with
  | some p => [.gap p.row p.lost p.tb ((r.tb + 2 ^ 64 - p.tb) % 2 ^ 64) false]
  | none => []

/-- The cost of a waiting row: its entry's length rounded up to 64, a gap marker before it free (R249, R250). -/
def State.rowCost (s : State) (g : Nat) (r : Row) (dest : Option Nat) : Nat :=
  match dest.bind s.seg with
  | some y =>
    let e := segmentEntries { y with items := y.items ++ gapBefore (s.grp g) r ++ [.row r] }
    roundUp64 ((e.getLast?).getD []).length
  | none => roundUp64 (rowEntry { s.groupCfg g with reduce := if (s.groupCfg g).reduce == 2 then 2 else 0 } r false).length

/-- A group has a row waiting that its credit covers and the acquisition queue, of 256 requests, accepts (R249, R271). -/
def State.contends (s : State) (g : Nat) : Bool :=
  match (s.grp g).waiting with
  | (r, d) :: _ => decide (s.rowCost g r d ≤ (s.grp g).credit) && decide (s.memS.acq < 256) && decide (s.cycle ≤ r.cyc + 4)
  | [] => false

/-- A write joins the acquisition queue. -/
def State.acqRequest (s : State) : State := { s with memS := { s.memS with acq := s.memS.acq + 1 } }

/-- The controller serves the acquisition queue as a cycle ends. [DESIGN CHOICE, log 73] -/
def State.acqServe (s : State) : State :=
  if s.memS.acq = 0 then s else { s with memS := { s.memS with acq := s.memS.acq - Config.acqServed s.cycle } }

/-- A group wins arbitration (R249): one row a cycle, by priority, passed over after a service, then by number. -/
def State.winsRow (s : State) (g : Nat) : Bool :=
  let others := s.enabledGroups.filter (fun h => h != g && s.contends h)
  let prio := fun h => (s.groupCfg h).prio
  let isOver := fun h => s.spb.passed.contains h
  s.spb.servedAt != some s.cycle && others.all fun h =>
    decide (prio h < prio g) || (prio h == prio g && ((isOver h && !isOver g) || (isOver h == isOver g && decide (g < h))))

/-- A group has been served: it is passed over until the others of its priority that wait have been. -/
def State.served (s : State) (g : Nat) : State :=
  let peer := fun h => (s.groupCfg h).prio == (s.groupCfg g).prio
  let others := s.spb.passed.filter (· != g)
  let passed := if (s.enabledGroups.filter fun h => h != g && s.contends h && peer h).all others.contains
    then g :: others.filter (fun h => !peer h) else g :: others
  { s with spb := { s.spb with servedAt := some s.cycle, passed := passed } }

/-- A waiting row leaves the queue. -/
def State.takeRow (s : State) (g : Nat) (dest : Option Nat) : State :=
  let s := s.updGrp g (fun x => { x with waiting := x.waiting.drop 1 })
  match dest with
  | some q => s.updSeg q (fun y => { y with waiting := y.waiting - 1 })
  | none => s

/-- Write the gap run and the row after it, in the ring or in the segment (R250). -/
def State.putRow (s : State) (g : Nat) (r : Row) (dest : Option Nat) : State :=
  let items := gapBefore (s.grp g) r ++ [RingItem.row r]
  let s := s.updGrp g (fun x => { x with gap := none })
  match dest with
  | some q => s.updSeg q (fun y => { y with items := y.items ++ items })
  | none => (items.foldl (fun s it => s.ringPush g (s.groupCfg g) it) s).preAvail g

/-- A row is lost (R250): it joins the run, or begins one; a run that spans the start of a capture is split, its ring's part ending at
the trigger. -/
def State.loseRow (s : State) (g : Nat) (r : Row) (dest : Option Nat) : State :=
  let fresh : GapRun := { row := r.row, lost := 1, tb := r.tb, inSeg := dest.isSome }
  let s := match (s.grp g).gap, dest.bind s.seg with
    | some p, some y =>
      if p.inSeg then s.updGrp g (fun x => { x with gap := some { p with lost := p.lost + 1 } })
      else (s.ringPush g (s.groupCfg g) (.gap p.row p.lost p.tb ((y.trigTB + 2 ^ 64 - p.tb) % 2 ^ 64) false)).updGrp g
        (fun x => { x with gap := some fresh })
    | some p, none => s.updGrp g (fun x => { x with gap := some { p with lost := p.lost + 1 } })
    | none, _ => s.updGrp g (fun x => { x with gap := some fresh })
  (s.bump .SPB_GCNT2_GAP_ROWS g).bump .SPB_CNT_ROW_GAP_ROWS

/-- ROW_WRITE (R249): the group's oldest closed row is written, or, its four cycles over, lost. -/
def rowWrite (s : State) (g : Nat) : State :=
  match (s.grp g).waiting with
  | [] => s
  | (r, dest) :: _ =>
    if s.contends g && s.winsRow g then
      let cost := s.rowCost g r dest
      let s := (s.served g).acqRequest
      let s := (s.takeRow g dest).putRow g r dest
      ((s.updGrp g (fun x => { x with credit := x.credit - cost })).bump .SPB_GCNT2_ROWS g).settleTrigger g false
    else if r.cyc + 4 ≤ s.cycle then ((s.takeRow g dest).loseRow g r dest).settleTrigger g false
    else s

/-- PRE_COPY (R245, R249, R250): the next ring item of the group's segment is read back and copied when credit covers it and
no live row waits. -/
def preCopy (s : State) (g : Nat) : State :=
  match s.spb.segs.find? (fun x => x.group == g && !x.precopy.isEmpty) with
  | none => s
  | some y =>
    match y.precopy with
    | [] => s
    | (slot, i) :: rest =>
      let it := nth (RingItem.gap 0 0 0 0 false) y.items i
      let len := (nth [] (segmentEntries y) i).length
      let cost := if isRow it then roundUp64 len else 0
      if !(s.grp g).waiting.isEmpty || decide ((s.grp g).credit < cost) || decide (256 ≤ s.memS.acq) then s
      else
        let s := (s.updGrp g (fun x => { x with credit := x.credit - cost })).acqRequest
        match it with
        | .row r =>
          let n := (rowEntry { y.cfg with reduce := if y.cfg.reduce == 2 then 2 else 0 } r false).length
          let (_, bad, s) := s.stackRead (y.cfg.ringBase + slot * slotBytes y.cfg) n 3
          if bad.isEmpty then s.updSeg y.seq (fun x => { x with precopy := rest })
          else
            let next := match (y.items.drop (i + 1)).find? isRow with | some (.row n) => n.tb | _ => r.tb
            let gap := RingItem.gap r.row 1 r.tb ((next + 2 ^ 64 - r.tb) % 2 ^ 64) true
            (s.updSeg y.seq (fun x => { x with precopy := rest, items := setNth x.items i gap })).bump .SPB_CNT_MISC2_POISON_ROWS
        | .gap .. => s.updSeg y.seq (fun x => { x with precopy := rest })

/-- CREDIT_REFILL (R249): every 64 cycles each group, enabled or not, gains SHARE bytes of credit, up to BURST. [DESIGN CHOICE, log 4] -/
def creditRefill (s : State) : State :=
  if s.cycle % 64 != 0 then s
  else (List.range 64).foldl (fun s g =>
    let c := s.groupCfg g
    s.updGrp g (fun x => { x with credit := min (x.credit + c.share) c.burst })) s

/-! ### Mask tests and completion (R247, R251, R252) -/

/-- The stored value of a channel in a segment's row at an offset from the trigger row. -/
def maskValue (x : Segment) (off : Int) (ch : Nat) : Option Int :=
  if off < -(x.preAct : Int) ∨ (x.cfg.post : Int) < off then none
  else
    let row := ux 32 ((x.trigRow.getD 0 : Nat) + off)
    (x.items.find? fun it => match it with | .row r => r.row == row | _ => false).bind fun it =>
      match it with | .row r => nth none r.vals ch | _ => none

/-- Test a segment's envelope points: the first that fails, and how many are not tested (R251, R252). -/
def State.maskTest (s : State) (x : Segment) : Option Nat × Nat :=
  if !x.cfg.maskEn then (none, 0)
  else
    (List.range x.cfg.maskCount).foldl (fun (acc : Option Nat × Nat) i =>
      let p := s.spb.envCommitted.getD (x.cfg.maskFirst + i) (0, 0)
      match maskValue x (sx 16 (bits p.1 0 16)) (bits p.1 16 12) with
      | none => (acc.1, acc.2 + 1)
      | some v =>
        if sx 32 (bits p.1 32 32) ≤ v ∧ v ≤ sx 32 (bits p.2 0 32) then acc
        else (some (acc.1.getD i), acc.2)) (none, 0)

/-- The segment header (Table "Segment header"). -/
def segHeader (x : Segment) (nextRow : Nat) (point : Option Nat) (untested : Nat) : List Nat :=
  leBytes 4 0x47425053 ++ leBytes 4 x.seq ++ leBytes 8 x.trigTB ++ leBytes 8 x.edgeTB ++ leBytes 8 x.verdict
    ++ leBytes 4 (x.trigRow.getD nextRow) ++ leBytes 2 x.preAct ++ leBytes 2 x.cfg.post ++ leBytes 2 x.epoch
    ++ [x.group, x.source, x.count % 256, x.cfg.reduce + x.cfg.avgK * 4] ++ leBytes 2 x.flags ++ leBytes 2 x.cfg.chans.length
    ++ leBytes 2 (point.getD 0xFFFF) ++ leBytes 2 (min untested 0xFFFF) ++ [0, 0] ++ leBytes 4 x.len ++ leBytes 4 0

/-- FLAGS of a segment (Table "Segment flags"). -/
def segFlags (x : Segment) (maskFail : Bool) : Nat :=
  b2n x.preShort + 2 * b2n (x.items.any (fun it => !isRow it)) + 4 * b2n maskFail + 8 * b2n x.voided + 16 * b2n x.corrected
    + 32 * b2n (x.items.any (fun it => match it with | .row r => r.missing != 0 | _ => false)) + 64 * b2n x.trunc
    + 128 * b2n (x.items.any (fun it => match it with | .gap _ _ _ _ p => p | _ => false))

/-- SEGMENT_COMPLETE (R236, R247, R252): every entry is in, the pulses' verdicts are settled and the mask test has finished;
the header is written last, with the table entry. [DEDUCED, log 74] -/
def segmentComplete (s : State) (q : Nat) : State :=
  match s.seg q with
  | none => s
  | some x =>
    if x.complete || !x.ended || !x.resolved || !x.precopy.isEmpty || decide (0 < x.waiting) || !x.pendingVerdicts.isEmpty then s
    else
      let (point, untested) := s.maskTest x
      let es := (segmentEntries x).foldr (· ++ ·) []
      let x := { x with complete := true, len := 64 + es.length, flags := segFlags x point.isSome }
      let s := s.updSeg q (fun _ => x)
      let s := s.stackWrite (x.addr + 64) es 3
      let s := (s.stackWrite x.addr (segHeader x (s.grp x.group).nextRow point untested) 3).writeSegTable x
      let s := s.updGrp x.group (fun g => if g.areaNext == x.addr - x.cfg.areaBase + x.reserve
        then { g with areaNext := x.addr - x.cfg.areaBase + roundUp64 x.len } else g)
      let s := if x.voided then s.bump .SPB_CNT_MISC2_VOIDED else s
      match point with
      | some _ =>
        let s := (s.bump .SPB_CNT_MISC_MASK_FAIL).setReg .SPB_GSTAT_MASK_FAIL x.group 1
        if s.groupSt x.group == 0 then s else stop s x.group
      | none => s

/-- SEGMENT_RELEASE (R246): a write of SPB_SEG.RD. -/
def segmentRelease (s : State) (value : Nat) : State :=
  let rd := s.reg .SPB_SEG_RD
  let wr := s.reg .SPB_SEG_WR
  if sdiff 32 value rd < 0 then s.bump .SPB_CNT_MISC_BAD_RELEASE
  else
    let first := match minBy (fun x => (x.seq + 2 ^ 32 - rd) % 2 ^ 32) (s.spb.segs.filter (fun x => !x.complete)) with
      | some x => x.seq
      | none => wr
    let n := min ((value % 2 ^ 32 + 2 ^ 32 - rd) % 2 ^ 32) ((first + 2 ^ 32 - rd) % 2 ^ 32)
    let s := { s with spb := { s.spb with segs := s.spb.segs.filter (fun x => decide (n ≤ (x.seq + 2 ^ 32 - rd) % 2 ^ 32)) } }
    s.setReg .SPB_SEG_RD 0 (rd + n)

/-- GROUP_REARM (R242): a WAIT group becomes ARMED at the latest of hold-off's end, 192 cycles after the segment's last row,
and the copy's end, unless its segment fails its mask. -/
def groupRearm (s : State) (g : Nat) : State :=
  let x := s.grp g
  let y := x.cur.bind s.seg
  let copied := match y with | some z => z.precopy.isEmpty | none => true
  let failed := match y with | some z => (s.maskTest z).1.isSome && !z.complete | none => false
  if s.groupSt g == 3 && s.holdEnded g && decide (x.lastRowClose + 192 ≤ s.cycle) && copied && !failed then
    s.setReg .SPB_GSTAT_STATE g 1
  else s

/-- ROW_WAIT_EXPIRY (R232). -/
def rowWaitExpiry (s : State) (g : Nat) : State := s.closeRows g (s.grp g).asm.length

/-- SPB_FORCE (R253): host terms pulse one cycle later. -/
def spbForce (s : State) (value : Nat) : State :=
  (List.range 8).foldl (fun s h => if bitAt value h then s.addPulse { term := 1080 + h, cyc := s.cycle + 1 } else s) s

/-- A write to the envelope store's staged copy (R253). -/
def State.envStore (s : State) (f : Nat × Nat → Nat × Nat) : State :=
  let n := s.reg .SPB_ENV_INDEX_INDEX
  { s with spb := { s.spb with envStaged := s.spb.envStaged.put n (f (s.spb.envStaged.getD n (0, 0))) } }

/-- SPB_ENV_LO (R253); bits [31:28] are reserved. -/
def spbEnvLo (s : State) (value : Nat) : State := s.envStore fun e => (setBits (value % 2 ^ 64) 28 4 0, e.2)

/-- SPB_ENV_HI (R253); bits [127:96] are reserved. -/
def spbEnvHi (s : State) (value : Nat) : State := s.envStore fun e => (e.1, value % 2 ^ 32)

/-! ### Commits (R234, R240, R241, R255) -/

/-- The registers of a list, for one instance, differ between two configurations. -/
def State.cfgDiffers (s : State) (m : RegMap) (rs : List Reg) (i : Nat) : Bool := rs.any (fun r => s.reg r i != s.regIn m r i)

/-- What a commit does to one group (Table "Group transitions"): `old` is its configuration before. -/
def State.groupCommit (s : State) (g : Nat) (old : GroupCfg) : State :=
  let c := s.groupCfgIn s.regs s.cond.committed g
  let st := s.groupSt g
  let s := if c.en then
      ((s.setReg .SPB_GSTAT_NCH g c.chans.length).setReg .SPB_GSTAT_NBLK g (groupBlocks c).length).setReg
        .SPB_GRLEN_SLOT_BYTES g (slotBytes c)
    else s
  let s := if c.areaBase != old.areaBase || c.areaLen != old.areaLen then s.updGrp g (fun x => { x with areaNext := 0 }) else s
  if !c.en then
    if st == 0 then s
    else
      let s := (if st == 2 then stop s g else s).settleTrigger g true
      ((s.updGrp g (fun x => { x with asm := [], heldCfg := none, waiting := x.waiting.filter (·.2.isSome) })).setReg
        .SPB_GSTAT_STATE g 0).preAvail g
  else if st == 0 then s.armEmpty g 1
  else if c == old then s
  else if st == 2 then s.updGrp g (fun x => { x with heldCfg := some (x.heldCfg.getD old) })
  else (s.settleTrigger g true).armEmpty g (if st == 4 then 4 else 1)

/-- What cycle C of a commit does to Springbok; `m` and `t` are the registers and the channel table before it. -/
def State.spbCommit (s : State) (m : RegMap) (t : KMap Nat ChanEntry) : State :=
  let s := { s with spb := { s.spb with envCommitted := s.spb.envStaged } }
  let gs := (List.range 64).filter fun g => s.groupEnIn m g || s.groupEnIn s.regs g
  let s := gs.foldl (fun s g => s.groupCommit g (s.groupCfgIn m t g)) s
  let cmp : List Reg := [.SPB_CMP_CHAN, .SPB_CMP_SLOPE, .SPB_CMP_LEXP, .SPB_CMP_LEVEL, .SPB_CMPH_HYST]
  let cs := (List.range 1024).filter (s.cfgDiffers m cmp)
  let s := cs.foldl (fun s c => s.setReg .SPB_CMPH_ARMED c 0) s
  let unit := fun u => s.cfgDiffers m [.SPB_CO_MIN, .SPB_CO_WINDOW, .SPB_CO_VWIN] u
    || (List.range 8).any (fun i => s.cfgDiffers m [.SPB_COIN_TERM, .SPB_COIN_EN, .SPB_COIN_VETO, .SPB_COIN_DELAY] (8 * u + i))
  let us := (List.range 128).filter unit
  { s with spb := { s.spb with
      cmpSeen := s.spb.cmpSeen.filter (fun c => !cs.contains c)
      used := s.spb.used.filter (fun e => !us.contains e.1.1)
      coSince := us.foldl (fun (k : KMap Nat Nat) (u : Nat) => k.put u s.cycle) s.spb.coSince } }

/-! ### SENSOR (R287) -/

/-- One block of a SENSOR frame: converted, delivered to the deskew buffer and to Springbok (R146, R148, R231). [DEDUCED, log 53] -/
def State.sensorBlock (s : State) (num b : Nat) (raws : List Nat) : State :=
  let x := s.liveExp b
  let (c, s) := s.convertBlock num b raws
  let s := s.dskBlock num c.blk
  let s := s.comparators b x (c.outs.map (·.d))
  s.enabledGroups.foldl (fun s g => if (groupBlocks (s.groupCfg g)).contains b then s.groupBlock g num b raws else s) s

/-- SENSOR (R287): on an ingress port, the blocks of one event. [DEDUCED, log 53] -/
def sensor (s : State) (p : Nat) (f : Frame) : State :=
  s.receiveFrame p 1 f fun s =>
    let head := leAt f.payload 0 8
    let (num, b, n) := (bits head 0 32, bits head 32 10, bits head 42 3)
    if s.judgeReserved p && bits head 45 19 != 0 then s.violation p 4 1
    else if f.len ≠ 1 + 16 * n then s.violation p 3 1
    else if n == 0 || 1023 < b + n - 1 then s.violation p 12 1
    else (List.range n).foldl (fun s k =>
      s.sensorBlock num (b + k) ((List.range 64).map fun e => leAt f.payload (8 + 128 * k + 2 * e) 2)) s

/-- SENSOR (R287). -/
def execSensor (port : Fin 16) (f : Frame) (s : State) : Answer := awake s (sensor s port.val f)
/-- ROW_WAIT_EXPIRY (R232). -/
def execRowWaitExpiry (group : Fin 64) (s : State) : Answer := awake s (rowWaitExpiry s group.val)
/-- COINCIDENCE_FIRE (R240). -/
def execCoincidenceFire (unit : Fin 128) (s : State) : Answer := awake s (coincidenceFire s unit.val)
/-- LINE_DRIVE_END (R238). -/
def execLineDriveEnd (line : Fin 8) (s : State) : Answer := awake s (lineDriveEnd s line.val)
/-- GROUP_REARM (R242). -/
def execGroupRearm (group : Fin 64) (s : State) : Answer := awake s (groupRearm s group.val)
/-- PRE_COPY (R245). -/
def execPreCopy (group : Fin 64) (s : State) : Answer := awake s (preCopy s group.val)
/-- ROW_WRITE (R249). -/
def execRowWrite (group : Fin 64) (s : State) : Answer := awake s (rowWrite s group.val)
/-- CREDIT_REFILL (R249). -/
def execCreditRefill (s : State) : Answer := awake s (creditRefill s)
/-- SEGMENT_COMPLETE (R247). -/
def execSegmentComplete (seq : Nat) (s : State) : Answer := awake s (segmentComplete s seq)
/-- SEGMENT_RELEASE (R246). -/
def execSegmentRelease (value : Nat) (s : State) : Answer := awake s (segmentRelease s value)
/-- SPB_FORCE (R253). -/
def execSpbForce (value : Nat) (s : State) : Answer := awake s (spbForce s value)
/-- ARM (R241). -/
def execArm (group : Fin 64) (s : State) : Answer := awake s (arm s group.val)
/-- STOP (R241). -/
def execStop (group : Fin 64) (s : State) : Answer := awake s (stop s group.val)
/-- SPB_ENV_LO (R253). -/
def execSpbEnvLo (value : Nat) (s : State) : Answer := awake s (spbEnvLo s value)
/-- SPB_ENV_HI (R253). -/
def execSpbEnvHi (value : Nat) (s : State) : Answer := awake s (spbEnvHi s value)

end Sys2Proof.Machine
end

