-- ==== Sys2Proof/Machine/Verdict.lean ====
section
/-! DEFINITION. The verdict units (R41 to R68) and the check collectors (R368 to R373): result tokens, flags, cut-off, verdict
mark, check posts, resolution, validation, pins and verdict-path frames. -/
namespace Sys2Proof.Machine
open Sys2Proof

/-! ### Networks by EPOCH_LO (R205) -/

/-- The network a slot held in the epoch before the current one: the live one, unless it became live with this epoch. -/
def State.netBefore (s : State) (slot : Nat) : Option Net :=
  let n := s.netSlot slot
  match n.live with
  | some l => if l.epoch == s.epoch then n.old else some l
  | none => n.old

/-- The network of a slot in the epoch copy that an EPOCH_LO names; none for a stale one. [DEDUCED, log 27] -/
def State.netFor (s : State) (slot lo : Nat) : Option Net :=
  match s.epochOf lo with
  | none => none
  | some e =>
    if e == s.epoch then (s.netSlot slot).live
    else match s.commit with
      | .broadcast _ n => if e == n then SlotNet_next (s.netSlot slot) else none
      | _ => s.netBefore slot

/-- A network's tag range holds a tag. -/
def Image_hasTag (i : Image) (tag : Nat) : Bool := decide (i.tagBase ≤ tag) && decide (tag < i.tagBase + i.tagCount)

/-- The slot and network to which a collection port hands a token (R205). -/
def State.tagOwner (s : State) (t : Token) : Option (Nat × Net) :=
  (List.range 16).findSome? fun i =>
    match s.netFor i t.epochLo with
    | some n => if Image_hasTag n.img t.tag then some (i, n) else none
    | none => none

/-! ### Verdict units -/

/-- A slot's verdict unit. -/
def State.unitV (s : State) (slot : Nat) : VrdUnit := s.vrd.getD slot {}

/-- Change a slot's verdict unit. -/
def State.updV (s : State) (slot : Nat) (f : VrdUnit → VrdUnit) : State := { s with vrd := s.vrd.upd slot {} f }

/-- Change one event of a verdict unit. -/
def State.updEvent (s : State) (slot : Nat) (e new : VEvent) : State :=
  s.updV slot fun v => { v with events := updateFirst (· == e) (fun _ => new) v.events }

/-- The cut-off cycle of an event (R43). -/
def VEvent_cutoff (e : VEvent) : Nat := e.mark + e.lnet - 4

/-- The verdict mark of an event (R41). -/
def VEvent_vmark (e : VEvent) : Nat := e.mark + e.lnet

/-- An injected event with a tag and EPOCH_LO. -/
def evMatches (tag lo : Nat) (e : VEvent) : Bool := e.injected && e.tag == tag && e.epoch % 256 == lo

/-- The verdict unit is handed a token that reached it in cycle `at_` (R44, R54). -/
def State.handToken (s : State) (slot : Nat) (net : Net) (t : Token) (at_ : Nat) : State :=
  let evs := (s.unitV slot).events
  if t.stream ≠ net.img.vstream then s.bump .VRD_CNT_OTHER_TOKENS slot
  else match evs.find? (fun e => evMatches t.tag t.epochLo e && !e.closed && decide (at_ ≤ VEvent_cutoff e)) with
    | some e =>
      if e.result.isSome then s.bump .VRD_CNT_OTHER_TOKENS slot
      else (s.updEvent slot e { e with result := some t }).updV slot fun v => { v with taken := (t.tag, t.epochLo) :: v.taken }
    | none =>
      if (s.unitV slot).taken.contains (t.tag, t.epochLo) then s.bump .VRD_CNT_OTHER_TOKENS slot
      else s.bump .VRD_CNT_LATE_RESULT slot

/-- FINAL_RESULT_TOKEN (R43, R44, R205): the oldest token at a row's collection port crosses the 6-cycle crossbar to the verdict
unit of the slot whose range holds its tag. -/
def finalResultToken (s : State) (row : Nat) : State :=
  match s.fab.coll.getD row [] with
  | [] => s
  | e :: rest =>
    if s.cycle < e.cyc + 6 then s
    else
      let s := { s with fab := { s.fab with coll := s.fab.coll.put row rest } }
      if (s.epochOf e.tok.epochLo).isNone then s.staleToken (unitAt 79 row + 4096) e.tok
      else match s.tagOwner e.tok with
        | some (slot, net) => s.handToken slot net e.tok (e.cyc + 6)
        | none => s.noRoute (unitAt 79 row) e.tok

/-- An event with a flag set: 0 SKEW, 1 POISON, 2 ADAPTED. -/
def VEvent_flag (e : VEvent) (flag : Nat) : VEvent :=
  match flag with
  | 0 => { e with fSkew := true }
  | 1 => { e with fPoison := true }
  | _ => { e with fAdapted := true }

/-- A flag reaches the slot's collector (R45). -/
def State.collectFlag (s : State) (slot : Nat) (p : FlagPost) : State :=
  match (s.unitV slot).events.find? (fun e => evMatches p.tag p.epochLo e && !e.closed && decide (p.cyc ≤ VEvent_cutoff e)) with
  | some e => s.updEvent slot e (VEvent_flag e p.flag)
  | none =>
    (s.bump .VRD_CNT_LATE_FLAG slot).raise clsWarn .vrd 0x0002 0xFFFF
      [slot, p.tag, (s.epochOf p.epochLo).getD p.epochLo, p.flag]

/-- FLAG_POST (R45): the oldest flag whose 4 cycles on the sideband are over reaches the collector. -/
def flagPost (s : State) (slot : Nat) : State :=
  let due := fun (p : FlagPost) => p.slot == slot && decide (p.cyc ≤ s.cycle)
  match s.fab.flagPosts.find? due with
  | none => s
  | some p => { s with fab := { s.fab with flagPosts := removeFirst due s.fab.flagPosts } }.collectFlag slot p

/-- CUT_OFF (R43, R45): the oldest open event whose cut-off cycle is over takes no more tokens and flags; those of the cut-off cycle
itself are in time. -/
def cutOff (s : State) (slot : Nat) : State :=
  match (s.unitV slot).events.find? (fun e => !e.closed && decide (VEvent_cutoff e < s.cycle)) with
  | some e => s.updEvent slot e { e with closed := true }
  | none => s

/-! ### The entry (R51 to R53) -/

/-- A thermal drain applies to a verdict mark (R53, R426). -/
def State.thermalDrained (s : State) (vmark : Nat) : Bool :=
  match s.power.thermalFrom with | some f => decide (f ≤ vmark) | none => false

/-- A fault drain applies to an event (R53, R391). -/
def State.faultDrained (s : State) (e : VEvent) : Bool :=
  match s.ints.drainFrom with
  | some f => decide (f ≤ VEvent_vmark e) && (match s.ints.drainEnd with | some c => decide (e.mark < c) | none => true)
  | none => false

/-- The final result token carries poison: marked, or not DATA, or not I16 (R44). -/
def resultPoisoned (t : Token) : Bool := t.poison || t.kind != 1 || t.fmt != 5

/-- The first cause that applies (R52). -/
def causeOf (thermal fault : Bool) (e : VEvent) : Nat :=
  if thermal then 5
  else if fault then 6
  else if e.overrun then 3
  else if !e.injected then 2
  else match e.result with
    | some t => if resultPoisoned t then 4 else 0
    | none => 1

/-- The verdict entry of an event (R51, R52). -/
def State.composeEntry (s : State) (slot : Nat) (e : VEvent) : VEntry :=
  let thermal := s.thermalDrained (VEvent_vmark e)
  let fault := s.faultDrained e
  let cause := causeOf thermal fault e
  let poisoned := match e.result with | some t => resultPoisoned t | none => false
  { result := if cause == 0 then (match e.result with | some t => t.payload.toNat % 65536 | none => 0) else s.vrdReg e.epoch .VRD_DEFAULT_RESULT slot
    timeout := e.injected && e.result.isNone, incomplete := e.incomplete || e.overrun, skew := e.fSkew
    poison := e.fPoison || poisoned || fault, thermal := thermal, adapted := e.fAdapted || e.adapted, cause := cause
    slot := slot, bank := e.bank, tag := e.tag, epoch := e.epoch }

/-! ### Pins (R60) -/

/-- A pin pulse begins 5 cycles after this one, merging with one still driven: the end of the drive, and the journal. -/
def State.pulsePin (s : State) (group slot epoch : Nat) (drive : Option Nat) : Option Nat × State :=
  let start := s.cycle + 5
  let stop_ := start + max 2 (s.vrdReg epoch .VRD_CTRL_PIN_WIDTH slot)
  match drive with
  | some e =>
    if start < e then (some stop_, s)
    else (some stop_, (s.emit (.pin group slot 0 e)).emit (.pin group slot 1 start))
  | none => (some stop_, s.emit (.pin group slot 1 start))

/-- The RESULT of an entry matches the slot's pin pattern (R60). -/
def State.pinMatches (s : State) (slot entry : Nat) : Bool :=
  let e := VEntry_of entry
  let m := s.vrdReg e.epoch .VRD_PIN_MATCH_MASK slot
  e.result &&& m == s.vrdReg e.epoch .VRD_PIN_MATCH_MATCH slot &&& m && s.vrdReg e.epoch .VRD_CTRL_PIN_EN slot == 1
    && (e.cause == 0 || s.vrdReg e.epoch .VRD_CTRL_DEFAULT_PIN slot == 1)

/-- VERD_PULSE_END (R60): the pins whose pulse is over return inactive. -/
def verdPulseEnd (s : State) (slot : Nat) : State :=
  let v := s.unitV slot
  let due := fun (d : Option Nat) => match d with | some e => decide (e ≤ s.cycle) | none => false
  let s := if due v.verdEnd then (s.emit (.pin 0 slot 0 (v.verdEnd.getD 0))).updV slot (fun v => { v with verdEnd := none }) else s
  if due v.validEnd then (s.emit (.pin 1 slot 0 (v.validEnd.getD 0))).updV slot (fun v => { v with validEnd := none }) else s

/-! ### Verdict-path frames (R64, R65) -/

/-- Change what the ports of a mask release in this cycle. [DEDUCED, log 55] -/
def State.release (s : State) (ports : Nat) (f : OpxPort → OpxPort) : State :=
  (List.range 16).foldl (fun s p => if bitAt ports p then s.updPort p f else s) s

/-- The payload of a verdict-path frame (Table "Verdict-path payload header"). -/
def verdictPayload (markTB through sys : Nat) (entries : List Nat) (seq : Nat) : List Nat :=
  leBytes 4 markTB ++ leBytes 4 through ++ leBytes 8 (entries.length + sys % 64 * 2 ^ 8 + seq % 65536 * 2 ^ 16)
    ++ (entries.map (leBytes 8)).foldr (· ++ ·) []

/-- Entries in ascending SLOT order. -/
def bySlot (es : List Nat) : List Nat := sortBy (fun e => bits e 26 4) es

/-- A port sends what the cycle that ends has released: VOID, then VERDICT, then each LATE_CORRECTED entry alone (R65). [DEDUCED, log 55] -/
def State.flushRelease (s : State) (p : Nat) : State :=
  let x := s.port p
  let r := x.rel
  if r == {} then s
  else
    let sys := s.reg .CHIP_SYSID_ID
    let (none_, s) := if x.through.isSome then (0, s) else s.free (2 ^ 32)
    let through := x.through.getD none_
    let s := s.updPort p (fun x => { x with rel := {} })
    let s := if r.voids.isEmpty then s else s.sendExpress p 4 (verdictPayload r.voidMark 0 sys (bySlot r.voids))
    let s := if r.entries.isEmpty && !r.valid then s
      else s.sendExpress p 3 (verdictPayload (if r.entries.isEmpty then s.tb.tb else r.mark) through sys (bySlot r.entries))
    r.corrected.foldl (fun (s : State) (c : Nat × Nat) => s.sendExpress p 3 (verdictPayload c.1 through sys [c.2])) s

/-! ### The mark (R41) -/

/-- The emitted entry's effects: status, counters, pin, ports, Springbok and the trace (R41, R60, R65, R68, R235, R438). -/
def State.emitVerdict (s : State) (slot : Nat) (e : VEvent) (v : VEntry) : State :=
  let w := VEntry_bits v
  let s := ((s.setReg .VRD_STATUS_LAST_TAG slot v.tag).setReg .VRD_STATUS_LAST_EPOCH slot v.epoch).bump .VRD_CNT_VERDICT_COUNT slot
  let s := if v.cause == 1 then s.bump .VRD_CNT_DEFAULT_TIMEOUT slot else s
  let s := if v.incomplete then s.bump .VRD_CNT_DEFAULT_INCOMPLETE slot else s
  let s := if v.cause == 3 then s.bump .VRD_CNT_DEFAULT2_OVERRUN slot else s
  let s := if v.poison then s.bump .VRD_CNT_DEFAULT2_POISON slot else s
  let pulse := s.pinMatches slot w
  let (drive, s) := if pulse then s.pulsePin 0 slot v.epoch (s.unitV slot).verdEnd else ((s.unitV slot).verdEnd, s)
  let ports := s.vrdReg v.epoch .VRD_PORTS_MAP slot
  let s := s.updV slot fun x => { x with
    verdEnd := drive
    events := updateFirst (· == e)
      (fun e => { e with closed := true, entry := some w, markTB := s.tb.tb, pulsed := pulse, ports := ports }) x.events }
  let tb := s.tb.tb
  let s := s.release ports (fun x => { x with rel := { x.rel with entries := x.rel.entries ++ [w], mark := tb } })
  let s := s.spbVerdict slot w tb (some 0)
  if bitAt (s.reg .LOG_TRACE_SLOTS) slot then s.trace 0 .vrd [w, tb] else s

/-- VERDICT_MARK (R41): the oldest event without an entry whose mark has come. -/
def verdictMark (s : State) (slot : Nat) : State :=
  match (s.unitV slot).events.find? (fun e => e.entry.isNone && decide (VEvent_vmark e ≤ s.cycle)) with
  | some e => s.emitVerdict slot e (s.composeEntry slot e)
  | none => s

/-! ### Check posts (R368 to R371) -/

/-- The check descriptor of a posting unit in the network of an event (R372). -/
def State.descOf (s : State) (slot lo unit : Nat) : Option CheckDesc :=
  match s.netFor slot lo with
  | some n => n.img.checks.find? (·.unit == unit)
  | none => none

/-- A post that voids nothing (R370). -/
def State.latePost (s : State) (slot : Nat) (p : CheckPost) : State :=
  let s := (s.bump .INT_CNT_CHECK_LATE).raise clsFault .int 0x0016 p.unit [p.unit, p.cls, slot, p.tag]
  let s := s.signature { kind := 2, unit := some p.unit, cls := some p.cls, slot := some slot, tag := some p.tag
                         res := some (p.resMain, p.resPred, none), words := some (sx 32 p.wordMain, none)
                         image := some (s.imageIdOf slot) }
  if p.injected then s else s.transient p.unit

/-- A post reaches a slot's collector; one that comes past the resolution cycle of its event is late (R368, R370, R371). [DEDUCED, log 57] -/
def State.collectPost (s : State) (slot : Nat) (p : CheckPost) : State :=
  let v := s.unitV slot
  let s := s.bump .INT_CNT_CHECK_FAILED
  let n := if v.postsAt == s.cycle then v.postsIn + 1 else 1
  let s := s.updV slot fun v => { v with postsAt := s.cycle, postsIn := n }
  if v.events.any (fun e => evMatches p.tag p.epochLo e && !e.resolved && decide (p.cyc ≤ VEvent_vmark e + 16)) then
    if 64 ≤ v.posts.length then (s.updV slot fun v => { v with overflow := true }).bump .INT_CNT_SEQ_OVERFLOW
    else s.updV slot fun v => { v with posts := v.posts ++ [p] }
  else s.latePost slot p

/-- CHECK_POST (R38, R368, R371): a post reaches the collector: of those due on the sideband, with the one the command brings, the
oldest, and of one cycle's that of the lowest unit; a ninth in one cycle waits on the sideband. [DEDUCED, log 57, 58] -/
def checkPost (s : State) (slot : Nat) (post : Option CheckPost) : State :=
  let v := s.unitV slot
  let full := v.postsAt == s.cycle && decide (8 ≤ v.postsIn)
  let due := fun (p : CheckPost) => p.slot == slot && decide (p.cyc ≤ s.cycle)
  let s := match post with
    | some p => { s with fab := { s.fab with checkPosts := s.fab.checkPosts ++ [{ p with slot := slot, cyc := s.cycle }] } }
    | none => s
  match minBy (fun p => p.cyc * 65536 + p.unit) (s.fab.checkPosts.filter due) with
  | some p => if full then s else { s with fab := { s.fab with checkPosts := removeFirst (· == p) s.fab.checkPosts } }.collectPost slot p
  | none => s

/-- A held post voids the verdict of its event (R369): from a unit on the verdict path, of a class that voids. [DEDUCED, log 57] -/
def State.postVoids (s : State) (slot : Nat) (p : CheckPost) : Bool :=
  decide (1 ≤ p.cls) && decide (p.cls ≤ 4) && (match s.descOf slot p.epochLo p.unit with | some d => d.verdictPath | none => false)

/-- Queue a replay request, in order of verdict mark and then of slot (R373). -/
def replayPlace (r : Replay) : List Replay → List Replay
  | [] => [r]
  | x :: xs => if x.validCyc < r.validCyc || (x.validCyc == r.validCyc && x.slot ≤ r.slot) then x :: replayPlace r xs else r :: x :: xs

/-- A voided event asks for its replay; a VRD failure goes to arbitration, a full queue ends it with QUEUE (R373, R378, R380). -/
def State.requestReplay (s : State) (r : Replay) : State :=
  if r.vrdFail then s.arbitrateVrd r
  else if 16 ≤ s.ints.queue.length then s.arbitrateNone r 1
  else { s with ints := { s.ints with queue := replayPlace r s.ints.queue } }.setReg .INT_REPLAY_QUEUED 0 (s.ints.queue.length + 1)

/-- The event is resolved: voided or not (R369). -/
def State.resolveEvent (s : State) (slot : Nat) (e : VEvent) (vrdFail : Bool) : State :=
  let v := s.unitV slot
  let computed := (VEntry_of (e.entry.getD 0)).cause == 0
  let mine := v.posts.filter (fun p => evMatches p.tag p.epochLo e)
  let drop := computed && !s.draining
  let voiding := mine.filter (fun p => drop && s.postVoids slot p)
  let others := mine.filter (fun p => !(drop && s.postVoids slot p))
  let tooBig := v.overflow && computed
  let voided := !voiding.isEmpty || vrdFail || tooBig
  let left := v.posts.filter (fun p => !evMatches p.tag p.epochLo e)
  let s := s.updV slot fun x => { x with
    posts := left, overflow := x.overflow && decide (32 ≤ left.length)
    events := updateFirst (· == e) (fun e => { e with resolved := true, voided := voided, vrdFail := vrdFail }) x.events }
  let s := others.foldl (fun s p => s.latePost slot p) s
  if voided then
    s.requestReplay { slot := slot, tag := e.tag, epoch := e.epoch, num := e.num, entry := e.entry.getD 0, markTB := e.markTB
                      ingressTB := e.ingressTB, bank := e.bank, validCyc := VEvent_vmark e + 20, ports := e.ports, posts := voiding, inj := e.injected
                      overflow := tooBig, vrdFail := vrdFail }
  else s

/-- CHECK_RESOLVE (R369): the oldest event not resolved, 16 cycles after its mark. -/
def checkResolve (s : State) (slot : Nat) (vrdFail : Bool) : State :=
  match (s.unitV slot).events.find? (fun e => e.entry.isSome && !e.resolved && decide (VEvent_vmark e + 16 ≤ s.cycle)) with
  | some e => s.resolveEvent slot e vrdFail
  | none => s

/-! ### Validation (R55 to R58) -/

/-- A retention entry is released by its event's verdict (R267). -/
def State.retSettle (s : State) (slot tag epoch ingressTB : Nat) : State :=
  s.retUpd slot tag epoch ingressTB (fun r => { r with settled := true, replaying := false })

/-- The latest verdict mark validated or voided on a port. -/
def laterMark (through : Option Nat) (tb : Nat) : Option Nat :=
  match through with
  | some t => if 0 ≤ sdiff 64 tb t then some tb else some t
  | none => some tb

/-- The verdict is validated: VALIDn, Springbok, the sampler, lock-step, and retention (R55, R60, R210, R235, R267, R409). -/
def State.validateEvent (s : State) (slot : Nat) (e : VEvent) : State :=
  let w := e.entry.getD 0
  let (drive, s) := if e.pulsed && s.vrdReg e.epoch .VRD_CTRL_VALID_PIN_EN slot == 1 then s.pulsePin 1 slot e.epoch (s.unitV slot).validEnd
    else ((s.unitV slot).validEnd, s)
  let s := s.updV slot fun v => { v with validEnd := drive }
  let s := s.spbVerdict slot w e.markTB (some 1)
  let s := s.spbResolve slot e.markTB false
  let s := s.sampleDecide slot e.num e.tag e.epoch w e.markTB e.ingressTB
  let s := s.lockFinal slot e.num e.tag e.epoch e.injected false w
  if e.injected then s.retSettle slot e.tag e.epoch e.ingressTB else s

/-- The verdict is voided: its entry goes into the VOID frame of every port that carried it (R56). -/
def State.voidEvent (s : State) (slot : Nat) (e : VEvent) : State :=
  let w := e.entry.getD 0
  let s := s.release e.ports (fun x => { x with rel := { x.rel with voids := x.rel.voids ++ [w], voidMark := e.markTB } })
  (s.bump .VRD_CNT_VOID_VOID slot).spbResolve slot e.markTB true

/-- VALIDATION (R55): the oldest resolved event, 20 cycles after its mark; its ports' next VERDICT frame covers the mark. -/
def validation (s : State) (slot : Nat) : State :=
  match (s.unitV slot).events.find? (fun e => e.resolved && decide (VEvent_vmark e + 20 ≤ s.cycle)) with
  | none => s
  | some e =>
    let s := s.updV slot fun v => { v with events := removeFirst (· == e) v.events }
    let s := if e.voided then s.voidEvent slot e else s.validateEvent slot e
    s.release e.ports (fun x => { x with rel := { x.rel with valid := true }, through := laterMark x.through e.markTB })

/-- FINAL_RESULT_TOKEN (R44). -/
def execFinalResultToken (row : Fin 24) (s : State) : Answer := awake s (finalResultToken s row.val)
/-- FLAG_POST (R45). -/
def execFlagPost (slot : Fin 16) (s : State) : Answer := awake s (flagPost s slot.val)
/-- CUT_OFF (R43). -/
def execCutOff (slot : Fin 16) (s : State) : Answer := awake s (cutOff s slot.val)
/-- VERDICT_MARK (R41). -/
def execVerdictMark (slot : Fin 16) (s : State) : Answer := awake s (verdictMark s slot.val)
/-- CHECK_RESOLVE (R369). -/
def execCheckResolve (slot : Fin 16) (vrdFail : Bool) (s : State) : Answer := awake s (checkResolve s slot.val vrdFail)
/-- VALIDATION (R55). -/
def execValidation (slot : Fin 16) (s : State) : Answer := awake s (validation s slot.val)
/-- VERD_PULSE_END (R60). -/
def execVerdPulseEnd (slot : Fin 16) (s : State) : Answer := awake s (verdPulseEnd s slot.val)
/-- CHECK_POST (R368). -/
def execCheckPost (slot : Fin 16) (post : Option CheckPost) (s : State) : Answer := awake s (checkPost s slot.val post)

end Sys2Proof.Machine
end

