-- ==== Sys2Proof/Machine/Replay.lean ====
section
/-! DEFINITION. What a replay computes (R376 to R378): the event of a retention entry runs alone through the network of its
epoch, with pass data from the golden copy and programs and scratch from the replay copy, in a scratch copy of the state of
which only the results are kept. -/
namespace Sys2Proof.Machine
open Sys2Proof

/-! ### What the replay reads -/

/-- A fawn unit's rank among its site's fawn units. -/
def fawnRank (u : Nat) : Nat := ((List.range (UnitAddr.unit u)).filter fun k => k != 2 && k != 7 && k != 12).length

/-- The replay copy of a fawn core (R376). -/
def State.replayArea (s : State) (u : Nat) : Nat :=
  s.reg .INT_RPL_BASE + 81920 * (12 * (17 * UnitAddr.region u + UnitAddr.cluster u) + fawnRank u)

/-- The token that a retention entry's 48 bytes spell (R213). -/
def tokenOfBytes (bs : List Nat) : Token :=
  let h := leAt bs 0 8
  { tag := bits h 0 14, stream := bits h 14 12, block := bits h 26 8, fmt := bits h 34 6, kind := bits h 40 3
    poison := bitAt h 43, last := bitAt h 44, epochLo := bits h 45 8, residue := bits h 53 8
    payload := BitVec.ofNat 256 (leAt bs 8 32) }

/-- The tokens of a retention entry, in the order they left the deskew buffer (R266). -/
def State.retTokens (s : State) (e : RetEntry) : List Token :=
  (List.range e.tokens.length).map fun k => tokenOfBytes (s.rd (e.pos + 64 + 48 * k) 48)

/-- The row on which a network's injected token enters: that of the channel record with its stream and block (R78, R465). -/
def Image_rowOf (i : Image) (t : Token) : Nat :=
  ((i.chans.find? fun c => (c.sstream == t.stream || c.dstream == t.stream || c.cstream == t.stream) && c.index == t.block).map
    (·.row)).getD 0

/-- The units of a network's placement. -/
def Image_replayUnits (i : Image) : List Nat := (i.placement.map fun w => w.unit % 4096).eraseDups

/-- The stewards of a network's clusters. -/
def Image_stewards (i : Image) : List Nat := ((Image_replayUnits i).map UnitAddr.steward).eraseDups

/-- The ranges of pass data that an engine's passes read: offset in the cluster's SRAM and bytes (R113 to R119, R128). -/
def State.passRanges (s : State) (m : RegMap) (u : Nat) : List (Nat × Nat) :=
  let c := s.eldCfg m u
  let n := c.nbIn * c.nbOut
  let base := s.goldenAddr (UnitAddr.steward u) 0
  let ends := (List.range n).map fun k =>
    let d := s.rdLe (base + c.side + 4 * k) 4
    if bits d 16 11 == 0 then 0 else d % 2 ^ 16 + bits d 16 11
  [(c.tile, 4096 * n), (c.side, 4 * n), (sideEntries c, 8 * ends.foldl max 0), (c.chan, 256 * eldBlocks c)]
    ++ (if c.tableEn then [(c.table, 4096)] else [])

/-- Read a range of the stack in the REPLAY class for its poison alone: whether a word read poisoned. -/
def State.replayTouch (s : State) (a n : Nat) : Bool × State :=
  let r := s.stackCheckAll a n
  (!r.1.isEmpty, r.2.traffic 2 (burstBytes a n))

/-- Several such reads. -/
def State.replayTouchAll (s : State) (l : List (Nat × Nat)) : Bool × State :=
  l.foldl (fun (acc : Bool × State) (x : Nat × Nat) =>
    let r := acc.2.replayTouch x.1 x.2
    (acc.1 || r.1, r.2)) (false, s)

/-- The ranges a replay loads: each engine's pass data from the golden copy, each core's replay copy (R377). -/
def State.replayLoads (s : State) (m : RegMap) (n : Net) : List (Nat × Nat) :=
  (Image_replayUnits n.img).flatMap fun u =>
    if UnitAddr.isEland u then (s.passRanges m u).map fun x => (s.goldenAddr (UnitAddr.steward u) x.1, x.2)
    else if UnitAddr.isFawn u then [(s.replayArea u, 81920)] else []

/-! ### The scratch copy -/

/-- The bytes of one range stand at another too. -/
def spliceCells (m : List Host.Cell) (src dst n : Nat) : List Host.Cell :=
  m.filter (fun c => decide (c.1 < dst))
    ++ (m.filter fun c => decide (src ≤ c.1) && decide (c.1 < src + n)).map (fun c => (c.1 - src + dst, c.2))
    ++ m.filter (fun c => decide (dst + n ≤ c.1))

/-- The golden copy stands in a cluster's SRAM below SPAN, bad words with it (R377). -/
def State.goldenOver (s : State) (steward : Nat) : State :=
  let src := s.goldenAddr steward 0
  let dst := sramOf steward
  let moved := ((s.ue ++ s.poison).filter fun w => decide (src ≤ w) && decide (w < src + s.span)).map fun w => w - src + dst
  { s with mem := spliceCells s.mem src dst s.span
           ue := s.ue.filter (fun w => !(decide (dst ≤ w) && decide (w < dst + s.span))) ++ moved
           ce := s.ce.filter (fun w => !(decide (dst ≤ w) && decide (w < dst + s.span))) }

/-- A core's program memory and scratch are those of its replay copy (R376, R377). -/
def State.coreOver (s : State) (u : Nat) : State :=
  let a := s.replayArea u
  let own := fun (w : Nat) => decide (unitSpace u ≤ w) && decide (w < unitSpace u + 2 ^ 17)
  { s with mem := spliceCells (spliceCells s.mem a (progBase u) 16384) (a + 16384) (unitSpace u) 65536
           ue := s.ue.filter (!own ·), ce := s.ce.filter (!own ·) }

/-- The steward of the cluster whose SRAM holds a word. -/
def stewardOf (w : Nat) : Nat := UnitAddr.mk (w / 2 ^ 27) (w / 2 ^ 22 % 32) 15

/-- The scratch copy in which a replay runs: the event's configuration and tokens, units at rest, cores at ENTRY, no other
event, no injected failure. [DEDUCED, log 59] -/
def State.replayState (s : State) (q : Replay) (n : Net) (m : RegMap) (ts : List Token) : State :=
  let rows := ts.map fun t => (Image_rowOf n.img t, t)
  let inj := (List.range 24).filterMap fun r =>
    let l := (rows.filter (·.1 == r)).map (·.2)
    if l.isEmpty then none else some (r, ((List.range l.length).zip l).map fun x => ({ tok := x.2, cyc := s.cycle + x.1 } : Entry))
  let cores := ((Image_replayUnits n.img).filter UnitAddr.isFawn).map fun u =>
    (u, ({ epochLo := q.epoch % 256, pc := s.regIn m .FAB_FC_ENTRY_PC u, entry := s.regIn m .FAB_FC_ENTRY_PC u, st := .running, readyAt := s.cycle } : FawnCore))
  let s := (Image_stewards n.img).foldl State.goldenOver s
  let s := cores.foldl (fun (s : State) (c : Nat × FawnCore) => s.coreOver c.1) s
  let s : State := { s with
    regs := m, staged := [], cfgOld := none, commit := .idle, fab := { inj := inj }, eland := [], cores := cores
    jobs := [], frozen := [], ints := { s.ints with inject := [], spare := [], spareAt := [] }
    memS := { s.memS with restore := [], restored := [], golden := s.ue.map fun w => (stewardOf w, w % 2 ^ 22 / 4096) } }
  s.setReg .CHIP_EPOCH_CURRENT 0 q.epoch

/-! ### The run -/

/-- A run: the scratch copy, and what each engine's passes accumulated and sent: unit, set, tokens. -/
structure Solo where
  s : State
  passes : List (Nat × AccSet × List Token) := []
  /-- Something was still to come as the last cycle ended. -/
  busy : Bool := true

/-- An engine fires by its mode. -/
def State.soloFire (s : State) (u : Nat) : State :=
  if s.reg .FAB_UCFG_MODE u == 1 then readyFire s u else fire s u

/-- The oldest completed pass of an engine leaves its output stage when its Lpass is over. -/
def Solo_stage (w : Solo) (u : Nat) : Solo :=
  match (w.s.eng u).done with
  | [] => w
  | p :: _ =>
    if w.s.cycle < p.lastFire + w.s.lpass then w
    else
      let t := w.s.stagePass u p
      { w with s := t, passes := w.passes ++ [(u, p.set, ((t.eng u).outQ.drop (w.s.eng u).outQ.length).map (·.tok))] }

/-- Tokens are on their way. -/
def State.soloMoves (s : State) : Bool :=
  !(s.fab.swRegs.all (·.2.isEmpty) && s.fab.delay.all (·.2.isEmpty)
    && s.fab.inj.all (·.2.isEmpty) && s.fab.steerData.all (·.2.isEmpty) && s.fab.steerCtrl.all (·.2.isEmpty)
    && s.eland.all fun (e : Nat × ElandUnit) => e.2.done.isEmpty && e.2.outQ.isEmpty)
    || s.cores.any fun (c : Nat × FawnCore) => c.2.st == .running
        && (decide (s.cycle < c.2.readyAt) || (c.2.inEvent && s.reg .FAB_FC_CTRL_RECV_LIMIT c.1 != 0))

/-- One cycle of the run. [DEDUCED, log 59] -/
def Solo_cycle (w : Solo) : Solo :=
  let s := w.s
  let units := (s.fab.stores.keys.map (fun (k : Nat × Nat) => k.1)).eraseDups.filter UnitAddr.isEland
  let s := units.foldl State.soloFire s
  let cores := s.cores
  let s := s.cores.keys.foldl State.coreRun s
  let ran := !(s.cores == cores)
  let w := s.eland.keys.foldl Solo_stage { w with s := s }
  let s := w.s.eland.keys.foldl State.eldSend w.s
  let ports := (s.fab.steerData.keys ++ s.fab.steerCtrl.keys).eraseDups
  let s := ports.foldl (fun (s : State) u => steerRelease (steerPair s u) u) s
  let s := s.fab.delay.keys.foldl delayRelease s
  let s := s.fab.swRegs.keys.foldl (fun (s : State) (k : Nat × Nat) => hop s k.1 k.2 .none) s
  let s := tbAdvance s.injectAll.steerDepartAll
  let s := State.caddsApply { s with cycle := s.cycle + 1 }
  { w with s := s, busy := ran || !units.isEmpty && s.fab.stores.any (fun (e : (Nat × Nat) × List Entry) =>
      e.2.any fun x => decide (s.cycle ≤ x.cyc + 1)) || s.soloMoves || units.any fun u => decide (s.cycle ≤ (s.eng u).nextFire) }

/-- The event's final result token, once a collection port holds it (R44). -/
def State.soloFinal (s : State) (q : Replay) (n : Net) : Option Token :=
  ((s.fab.coll.flatMap fun (e : Nat × List Entry) => e.2.map (·.tok)).find? fun t =>
    t.stream == n.img.vstream && t.tag == q.tag && t.epochLo == q.epoch % 256)

/-- A posting unit's pass for the event. -/
def Solo_pass (w : Solo) (p : CheckPost) : Option (AccSet × List Token) :=
  (w.passes.find? fun x => x.1 == p.unit && x.2.1.tag == p.tag && x.2.1.epochLo == p.epochLo).map (·.2)

/-- The run is over: the result and every posting engine's pass are there, or nothing more can happen. -/
def Solo_over (w : Solo) (q : Replay) (n : Net) : Bool :=
  ((w.s.soloFinal q n).isSome && q.posts.all fun p => !UnitAddr.isEland p.unit || (Solo_pass w p).isSome) || !w.busy

/-- The run over at most so many cycles. -/
def Solo_run (q : Replay) (n : Net) : Nat → Solo → Solo
  | 0, w => w
  | k + 1, w => if Solo_over w q n then w else Solo_run q n k (Solo_cycle w)

/-! ### The results -/

/-- The value that an engine's output tokens carry for an output channel, as 32 bits (Table "CHECK payload"). -/
def elementOf (ts : List Token) (e : Nat) : Option Nat :=
  ts.findSome? fun t =>
    let p := t.payload.toNat
    if t.kind != 1 then none
    else match t.fmt with
      | 1 => if t.block == e / 64 && decide (e % 64 < 32) then some (ux 32 (sx 8 (bits p (8 * (e % 32)) 8))) else none
      | 2 => if t.block == e / 64 && decide (32 ≤ e % 64) then some (ux 32 (sx 8 (bits p (8 * (e % 32)) 8))) else none
      | 3 => if t.block == e / 64 then some (ux 32 (sx 4 (bits p (4 * (e % 64)) 4))) else none
      | 4 => if t.block == e / 8 then some (bits p (32 * (e % 8)) 32) else none
      | _ => none

/-- The replayed residue and value of an engine's failing element (R377): the accumulated sum's residue modulo 7 for ELD_ACC. -/
def Solo_value (w : Solo) (p : CheckPost) : Option (Nat × Nat) :=
  (Solo_pass w p).bind fun x => (elementOf x.2 p.element).map fun v =>
    (if p.cls == 1 then ((nth 0 x.1.acc p.element) % 7).toNat else 0, v)

/-- The words of cluster SRAM that the run read uncorrectable: steward and offset (R377). -/
def Solo_badWords (w : Solo) : List (Nat × Nat) :=
  w.s.memS.restore.flatMap fun (e : Nat × List RestoreEntry) => e.2.map fun x => (e.1, x.addr % 2 ^ 22)

/-- A flag was posted for the event. -/
def Solo_flag (w : Solo) (q : Replay) (flag : Nat) : Bool :=
  w.s.fab.flagPosts.any fun p => p.tag == q.tag && p.epochLo == q.epoch % 256 && p.flag == flag

/-- The run of a replay on what the site loads, for as many cycles as the time limit leaves (R377, R378). [DEDUCED, log 59] -/
def State.soloRun (s : State) (q : Replay) (n : Net) (ts : List Token) : Solo :=
  let m := (s.cfgOf (q.epoch % 256)).getD s.regs
  Solo_run q n (max 50 (s.reg .INT_CTRL_REPLAY_LIMIT) * 1200) { s := s.replayState q n m ts }

end Sys2Proof.Machine
end

