-- ==== Sys2Proof/Machine/Integrity.lean ====
section
/-! DEFINITION. The silent-error defence (R373 to R391, R395 to R398, R467): replays and arbitration, corrected entries, sequencer
mismatches, the fault drain, injected failures and the signature ring. -/
namespace Sys2Proof.Machine
open Sys2Proof

/-! ### Replays (R374 to R378) -/

/-- A region's spare site can serve replays: not in service and not withdrawn (R374, R387). -/
def State.siteUsable (s : State) (r : Nat) : Bool :=
  (s.ints.spare.get? r).isNone && !bitAt (s.reg .INT_STATE_SPARE_BAD) r

/-- A region's spare site is idle: no replay runs there, and the region manager that would drive one is not frozen (R31, R374). [DEDUCED, log 61] -/
def State.siteIdle (s : State) (r : Nat) : Bool :=
  s.siteUsable r && !s.ints.active.any (fun x => x.site == some r) && !s.isFrozen (8 + r)

/-- Regions from one upward, modulo 8 (R374). -/
def regionsFrom (r : Nat) : List Nat := (List.range 8).map fun k => (r + k) % 8

/-- The region from which the search for a site starts: the failing unit's. -/
def replayRegion (q : Replay) : Nat := match q.posts with | p :: _ => UnitAddr.region p.unit | [] => 0

/-- Whether the configuration of an epoch is held in the shadow copies (R34, R378). -/
def State.epochHeld (s : State) (e : Nat) : Bool :=
  e == s.epoch || (match s.cfgOld with | some (o, _) => o == e | none => false)

/-- The head request leaves the queue. -/
def State.replayDequeue (s : State) (rest : List Replay) : State :=
  { s with ints := { s.ints with queue := rest } }.setReg .INT_REPLAY_QUEUED 0 rest.length

/-- The head replay begins on a region's site: it reads the retention entry in the REPLAY class (R377, R378). [DEDUCED, log 61] -/
def State.replayBegin (s : State) (q : Replay) (rest : List Replay) (region : Nat) : State :=
  let s := s.replayDequeue rest
  if !s.epochHeld q.epoch then (s.releaseLeave 2 (0x1000 + region)).arbitrateNone q 3
  else match s.retFind q.slot q.tag q.epoch q.ingressTB with
    | none => ((s.bump .MEM_CNT_RET2_MISSING).releaseLeave 2 (0x1000 + region)).arbitrateNone q 2
    | some e =>
      let (_, bad, s) := s.stackRead e.pos e.len 2
      if bad.isEmpty then
        let s := s.retUpd q.slot q.tag q.epoch q.ingressTB (fun x => { x with replaying := true })
        let s := { s with ints := { s.ints with active := s.ints.active ++ [{ q with site := some region }] } }
        s.setReg .INT_REPLAY_ACTIVE 0 (s.reg .INT_REPLAY_ACTIVE ||| 2 ^ region)
      else (s.releaseLeave 2 (0x1000 + region)).arbitrateNone q 2

/-- REPLAY_START (R374): the head request starts on an idle site whose leave is granted, or asks for the leave of the first idle
site; with every site in service or withdrawn it ends with NO_SITE. [DEDUCED, log 61] -/
def replayStart (s : State) : State :=
  match s.ints.queue with
  | [] => s
  | q :: rest =>
    let order := regionsFrom (replayRegion q)
    if !order.any s.siteUsable then (s.replayDequeue rest).arbitrateNone q 4
    else match order.find? (fun r => s.siteIdle r && s.leaveGranted 2 (0x1000 + r)) with
      | some r => s.replayBegin q rest r
      | none =>
        match order.find? s.siteIdle with
        | none => s
        | some r =>
          let asked := fun (g : Leave) => g.cls == 2 && order.any (fun r => s.siteIdle r && g.req == 0x1000 + r)
          if s.power.pending.any asked || s.power.granted.any asked then s
          else s.askLeave { cls := 2, req := 0x1000 + r, units := s.reg .INT_REPLAY_LEAVE, region := some r }

/-! ### Arbitration (R380) -/

/-- The row that holds for a post, A to E as 0 to 4. `same`: the replayed RESULT equals the original. -/
def postRow (p : CheckPost) (rr wr : Nat) (same : Bool) : Nat :=
  if p.cls == 1 || p.cls == 3 then
    if rr == p.resMain && wr == p.wordMain then 0 else if rr == p.resPred then 1 else 2
  else if same then 3 else 4

/-- How bad a row is: C, then E, then B, then D and A. -/
def rowRank (row : Nat) : Nat := match row with | 2 => 4 | 4 => 3 | 1 => 2 | 3 => 1 | _ => 0

/-- The worst of a list of rows. -/
def worstRow (rows : List Nat) : Nat := rows.foldl (fun b r => if rowRank b < rowRank r then r else b) (rows.headD 0)

/-- The replayed entry: RESULT and flags of the run, never TIMEOUT; INCOMPLETE, THERMAL and the conditioner's ADAPTED as the
original carries them; LATE_CORRECTED (R380). -/
def State.replayedEntry (s : State) (q : Replay) (w : Solo) (t : Token) : Nat :=
  let o := VEntry_of q.entry
  let bad := resultPoisoned t
  VEntry_bits { o with
    result := if bad then s.vrdReg q.epoch .VRD_DEFAULT_RESULT q.slot else t.payload.toNat % 65536
    timeout := false, skew := Solo_flag w q 0, poison := bad || Solo_flag w q 1, adapted := o.adapted || Solo_flag w q 2
    late := true, cause := if bad then 4 else 0 }

/-- What a post's row does to its unit: a suspect, or a transient; an injected post does neither (R380, R467). -/
def rowVerdict (p : CheckPost) (row : Nat) : Option Nat :=
  if p.injected then none
  else match row with
    | 0 => some 1
    | 1 => some 0
    | 2 => some 2
    | _ => if p.cls == 4 then some 4 else some 0

/-- The suspects and transients of an arbitration, in ascending unit address (R380, R385). -/
def State.rowActions (s : State) (rows : List (CheckPost × Nat)) : State :=
  (sortBy (fun (x : CheckPost × Nat) => x.1.unit) rows).foldl (fun (s : State) (x : CheckPost × Nat) =>
    match rowVerdict x.1 x.2 with
    | none => s
    | some 0 => s.transient x.1.unit
    | some c => s.suspect x.1.unit c) s

/-- The post whose row decides the event, with what was replayed for it. -/
def decidingPost (rows : List (CheckPost × (Nat × Nat) × Nat)) (row : Nat) : Option (CheckPost × (Nat × Nat) × Nat) :=
  rows.find? (fun x => x.2.2 == row)

/-- The replayed residue and value of each post (R377): an engine's from the run; an injected FWN_ALU failure's are the main
path's (R467); another FWN_ALU failure's come with the command; of a SEQ post elsewhere the residue is 0 and the value free. [DESIGN CHOICE, log 60] -/
def State.replayedPosts (s : State) (w : Solo) (alu : List (Nat × Nat)) : List CheckPost → List (Nat × Nat) × State
  | [] => ([], s)
  | p :: ps =>
    let (free, s) := s.free (2 ^ 32)
    let (v, alu) : (Nat × Nat) × List (Nat × Nat) :=
      if p.cls == 3 then
        if p.injected then ((p.resMain, p.wordMain), alu)
        else match alu with
          | x :: xs => (x, xs)
          | [] => ((free % 3, free), [])
      else ((Solo_value w p).getD (0, free), alu)
    let (vs, s) := s.replayedPosts w alu ps
    (v :: vs, s)

/-- Arbitrate a replayed event (R380): count, signature, corrected entry, then suspects and transients. -/
def State.arbitrate (s : State) (q : Replay) (w : Solo) (t : Token) (alu : List (Nat × Nat)) : State :=
  let replayed := s.replayedEntry q w t
  let same := (VEntry_of replayed).result == (VEntry_of q.entry).result
  let (vals, s) := s.replayedPosts w alu q.posts
  let rows := (q.posts.zip vals).map fun (x : CheckPost × (Nat × Nat)) => (x.1, x.2, postRow x.1 x.2.1 x.2.2 same)
  let row := worstRow (rows.map (·.2.2) ++ (if q.overflow then [if same then 3 else 4] else []))
  let s := if row == 2 then s.bump .INT_CNT_ARB2_NONE
    else if row == 1 || row == 4 then s.bump .INT_CNT_ARB_REPLAY else s.bump .INT_CNT_ARB_MAIN
  let d := decidingPost rows row
  let s := s.signature { kind := 1, unit := d.map (·.1.unit), cls := d.map (·.1.cls), slot := some q.slot, tag := some q.tag
                         mark := some q.markTB, res := d.map (fun x => (x.1.resMain, x.1.resPred, some x.2.1.1))
                         words := d.map (fun x => (sx 32 x.1.wordMain, some (sx 32 x.2.1.2))), outcome := some row
                         image := some (s.imageIdOf q.slot), bank := some q.bank }
  let entry := if row == 2 then s.defaultCorrected q
    else if row == 1 || row == 4 then replayed
    else VEntry_bits { VEntry_of q.entry with late := true }
  (s.issueCorrected q entry).rowActions (rows.map fun x => (x.1, x.2.2))

/-- The replay on a region's site leaves it with a result. -/
def State.replayOff (s : State) (region : Nat) : State :=
  let s := { s with ints := { s.ints with active := s.ints.active.filter (fun x => !(x.site == some region)) } }
  let s := s.setReg .INT_REPLAY_ACTIVE 0 (setBits (s.reg .INT_REPLAY_ACTIVE) region 1 0)
  s.releaseLeave 2 (0x1000 + region)

/-- A replay's end with what it loads and computes (R377, R378): NO_INPUT when a word it reads is poisoned; one that yields no
final result token goes on. -/
def State.replayEnd (s : State) (region : Nat) (q : Replay) (n : Net) (e : RetEntry) (alu : List (Nat × Nat)) : State :=
  let m := (s.cfgOf (q.epoch % 256)).getD s.regs
  let (bad, t) := s.replayTouchAll (s.replayLoads m n)
  if bad then t.endReplaySite region 2
  else
    let w := s.soloRun q n (s.retTokens e)
    match Solo_badWords w with
    | [] => match w.s.soloFinal q n with
      | some r => (t.replayOff region).arbitrate q w r alu
      | none => s
    | l =>
      let golden := l.filter fun x => decide (x.2 < s.span)
      let (_, t) := t.replayTouchAll (golden.map fun x => (s.goldenAddr x.1 x.2, 32))
      t.endReplaySite region 2

/-- REPLAY_COMPLETE (R377, R378, R387): the replay on a region's site ends with its result, with a reason for having none, or
with a failed check of the site; it goes on only while it holds its leave and its region manager is not frozen (R374). -/
def replayComplete (s : State) (region : Nat) (r : ReplayResult) : State :=
  match s.ints.active.find? (fun x => x.site == some region) with
  | none => s
  | some q =>
    if !s.leaveGranted 2 (0x1000 + region) || s.isFrozen (8 + region) then s
    else if !s.epochHeld q.epoch then s.endReplaySite region 3
    else match r.fault with
      | some u => (s.suspect (UnitAddr.mk region 16 u.val) 8).endReplaySite region 6
      | none => match s.netFor q.slot (q.epoch % 256), s.retFind q.slot q.tag q.epoch q.ingressTB with
        | none, _ => s.endReplaySite region 3
        | _, none => s.endReplaySite region 2
        | some n, some e => s.replayEnd region q n e r.alu

/-- The cycle at which a request's time is over: validation + REPLAY_LIMIT µs, at least 50 (R378, R398). -/
def State.replayDeadline (s : State) (q : Replay) : Nat := q.validCyc + max 50 (s.reg .INT_CTRL_REPLAY_LIMIT) * 1200

/-- REPLAY_LIMIT (R378): the oldest replay, running or queued, whose time is over ends with LIMIT. [DEDUCED, log 61] -/
def replayLimit (s : State) : State :=
  let late := fun (q : Replay) => decide (s.replayDeadline q ≤ s.cycle)
  match s.ints.active.find? late with
  | some q => s.endReplaySite (q.site.getD 0) 5
  | none =>
    match s.ints.queue.find? late with
    | some q =>
      let rest := removeFirst (· == q) s.ints.queue
      let s := s.replayDequeue rest
      let idle := fun (g : Leave) => g.cls == 2 && rest.isEmpty && !s.ints.active.any (fun x => g.req == 0x1000 + x.site.getD 0)
      let s := { s with power := { s.power with pending := s.power.pending.filter (fun g => !idle g)
                                                granted := s.power.granted.filter (fun g => !idle g) } }
      s.arbitrateNone q 5
    | none => s

/-! ### Corrected entries (R381, R382) -/

/-- LATE_CORRECTED (R381): the slot's oldest corrected entry whose verdict has been voided issues to the ports that carried it,
releases the retention entry and completes the sampler's and lock-step's decisions. -/
def lateCorrected (s : State) (slot : Nat) : State :=
  let open_ := fun (c : Corrected) => (s.unitV slot).events.any (fun e => e.num == c.num && e.markTB == c.markTB && e.entry.isSome)
  match s.ints.corrected.find? (fun c => c.slot == slot && !open_ c) with
  | none => s
  | some c =>
    let s := { s with ints := { s.ints with corrected := removeFirst (· == c) s.ints.corrected } }
    let s := s.release c.ports (fun x => { x with rel := { x.rel with corrected := x.rel.corrected ++ [(c.markTB, c.entry)] } })
    let s := s.bump .VRD_CNT_VOID_CORRECTED slot
    let s := s.spbVerdict slot c.entry c.markTB none
    let s := s.sampleDecide slot c.num c.tag c.epoch c.entry c.markTB c.ingressTB
    let s := s.lockFinal slot c.num c.tag c.epoch c.inj true c.entry
    if c.inj then s.retSettle slot c.tag c.epoch c.ingressTB else s

/-! ### Sequencers and the drain (R368, R388 to R390) -/

/-- The event in progress at a unit, as the header of a SEQ post gives it: tag, EPOCH_LO, BLOCK (R368). -/
def State.eventAt (s : State) (u : Nat) : Option (Nat × Nat × Nat) :=
  if 4096 ≤ u then
    match (s.steerQ (u - 4096)).map (·.tok) ++ (s.ctrlQ (u - 4096)).map (·.tok) with
    | t :: _ => some (t.tag, t.epochLo, t.block)
    | [] => none
  else if UnitAddr.isEland u then
    match (s.eland.getD u {}).sets ++ (s.eland.getD u {}).done.map (·.set) with
    | x :: _ => some (x.tag, x.epochLo, x.first)
    | [] => none
  else if UnitAddr.isFawn u then
    match s.cores.get? u with
    | some c => if c.inEvent then some (c.lastTag, c.lastEpochLo, c.lastBlock) else none
    | none => none
  else none

/-- The slot to which a unit's SEQ post goes, by the configuration of the event's epoch (R34, R368). [DESIGN CHOICE, log 104] -/
def State.seqSlot (s : State) (u lo : Nat) : Nat :=
  let m := (s.cfgOf lo).getD s.regs
  if 4096 ≤ u then s.steerSlot m (u - 4096) else s.regIn m .FAB_UCFG_SLOT u

/-- A mismatch at a unit with an event in progress posts 16 cycles later, injected when INT_INJECT asked for it (R364, R467). [DEDUCED, log 47] -/
def State.seqPost (s : State) (u : Nat) (e : Nat × Nat × Nat) : State :=
  let left := s.ints.inject.getD (u, 4) 0
  let (word, s) := s.free (2 ^ 32)
  let s := { s with ints := { s.ints with inject := s.ints.inject.put (u, 4) (left - 1) } }
  s.postCheck { slot := s.seqSlot u e.2.1, unit := u, cls := 4, tag := e.1, epochLo := e.2.1, block := e.2.2, wordMain := word
                tbLo := s.tb.tb % 2 ^ 32, injected := decide (0 < left) } (s.cycle + 16)

/-- SEQ_MISMATCH (R364, R368, R386, R389): a control core halts and starts the drain at once; a steward, a region manager or a
verdict unit becomes suspect; a unit with an event in progress posts, and one without becomes suspect. [DEDUCED, log 47, 62] -/
def seqMismatch (s : State) (unit : Nat) (block : Bool) : State :=
  let s := s.bump .INT_CNT_SEQ_MISMATCH
  if 0xFF00 ≤ unit then
    let m := unit - 0xFF00
    if m < 2 then
      let s := s.freeze m 0 ((s.ctl.getD m {}).pc :: (s.ctl.getD m {}).regs) true
      (s.startDrain 3).suspect 0x00 4 true
    else s.suspect 0x00 4 true
  else if block then s.suspect (unit % 256) 4 true
  else match s.eventAt unit with
    | some e => s.seqPost unit e
    | none => s.suspect unit 4

/-- DECIDE_TIMEOUT (R388): the decision's time runs out, and the fault drain starts. -/
def decideTimeout (s : State) : State :=
  match s.ints.decideBy with
  | some c => if s.flag .INT_STATE_DECIDING && decide (c ≤ s.cycle) then s.startDrain 2 else s
  | none => s

/-- INT_DRAIN (R397): starts the fault drain when none is in force. -/
def intDrain (s : State) (hs : Nat) : State :=
  s.runOrd hs 0x600 fun p s => (s.startDrain 1).reply p .ok

/-- A unit held by a live placement or route table. -/
def State.unitLive (s : State) (u : Nat) : Bool :=
  (List.range 16).any fun i =>
    match (s.netSlot i).live with
    | some n => n.img.placement.any (·.unit == u) || n.img.routes.any (·.unit == u)
    | none => false

/-- INT_INJECT (R397): the unit's next COUNT checks of a class fail as injected. [DEDUCED, log 47] -/
def intInject (s : State) (hs : Nat) : State :=
  s.runOrd hs 0x602 fun p s =>
    let u := pU16 p 0
    if !UnitAddr.legal u then s.reply p .ownership
    else if s.unitLive u && !s.boot.devMode then s.reply p .injectLive
    else { s with ints := { s.ints with inject := s.ints.inject.put (u, pU8 p 2) (pU8 p 3) } }.reply p .ok

/-! ### The signature ring (R395) -/

/-- SIGNATURE_WRITE (R395): the oldest waiting signature takes the ring's next 256-byte slot. -/
def signatureWrite (s : State) : State :=
  match s.ints.sigs with
  | [] => s
  | g :: rest =>
    let s := { s with ints := { s.ints with sigs := rest } }
    let len := s.reg .INT_SIG_LEN
    if len == 0 then s
    else
      let n := s.reg .INT_SIGIDX_NEXT % len
      let s := s.stackWrite (s.reg .INT_SIG_BASE + 256 * n) (bytesAt (leBytes 2 g.bytes.length ++ g.bytes) 0 256) 6
      (s.setReg .INT_SIGIDX_NEXT 0 ((n + 1) % len)).bump .INT_SIGIDX_TOTAL

/-- REPLAY_START (R374). -/
def execReplayStart (s : State) : Answer := awake s (replayStart s)
/-- REPLAY_COMPLETE (R377). -/
def execReplayComplete (region : Fin 8) (r : ReplayResult) (s : State) : Answer := awake s (replayComplete s region.val r)
/-- REPLAY_LIMIT (R378). -/
def execReplayLimit (s : State) : Answer := awake s (replayLimit s)
/-- LATE_CORRECTED (R381). -/
def execLateCorrected (slot : Fin 16) (s : State) : Answer := awake s (lateCorrected s slot.val)
/-- SEQ_MISMATCH (R389). -/
def execSeqMismatch (unit : Nat) (block : Bool) (s : State) : Answer := awake s (seqMismatch s unit block)
/-- DECIDE_TIMEOUT (R388). -/
def execDecideTimeout (s : State) : Answer := awake s (decideTimeout s)
/-- INT_DRAIN (R397). -/
def execIntDrain (hs : Nat) (s : State) : Answer := awake s (intDrain s hs)
/-- INT_INJECT (R397). -/
def execIntInject (hs : Nat) (s : State) : Answer := awake s (intInject s hs)
/-- SIGNATURE_WRITE (R395). -/
def execSignatureWrite (s : State) : Answer := awake s (signatureWrite s)

end Sys2Proof.Machine
end

