-- ==== Sys2Proof/Machine/Regs.lean ====
section
/-! DEFINITION. Registers by address (R23, R29, R40, R340, R464): which fields a 64-bit word of the internal address map holds,
the values that status fields read, and the parts of a masked write. -/
namespace Sys2Proof.Machine
open Sys2Proof

/-- The part of a register field that a 64-bit word covers: bits [flo + w − 1 : flo] of instance `inst` of `reg` stand at bits
[wlo + w − 1 : wlo] of the word. -/
structure Piece where
  reg : Reg
  inst : Nat
  flo : Nat
  wlo : Nat
  w : Nat
  deriving DecidableEq, Repr

/-- The instance of a register that begins a given distance after instance 0. -/
def instAt (f : Reg.Info) (d : Nat) : Option Nat :=
  let i1 := if f.n1 ≤ 1 then 0 else d / f.s1
  let rem := if f.n1 ≤ 1 then d else d % f.s1
  let i2 := if f.n2 ≤ 1 then 0 else rem / f.s2
  if i1 < f.n1 && i2 < f.n2 && i1 * f.s1 + i2 * f.s2 == d then some (i1 * f.n2 + i2) else none

/-- Instances of a register in one block or unit. -/
def regCount (r : Reg) : Nat := r.info.n1 * r.info.n2

/-- A field of the register that begins at a place, as far as the word that begins at another covers it: the register begins
`off` bits into the word, or `skip` bits before it. -/
def pieceAt (r : Reg) (g off skip base : Nat) : Option Piece :=
  let f := r.info
  if g < f.addr then none
  else match instAt f (g - f.addr) with
    | none => none
    | some i =>
      let start := max skip f.lo
      let stop := min (f.lo + f.width) (skip + 64 - off)
      if start < stop then some ⟨r, base + i, start - f.lo, start - skip + off, stop - start⟩ else none

/-- The pieces of a field in the word that begins at a place: of the registers that begin with the word or at its upper half,
and of one that began in an earlier word; fields wider than 64 bits span several words. -/
def piecesOf (r : Reg) (word base : Nat) : List Piece :=
  (pieceAt r word 0 0 base).toList ++ (pieceAt r (word + 4) 32 0 base).toList
    ++ ((List.range ((r.info.lo + r.info.width - 1) / 64)).flatMap fun k =>
        if word < 8 * (k + 1) then [] else (pieceAt r (word - 8 * (k + 1)) 0 (64 * (k + 1)) base).toList)

/-- A kind of unit has the registers of a space (R107, R108, R139, R187, R188). [DESIGN CHOICE, log 22] -/
def unitHas (u : Nat) (sp : Reg.Space) : Bool :=
  match sp with
  | .block => false
  | .compute | .port => decide (UnitAddr.unit u < 15)
  | .eland => UnitAddr.isEland u
  | .fawn => UnitAddr.isFawn u
  | .steward => UnitAddr.unit u == 15

/-- The named fields of the 64-bit word at an 8-byte aligned internal address; none where no register stands (R29). [DESIGN CHOICE, log 22] -/
def regPieces (a : Nat) : List Piece :=
  match addrKind a with
  | .block => Reg.all.flatMap fun r => if r.info.space == .block then piecesOf r a 0 else []
  | .unit u off => Reg.all.flatMap fun r => if unitHas u r.info.space then piecesOf r off (u % 4096 * regCount r) else []
  | _ => []

/-- Offset 0x8000 to 0xFFFF of the SEC block: the key registers, which no master owns (R363). -/
def secKey (a : Nat) : Bool := decide (0x60C08000 ≤ a) && decide (a < 0x60C10000)

/-- The bytes [base, +1 MiB) of a block's registers that hold none are reserved like every address no table names (R29). -/
def isRegWord (a : Nat) : Bool := !(regPieces a).isEmpty

/-! ### Values of status fields -/

/-- The entry of an indirect table that INDEX and COPY select (R162, R253). -/
def State.tblView (s : State) : ChanEntry :=
  let n := s.reg .CND_TBL_INDEX_INDEX
  if s.reg .CND_TBL_INDEX_COPY == 0 then tblEntry s.cond.staged n else tblEntry s.cond.committed n

/-- The envelope point that INDEX and COPY select (R253). -/
def State.envView (s : State) : Nat × Nat :=
  let n := s.reg .SPB_ENV_INDEX_INDEX
  if s.reg .SPB_ENV_INDEX_COPY == 0 then s.spb.envStaged.getD n (0, 0) else s.spb.envCommitted.getD n (0, 0)

/-- Grid positions of active sites with an entry of a field at a value. -/
def State.unitsWith (s : State) (r : Reg) (v : Nat) : Nat :=
  (s.regs.filter fun (e : (Reg × Nat) × Nat) =>
    e.1.1 == r && e.2 == v && decide (UnitAddr.cluster e.1.2 < 16) && decide (UnitAddr.unit e.1.2 < 15)).length

/-- A core as it stands; one never started is stopped with registers of zero (R164). -/
def State.coreAt (s : State) (u : Nat) : FawnCore := (s.cores.get? u).getD {}

/-- The confirmation timeout in force: 100 to 60,000 ms (R362). -/
def State.confirmMs (s : State) : Nat := min 60000 (max 100 (s.reg .BOOT_FWCTL_CONFIRM_MS))

/-- Milliseconds from a cycle to a later one, rounded to nearest, ties up (R12). -/
def msLeft (now later : Nat) : Nat := (later - now + 600000) / 1200000

/-- The value a status field reads at this moment; fields that nothing but their own writes change read what is held. [DESIGN CHOICE, log 11] -/
def State.view (s : State) (r : Reg) (i : Nat) : Nat :=
  match r with
  | .CHIP_EPOCH_PENDING => if s.commit == .idle then 0 else 1
  | .CHIP_LOCK_STAT_ACTIVE => b2n s.lockActive
  | .CHIP_LOCK_STAT_HELD => min 4096 (s.lock.mine.length + s.lock.partner.length)
  | .FAB_STATUS_LIVE_UNITS => s.unitsWith .FAB_UCFG_HELD 1
  | .FAB_STATUS_READY_UNITS => 1920 - s.unitsWith .FAB_UCFG_MODE 0
  | .FAB_UOCC_OCC => (List.range 4).foldl (fun a k => a + min 16 (s.storeQ i k).length * 2 ^ (5 * k)) 0
  | .FAB_PSTAT_DLY_OCC => (s.fab.delay.getD i []).length
  | .FAB_PSTAT_STEER_DATA_OCC => (s.fab.steerData.getD i []).length
  | .FAB_PSTAT_STEER_CTRL_OCC => (s.fab.steerCtrl.getD i []).length
  | .ELD_ESTAT_SETS_USED => s.setsUsed i
  | .FAB_FC_CNT_STALL_RECV =>
    s.reg r i + (if (s.coreAt i).waiting == 1 && (s.coreAt i).st == .running then s.cycle - (s.coreAt i).readyAt else 0)
  | .FAB_FC_CNT_STALL_SEND =>
    s.reg r i + (if (s.coreAt i).waiting == 2 && (s.coreAt i).st == .running then s.cycle - (s.coreAt i).readyAt else 0)
  | .FAB_FC_STATUS_PC => min 4095 (s.coreAt i).pc
  | .FAB_FC_STATUS_STATE => (s.coreAt i).st.code
  | .FAB_FC_STATUS_PZ => b2n (s.coreAt i).pz
  | .FAB_FC_STATUS_EPOCH_LO => (s.coreAt i).epochLo
  | .FAB_FC_SREG_VALUE =>
    let c := s.coreAt (i / 32)
    if c.st == .running || i % 32 == 0 then 0 else (c.sregs.getD (i % 32) 0).toNat
  | .FAB_FC_VREG_VALUE =>
    let c := s.coreAt (i / 8)
    if c.st == .running then 0 else (c.vregs.getD (i % 8) 0).toNat
  | .CND_TBL_LO_DATA => s.tblView.1
  | .CND_TBL_HI_DATA => s.tblView.2
  | .SPB_ENV_LO_DATA => s.envView.1
  | .SPB_ENV_HI_DATA => s.envView.2
  | .TB_VALUE_TB => s.tb.tb
  | .TB_STATE_SYNC_AGE => match s.tb.syncAt with | some c => min ((s.cycle - c + 600) / 1200) 0xFFFFFFFF | none => 0
  | .OPX_LDFE_TAPS => s.laneTaps i
  | .HST_STATUS_FROZEN => b2n (s.isFrozen 16)
  | .HST_STATUS_CH_READY =>
    (List.range 2).foldl (fun a c => let h := s.host.ch.getD c {}; a + b2n (h.initDone && h.wck) * 2 ^ c) 0
  | .HST_SLOTS_BUSY => (s.host.busy.keys.filter (· < 64)).foldl (fun a k => a + 2 ^ k) 0
  | .HST_STAGE_USED => (s.host.pages.filter fun (e : Nat × PageState) => e.2 != .filling).length
  | .HST_STAGE_DIRTY => (s.host.pages.filter fun (e : Nat × PageState) => e.2 == .dirty).length
  | .BOOT_FWTIME_CONFIRM_LEFT =>
    match s.boot.activatedAt with
    | some c => msLeft s.cycle (c + s.confirmMs * 1200000)
    | none => 0
  | .INT_STATE_OVERFLOW => b2n (s.vrd.any fun (e : Nat × VrdUnit) => e.2.overflow)
  | .INT_STATE_REMAP_STAGED => b2n s.ints.remap.isSome
  | .INT_DECIDE_LEFT => match s.ints.decideBy with | some c => msLeft s.cycle c | none => 0
  | .LV_STATUS_FREE => (s.freeLeaveIn s.regs).toNat
  | .LV_STATUS_RESERVED => s.leaveReserved
  | .LV_STATUS_GRANTED => s.grantedWhere (fun _ => true)
  | .LV_CLASS_GRANTED => s.grantedWhere (fun g => g.cls == i)
  | .LV_CLASS_PENDING => ((s.power.pending.filter (·.cls == i)).map (·.units)).foldl (· + ·) 0
  | .LV_RGN_CAP_HELD => s.leaveHeld i
  | .LOG_STATUS_INTAKE => s.logs.intake.length
  | .LOG_STATUS_ALARM_INTAKE => s.logs.alarm.length
  | .LOG_STATUS_SUPPRESSING => s.logs.unreported.keys.foldl (fun a k => a + 2 ^ k) 0
  | .LOG_STATUS_PIN => b2n s.alarmPin
  | r => s.reg r i

/-- The block status fields whose values `view` computes; a snapshot copies them with the rest (R37). -/
def viewFields : List (Reg × Nat) :=
  [(.CHIP_EPOCH_PENDING, 0), (.CHIP_LOCK_STAT_ACTIVE, 0), (.CHIP_LOCK_STAT_HELD, 0), (.FAB_STATUS_LIVE_UNITS, 0),
   (.FAB_STATUS_READY_UNITS, 0), (.TB_VALUE_TB, 0), (.TB_STATE_SYNC_AGE, 0), (.HST_STATUS_FROZEN, 0),
   (.HST_STATUS_CH_READY, 0), (.HST_SLOTS_BUSY, 0), (.HST_STAGE_USED, 0), (.HST_STAGE_DIRTY, 0),
   (.BOOT_FWTIME_CONFIRM_LEFT, 0), (.INT_STATE_OVERFLOW, 0), (.INT_STATE_REMAP_STAGED, 0), (.INT_DECIDE_LEFT, 0),
   (.LV_STATUS_FREE, 0), (.LV_STATUS_RESERVED, 0), (.LV_STATUS_GRANTED, 0)]
  ++ ((List.range 6).map fun k => (Reg.LV_CLASS_GRANTED, k)) ++ ((List.range 6).map fun k => (Reg.LV_CLASS_PENDING, k))
  ++ ((List.range 8).map fun k => (Reg.LV_RGN_CAP_HELD, k)) ++ ((List.range 128).map fun k => (Reg.OPX_LDFE_TAPS, k))
  ++ [(.LOG_STATUS_INTAKE, 0), (.LOG_STATUS_ALARM_INTAKE, 0), (.LOG_STATUS_SUPPRESSING, 0), (.LOG_STATUS_PIN, 0)]

/-- What a snapshot captures: every field in force, status fields as they read now (R37). -/
def State.captureRegs (s : State) : RegMap := (viewFields.map fun p => (p, s.view p.1 p.2)) ++ s.regs

/-- A field as the served snapshot copy holds it. [DEDUCED, log 20] -/
def State.snapField (s : State) (r : Reg) (i : Nat) : Nat := (s.snap.vals.get? (r, i)).getD (s.resetVal r i)

/-- A read of a field by a command (R340): RS fields of a block from the served snapshot, WO fields zero, the others as they
are; in unit spaces everything as it is. [DEDUCED, log 20] -/
def State.fieldRead (s : State) (r : Reg) (i : Nat) : Nat :=
  match r.info.acc with
  | .wo => 0
  | .rs => if r.info.space == .block then s.snapField r i else s.view r i
  | _ => s.view r i

/-- A 64-bit word of registers; reserved bits read zero (R7). [DEDUCED, log 20] -/
def State.wordRead (s : State) (a : Nat) : Nat :=
  (regPieces a).foldl (fun v p => v + bits (s.fieldRead p.reg p.inst) p.flo p.w * 2 ^ p.wlo) 0

/-- A 64-bit word as it stands, not as a snapshot holds it: PEEK's read (R442). -/
def State.wordLive (s : State) (a : Nat) : Nat :=
  (regPieces a).foldl (fun v p =>
    v + (if p.reg.info.acc == .wo then 0 else bits (s.view p.reg p.inst) p.flo p.w) * 2 ^ p.wlo) 0

/-! ### Masked writes -/

/-- The parts of a masked write that fall on named fields: the piece, its mask bits and its value bits. -/
def maskedPieces (a mask value : Nat) : List (Piece × Nat × Nat) :=
  ((regPieces a).map fun p => (p, bits mask p.wlo p.w, bits value p.wlo p.w)).filter fun x => x.2.1 != 0

/-- A mask covers an RO or RS field (R340). -/
def maskRo (a mask : Nat) : Bool := (maskedPieces a mask 0).any fun x => x.1.reg.info.acc == .ro || x.1.reg.info.acc == .rs

/-- A number of w bits with the bits of a mask replaced. -/
def maskInto (w old mask value : Nat) : Nat :=
  (List.range w).foldl (fun a k => if bitAt (if bitAt mask k then value else old) k then a + 2 ^ k else a) 0

/-- The new value of a field under a masked write over its old value. -/
def pieceNew (old : Nat) (x : Piece × Nat × Nat) : Nat :=
  setBits old x.1.flo x.1.w (maskInto x.1.w (bits old x.1.flo x.1.w) x.2.1 x.2.2)

/-- The value a field would have with what is staged (R32). [DEDUCED, log 19] -/
def State.stagedReg (s : State) (r : Reg) (i : Nat) : Nat := s.regIn s.nextCfg r i

/-! ### Register-write records of images (R464) -/

/-- Roles of a record: 0 fawn core, 1 eland engine, 2 switch port (R191). -/
def roleSpace (role : Nat) (sp : Reg.Space) : Bool :=
  match sp with
  | .compute => role != 2
  | .fawn => role == 0
  | .eland => role == 1
  | .port => role == 2
  | _ => false

/-- The fields of the register of a role that begins at an offset: field and instance within the unit. -/
def roleFields (role off : Nat) : List (Reg × Nat) :=
  Reg.all.filterMap fun r =>
    if roleSpace role r.info.space && decide (r.info.addr ≤ off) then (instAt r.info (off - r.info.addr)).map fun i => (r, i) else none

/-- A register is 64 bits wide when a field of it lies above bit 31. -/
def fieldsWide (fs : List (Reg × Nat)) : Bool := fs.any fun f => decide (32 < f.1.info.lo + f.1.info.width)

/-- A record's write in a configuration: the RW fields of the register at the offset take their bits of the value. [DEDUCED, log 38] -/
def recordWrite (u role off value : Nat) (m : RegMap) : RegMap :=
  (roleFields role off).foldl (fun (m : RegMap) (f : Reg × Nat) =>
    if f.1.info.acc == .rw && f.1.info.width ≤ 64
    then m.put (f.1, u % 4096 * regCount f.1 + f.2) (bits value f.1.info.lo f.1.info.width) else m) m

end Sys2Proof.Machine
end

