-- ==== Sys2Proof/Machine/Shake.lean ====
section
/-! DEFINITION. SHAKE256 (FIPS 202), which R189's digests, R353's firmware digests and R400's reproducibility key name. -/
namespace Sys2Proof

/-- A 64-bit lane rotated left. -/
def rotl64 (x n : Nat) : Nat := if n % 64 == 0 then x else (x * 2 ^ (n % 64)) % 2 ^ 64 + x / 2 ^ (64 - n % 64)

/-- Rotation offsets of lane x + 5y: the lanes visited from (1, 0) by (x, y) to (y, 2x + 3y), the t-th turned by t(t+1)/2. -/
def keccakRot : List Nat :=
  ((List.range 24).foldl (fun (acc : List Nat × Nat × Nat) t =>
    let (l, x, y) := acc
    (setNth l (x + 5 * y) ((t + 1) * (t + 2) / 2 % 64), y, (2 * x + 3 * y) % 5)) (List.replicate 25 0, 1, 0)).1

/-- One step of the register that makes the round constants: times x modulo x^8 + x^6 + x^5 + x^4 + 1. -/
def keccakLfsr (r : Nat) : Nat := if 128 ≤ r then (2 * r) ^^^ 0x171 else 2 * r

/-- Round constants: seven bits of the register a round, at places 0, 1, 3, 7, 15, 31 and 63. -/
def keccakRc : List Nat :=
  ((List.range 24).foldl (fun (acc : List Nat × Nat) _ =>
    let (c, r) := (List.range 7).foldl (fun (v : Nat × Nat) j => (v.1 + v.2 % 2 * 2 ^ (2 ^ j - 1), keccakLfsr v.2)) (0, acc.2)
    (acc.1 ++ [c], r)) ([], 1)).1

/-- One round of Keccak-f[1600] on 25 lanes. -/
def keccakRound (a : List Nat) (rc : Nat) : List Nat :=
  let l := nth 0 a
  let c := (List.range 5).map fun x => l x ^^^ l (x + 5) ^^^ l (x + 10) ^^^ l (x + 15) ^^^ l (x + 20)
  let d := (List.range 5).map fun x => nth 0 c ((x + 4) % 5) ^^^ rotl64 (nth 0 c ((x + 1) % 5)) 1
  let t := (List.range 25).map fun i => rotl64 (l i ^^^ nth 0 d (i % 5)) (nth 0 keccakRot i)
  -- lane (y, 2x + 3y) of the moved state is lane (x, y) of t
  let b := (List.range 25).map fun j =>
    let y := j % 5
    let x := ((j / 5 + 25 - 3 * y) * 3) % 5
    nth 0 t (x + 5 * y)
  let e := (List.range 25).map fun j =>
    let y5 := j / 5 * 5
    nth 0 b j ^^^ ((2 ^ 64 - 1 - nth 0 b (y5 + (j + 1) % 5)) &&& nth 0 b (y5 + (j + 2) % 5))
  setNth e 0 (nth 0 e 0 ^^^ rc)

/-- Keccak-f[1600]. -/
def keccakF (a : List Nat) : List Nat := keccakRc.foldl keccakRound a

/-- Exclusive-or a block of 136 bytes into the state. -/
def keccakAbsorb (a block : List Nat) : List Nat :=
  (List.range 25).map fun i => if i < 17 then nth 0 a i ^^^ leAt block (8 * i) 8 else nth 0 a i

/-- Absorb a padded message; the count bounds its blocks. -/
def shakeAbsorb : Nat → List Nat → List Nat → List Nat
  | 0, a, _ => a
  | n + 1, a, m => if m.isEmpty then a else shakeAbsorb n (keccakF (keccakAbsorb a (m.take 136))) (m.drop 136)

/-- A message with SHAKE's suffix and padding to a multiple of 136 bytes. -/
def shakePad (m : List Nat) : List Nat :=
  let r := 136 - m.length % 136
  if r == 1 then m ++ [0x9F] else m ++ 0x1F :: List.replicate (r - 2) 0 ++ [0x80]

/-- The bytes of the state's first 17 lanes. -/
def keccakOut (a : List Nat) : List Nat := ((a.take 17).map (leBytes 8)).foldr (· ++ ·) []

/-- SHAKE256 of bytes, up to 136 bytes of output. -/
def shake256 (m : List Nat) (n : Nat) : List Nat :=
  let p := shakePad m
  (keccakOut (shakeAbsorb (p.length / 136 + 1) (List.replicate 25 0) p)).take n

end Sys2Proof
end

