-- ==== Sys2Proof/Machine/ImageFile.lean ====
section
/-! DEFINITION. Network images as bytes (R189 to R191, R464 to R466): header, directory, sections and records, read into an
`Image`, and the parts of the loader's steps 1 to 3 that concern the bytes alone. -/
namespace Sys2Proof.Machine
open Sys2Proof

/-! ### Outcomes of the loader's checks (R195, R201, R202) -/

/-- IMG_FORMAT. -/
def lsFormat : Nat := 0x1201
/-- IMG_FIELD. -/
def lsField : Nat := 0x1202
/-- IMG_VERSION. -/
def lsVersion : Nat := 0x1203
/-- IMG_DIGEST. -/
def lsDigest : Nat := 0x2201
/-- IMG_SIGNATURE. -/
def lsSignature : Nat := 0x2202
/-- IMG_PART. -/
def lsPart : Nat := 0x2203
/-- IMG_SCHEDULE. -/
def lsSchedule : Nat := 0x2204
/-- IMG_RULE. -/
def lsRule : Nat := 0x2205
/-- LNET_CHANGE. -/
def lsLnet : Nat := 0x2206
/-- BANK_MISMATCH. -/
def lsBank : Nat := 0x2207
/-- SHORTFALL. -/
def lsShort : Nat := 0x3201
/-- SLOT_STATE. -/
def lsState : Nat := 0x4201

/-- A shortfall entry (R202). -/
structure Shortfall where
  resource : Nat
  scope : Nat
  needed : Nat
  available : Nat
  deriving DecidableEq, Repr

/-- A refusal: its status, the step, the unit and the directory index concerned, and the shortfalls (R201, R202). -/
structure LoadFail where
  status : Nat
  check : Nat
  unit : Nat := 0xFFFF
  section_ : Nat := 0xFFFF
  shorts : List Shortfall := []
  deriving DecidableEq, Repr

/-- A refusal when a test fails. -/
def failUnless (ok : Bool) (status check : Nat) (unit : Nat := 0xFFFF) (section_ : Nat := 0xFFFF) : Option LoadFail :=
  if ok then none else some { status := status, check := check, unit := unit, section_ := section_ }

/-! ### Directory (Table "Section directory entry") -/

/-- A directory entry. -/
structure DirEnt where
  typ : Nat
  rsv : Nat
  off : Nat
  len : Nat
  crc : Nat
  deriving DecidableEq, Repr

/-- The directory's entries. -/
def dirEntries (bs : List Nat) (n : Nat) : List DirEnt :=
  (List.range n).map fun i =>
    let o := 64 + 16 * i
    ⟨leAt bs o 2, leAt bs (o + 2) 2, leAt bs (o + 4) 4, leAt bs (o + 8) 4, leAt bs (o + 12) 4⟩

/-- The bytes of an entry's section. -/
def dirBytes (bs : List Nat) (d : DirEnt) : List Nat := bytesAt bs d.off d.len

/-- The index of the entry of a type. -/
def dirIndex (ds : List DirEnt) (typ : Nat) : Nat := (ds.findIdx? (·.typ == typ)).getD 0xFFFF

/-- The bytes of the section of a type; none when the image has none. -/
def sectionOf (bs : List Nat) (ds : List DirEnt) (typ : Nat) : List Nat :=
  match ds.find? (·.typ == typ) with
  | some d => dirBytes bs d
  | none => []

/-- Bounds of the directory and of its sections: multiples of 8, behind the directory, within the image, no two overlapping, the
SIGNATURE section behind all others (R189). -/
def dirBoundsOk (ds : List DirEnt) (total : Nat) : Bool :=
  let lo := 64 + 16 * ds.length
  ds.all (fun d => d.off % 8 == 0 && decide (lo ≤ d.off) && decide (d.off + d.len ≤ total))
    && (List.range ds.length).all (fun i => (List.range i).all fun j =>
      match ds[i]?, ds[j]? with
      | some a, some b => !overlaps a.off a.len b.off b.len
      | _, _ => true)
    && (match ds.find? (·.typ == 0x0F) with
        | some g => ds.all (fun d => d.typ == 0x0F || decide (d.off + d.len ≤ g.off))
        | none => true)

/-- Which sections an image must and may hold: network images full or bank (R190), job images (R215). -/
inductive ImageKind where
  | full | bank | job
  deriving DecidableEq, Repr

/-- The section types of a kind of image. -/
def kindSections : ImageKind → List Nat
  | .full => [1, 2, 3, 4, 5, 6, 7, 8, 9, 10, 15]
  | .bank => [1, 4, 5, 6, 15]
  | .job => [1, 2, 4, 6, 9, 11, 15]

/-! ### Records (Table "Section records") -/

/-- A record as read: its value, its length, whether its reserved fields are zero, whether its values lie in their ranges
(R466). -/
abbrev Rd (α : Type) := Option (α × Nat × Bool × Bool)

/-- Bytes that must be zero. -/
def zerosAt (bs : List Nat) (off n : Nat) : Bool := (bytesAt bs off n).all (· == 0)

/-- Round up to a multiple of 8. -/
def pad8 (n : Nat) : Nat := (n + 7) / 8 * 8

/-- Read records to the end of a section; none when the last one runs over. -/
def readRecs {α : Type} (f : List Nat → Rd α) : Nat → List Nat → Option (List α × Bool × Bool)
  | 0, bs => if bs.isEmpty then some ([], true, true) else none
  | n + 1, bs =>
    if bs.isEmpty then some ([], true, true)
    else match f bs with
      | none => none
      | some (a, len, rsv, rng) =>
        if bs.length < len || len == 0 then none
        else match readRecs f n (bs.drop len) with
          | none => none
          | some (l, r2, g2) => some (a :: l, rsv && r2, rng && g2)

/-- Read a whole section of records. -/
def readAll {α : Type} (f : List Nat → Rd α) (bs : List Nat) : Option (List α × Bool × Bool) :=
  readRecs f (bs.length / 8 + 1) bs

/-- A PLACEMENT or ROUTES record; PORT as the section demands (R191, R464, R466). -/
def readWrites (port : Nat) (bs : List Nat) : Rd RegWrites :=
  let u := leAt bs 0 2
  let role := leAt bs 2 1
  let n := leAt bs 3 1
  let ws := (List.range n).map fun i => (leAt bs (8 + 16 * i) 8, leAt bs (16 + 16 * i) 8)
  let wide := fun (w : Nat × Nat) => decide (w.2 < 2 ^ 32) || fieldsWide (roleFields role w.1) || (roleFields role w.1).isEmpty
  some ({ unit := u, role := role, writes := ws }, 8 + 16 * n, zerosAt bs 4 4,
    UnitAddr.legal u && u / 4096 == port && decide (role ≤ 2) && decide (1 ≤ n) && decide (n ≤ 64) && ws.all wide)

/-- A CHANNELS record; BLOCK counts are filled in afterwards (R465). -/
def readChan (bs : List Nat) : Rd ChanRec :=
  let b := leAt bs 0 2
  let row := leAt bs 2 1
  let st := fun o => leAt bs o 2
  some ({ block := b, row := row, sstream := st 4, dstream := st 6, cstream := st 8 }, 16,
    zerosAt bs 3 1 && zerosAt bs 10 6,
    decide (b ≤ 1023) && decide (row ≤ 23) && decide (st 4 < 4096) && decide (st 6 < 4096) && decide (st 8 < 4096))

/-- A PASSDATA record, its data following or, in a layout block of a job image, only its head (R191, R215). -/
def readPass (headOnly : Bool) (bs : List Nat) : Rd PassChunk :=
  let u := leAt bs 0 2
  let n := leAt bs 8 4
  let len := if headOnly then 16 else 16 + pad8 n
  some ({ unit := u, off := leAt bs 4 4, data := if headOnly then List.replicate n 0 else bytesAt bs 16 n }, len,
    zerosAt bs 2 2 && zerosAt bs 12 4 && (headOnly || zerosAt bs (16 + n) (pad8 n - n)),
    UnitAddr.legal u && u / 4096 == 0)

/-- A scale record (R140). -/
def readScale (bs : List Nat) : Rd ScaleRec :=
  let n := leAt bs 2 2
  let len := pad8 (8 + n)
  some ({ tensor := leAt bs 0 2, count := n, g := leAt bs 4 4, codes := bytesAt bs 8 n }, len,
    zerosAt bs (8 + n) (len - 8 - n), decide (1 ≤ n) && decide (n ≤ 2048))

/-- A FAWN record (R191). -/
def readFawn (bs : List Nat) : Rd FawnProg :=
  let u := leAt bs 0 2
  let n := leAt bs 6 2
  let k := leAt bs 12 4
  let len := pad8 (16 + 4 * n + k)
  some ({ unit := u, level := leAt bs 2 1, start := leAt bs 4 2, words := (List.range n).map fun i => leAt bs (16 + 4 * i) 4
          entry := leAt bs 8 2, scratch := bytesAt bs (16 + 4 * n) (min k bs.length) }, len,
    zerosAt bs 3 1 && zerosAt bs 10 2 && zerosAt bs (16 + 4 * n + k) (len - 16 - 4 * n - k),
    UnitAddr.legal u && u / 4096 == 0 && leAt bs 2 1 == 3)

/-- A SCHEDULE node. -/
def readNode (bs : List Nat) : Rd SchedNode :=
  let k := leAt bs 2 1
  let u := leAt bs 0 2
  some ({ unit := u, kind := k, tOut := leAt bs 4 2, waitMin := leAt bs 6 2 }, 8, zerosAt bs 3 1,
    decide (k ≤ 5) && (if k == 0 || k == 4 then decide (u ≤ 23) else UnitAddr.legal u))

/-- A SCHEDULE edge. -/
def readEdge (bs : List Nat) : Rd SchedEdge :=
  let n := leAt bs 4 1
  let len := pad8 (8 + 4 * n)
  let ps := (List.range n).map fun p => (leAt bs (8 + 4 * p) 2, leAt bs (10 + 4 * p) 2)
  some ({ src := leAt bs 0 2, dst := leAt bs 2 2, tok := leAt bs 5 1, pads := ps }, len,
    zerosAt bs 6 2 && zerosAt bs (8 + 4 * n) (len - 8 - 4 * n),
    decide (n ≤ 15) && ps.all (fun p => UnitAddr.legal p.1 && p.1 / 4096 == 1 && decide (p.2 ≤ 7)))

/-- A LATENCY record. -/
def readLat (bs : List Nat) : Rd LatRec :=
  let st := leAt bs 0 1
  some ({ step := st, lpass := leAt bs 1 1, hop := leAt bs 2 1, xbar := leAt bs 3 1, level := leAt bs 4 1 }, 8,
    zerosAt bs 5 3, st == 0xA2 || st == 0xB0)

/-- A LEAVE record. -/
def readLeave (bs : List Nat) : Rd LeaveRec :=
  let r := leAt bs 0 1
  some ({ region := r, leave := leAt bs 2 2, maxBusy := leAt bs 4 2 }, 8, zerosAt bs 1 1 && zerosAt bs 6 2, decide (r ≤ 7))

/-- A check descriptor (R372). -/
def readCheck (bs : List Nat) : Rd CheckDesc :=
  let c := leAt bs 4 2
  let f := leAt bs 6 1
  some ({ unit := leAt bs 0 2, node := leAt bs 2 2, classes := c, verdictPath := f % 2 == 1, postLast := leAt bs 8 2 }, 16,
    decide (f < 2) && zerosAt bs 7 1 && zerosAt bs 10 6 && c % 2 == 0 && decide (c < 32), UnitAddr.legal (leAt bs 0 2))

/-- SCHEDULE: counts, nodes, edges. -/
def readSchedule (bs : List Nat) : Option ((List SchedNode × List SchedEdge) × Bool × Bool) :=
  let nn := leAt bs 0 4
  let ne := leAt bs 4 4
  let body := bs.drop 8
  if bs.isEmpty then some (([], []), true, true)
  else if bs.length < 8 + 8 * nn then none
  else match readAll readNode (body.take (8 * nn)), readAll readEdge (body.drop (8 * nn)) with
    | some (ns, r1, g1), some (es, r2, g2) => if es.length == ne then some ((ns, es), r1 && r2, g1 && g2) else none
    | _, _ => none

/-- Positions of the slot's blocks among those that share their DSTREAM, in ascending block number (R465). -/
def chanIndexed (cs : List ChanRec) : List ChanRec :=
  cs.map fun c => { c with index := (cs.filter fun d => d.dstream == c.dstream && decide (d.block < c.block)).length }

/-! ### Whole images -/

/-- An image as read. -/
structure Parsed where
  img : Image := {}
  dirs : List DirEnt := []
  /-- Reserved fields of the directory, the header and the records are zero. -/
  rsv : Bool := true
  /-- No record value outside its range and no reserved encoding. -/
  rng : Bool := true
  /-- The bytes of the CAND section of a job image. -/
  cand : List Nat := []
  deriving DecidableEq, Repr

/-- The kind a header names: BANK in FLAGS, or the job's MAGIC (R189, R215). -/
def kindOf (bs : List Nat) : ImageKind :=
  if leAt bs 0 4 == 0x314A5654 then .job else if leAt bs 38 2 % 2 == 1 then .bank else .full

/-- The header (Table "Image header"). -/
def readHeader (bs : List Nat) : Image :=
  { magic := leAt bs 0 4, minor := leAt bs 4 1, major := leAt bs 5 1, level := leAt bs 6 1, arith := leAt bs 7 1
    totalLen := leAt bs 8 4, imageId := leAt bs 12 4, baseId := leAt bs 16 4, lnet := leAt bs 20 2, ii := leAt bs 22 2
    tagBase := leAt bs 24 2, tagCount := leAt bs 26 2, dflt := leAt bs 28 2, leave := leAt bs 30 2, step := leAt bs 32 1
    finalArr := leAt bs 34 2, maxBusy := leAt bs 36 2, flags := leAt bs 38 2, fudom := leAt bs 40 4
    vstream := leAt bs 44 2 % 4096 }

/-- Reserved fields of the header. -/
def headerRsv (bs : List Nat) : Bool := decide (leAt bs 38 2 < 2) && decide (leAt bs 44 2 < 4096) && zerosAt bs 46 18

/-- A register write with a reserved encoding: FAB_ROUTE.SRC 5 to 7, ELD_PASS.OUT_FMT 3. -/
def writeEncodingOk (w : RegWrites) : Bool :=
  w.writes.all fun x =>
    if w.role == 2 && decide (0x1C000 ≤ x.1) && decide (x.1 < 0x1C040) then decide (bits x.2 1 3 ≤ 4)
    else if w.role == 1 && x.1 == 0x18100 then bits x.2 2 2 != 3 else true

/-- Read every section; none with the index of the one that runs over. -/
def readSections (bs : List Nat) (ds : List DirEnt) : Except Nat Parsed :=
  let sec := sectionOf bs ds
  let bad := fun t => dirIndex ds t
  match readAll (readWrites 0) (sec 1) with
  | none => .error (bad 1)
  | some (pl, a1, b1) =>
  match readAll (readWrites 1) (sec 2) with
  | none => .error (bad 2)
  | some (rt, a2, b2) =>
  match readAll readChan (sec 3) with
  | none => .error (bad 3)
  | some (ch, a3, b3) =>
  match readAll (readPass false) (sec 4) with
  | none => .error (bad 4)
  | some (pd, a4, b4) =>
  match readAll readScale (sec 5) with
  | none => .error (bad 5)
  | some (sc, a5, b5) =>
  match readAll readFawn (sec 6) with
  | none => .error (bad 6)
  | some (fw, a6, b6) =>
  match readSchedule (sec 7) with
  | none => .error (bad 7)
  | some ((ns, es), a7, b7) =>
  match readAll readLat (sec 8) with
  | none => .error (bad 8)
  | some (la, a8, b8) =>
  match readAll readLeave (sec 9) with
  | none => .error (bad 9)
  | some (lv, a9, b9) =>
  match readAll readCheck (sec 10) with
  | none => .error (bad 10)
  | some (ck, a10, b10) =>
  let g := sec 15
  let n := leAt g 68 2
  if g.length < 72 + n then .error (bad 15)
  else
    let img := { readHeader bs with
      placement := pl, routes := rt, chans := chanIndexed ch, passData := pd, scales := sc, fawn := fw, nodes := ns, edges := es
      lats := la, leaves := lv, checks := ck, digest := bytesAt g 0 64, keyId := leAt g 64 4, sigLen := n, sig := bytesAt g 72 n }
    .ok { img := img, dirs := ds, cand := sec 11
          rsv := headerRsv bs && ds.all (fun d => d.rsv == 0) && zerosAt g 70 2 && (g.drop (72 + n)).all (· == 0)
            && a1 && a2 && a3 && a4 && a5 && a6 && a7 && a8 && a9 && a10
          rng := b1 && b2 && b3 && b4 && b5 && b6 && b7 && b8 && b9 && b10 && decide (n ≤ 1280) && (pl ++ rt).all writeEncodingOk }

/-- Step 1 (R189, R190, R195): the image in a range of bytes of which it may take all, or the refusal. [DEDUCED, log 64] -/
def imageStep1 (bs : List Nat) (magic : Nat) : Except LoadFail Parsed :=
  let fail := fun sec => ({ status := lsFormat, check := 1, section_ := sec } : LoadFail)
  let total := leAt bs 8 4
  let n := leAt bs 33 1
  if bs.length < 64 || leAt bs 0 4 != magic || total % 8 != 0 || bs.length < total || n == 0 || 16 < n || total < 64 + 16 * n then
    .error (fail 0xFFFF)
  else
    let bs := bs.take total
    let ds := dirEntries bs n
    let kind := kindOf bs
    let types := ds.map (·.typ)
    if !dirBoundsOk ds total then .error (fail 0xFFFF)
    else match (List.range n).find? (fun i => match ds[i]? with
        | some d => !(kindSections kind).contains d.typ || decide (1 < (types.filter (· == d.typ)).length)
            || crc32c (dirBytes bs d) != d.crc
        | none => false) with
      | some i => .error (fail i)
      | none =>
        match readSections bs ds with
        | .error i => .error (fail i)
        | .ok p =>
          let needs := (kindSections kind).filter fun t =>
            if kind == .job then true
            else if t == 4 then p.img.placement.any (·.role == 1)
            else if t == 6 then p.img.placement.any (·.role == 0) else true
          if needs.all types.contains then .ok p else .error (fail 0xFFFF)

/-- BASE_ID is 0 in a full image; bank and job images name the network they are for (R189, R215). -/
def baseIdOk (i : Image) : Bool := i.baseId == 0 || i.flags % 2 == 1 || i.magic == 0x314A5654

/-- Step 2 (R8, R464, R466); an IMAGE_ID of 0, a BASE_ID in a full image and a COMPILED_STEP that names no stepping are reserved
encodings. [DEDUCED, log 64] -/
def imageStep2 (p : Parsed) : Option LoadFail :=
  failUnless (decide (p.img.major ≤ 1)) lsVersion 2
  <|> failUnless ((p.rsv || decide (0 < p.img.minor)) && p.rng && p.img.imageId != 0
    && (p.img.step == 0xA2 || p.img.step == 0xB0) && baseIdOk p.img) lsField 2

/-- The bytes the digest covers: those ahead of the SIGNATURE section. Its own directory CRC among them counts as zero: that CRC covers
the digest (R189), which covers the directory (R191), and R224 has the device write an image in which both hold. [DEDUCED, log 64] -/
def digestBytes (bs : List Nat) (ds : List DirEnt) : List Nat :=
  match ds.find? (·.typ == 0x0F) with
  | some g => putAt (bs.take g.off) (64 + 16 * dirIndex ds 0x0F + 12) [0, 0, 0, 0]
  | none => bs

/-- Step 3 (R192): the digest, then the signature. [DEDUCED, log 64] -/
def State.imageStep3 (s : State) (bs : List Nat) (p : Parsed) : Option LoadFail :=
  let sec := dirIndex p.dirs 0x0F
  failUnless (shake256 (digestBytes bs p.dirs) 64 == p.img.digest) lsDigest 3 0xFFFF sec
  <|> (if p.img.keyId == 0 then failUnless (!s.flag .NSL_CTRL_SIG_REQUIRED) lsSignature 3 0xFFFF sec
       else match s.keys.find? (·.id == p.img.keyId) with
         | none => failUnless false lsSignature 3 0xFFFF sec
         | some k => failUnless (Config.falconVerify k.key p.img.digest p.img.sig) lsSignature 3 0xFFFF sec)

/-- LEVEL and ARITH (step 4). -/
def State.imagePart (s : State) (i : Image) : Bool := i.level == 3 && i.arith == s.reg .CHIP_STEP_ARITH

/-- The latency entry of a stepping. -/
def Image_lat (i : Image) (step : Nat) : Option LatRec := i.lats.find? (·.step == step)

/-- Step 4 of a full image: entries for COMPILED_STEP and for this part, each with the architecture's fixed latencies. -/
def State.imageStep4 (s : State) (i : Image) : Option LoadFail :=
  failUnless (s.imagePart i && (Image_lat i i.step).isSome && (Image_lat i s.stepping).isSome
    && i.lats.all (fun l => l.hop == 1 && l.xbar == 6 && l.level == 3)) lsPart 4

end Sys2Proof.Machine
end

