-- ==== Sys2Proof/Machine/Schedule.lean ====
section
/-! DEFINITION. Schedules (R191, R193, R195 step 6, R197 to R199): where the routes of an image carry its tokens and when, the
arrival times they give, re-padding for a stepping and the spare sites in use, and the limits after it. -/
namespace Sys2Proof.Machine
open Sys2Proof

/-! ### Following routes -/

/-- A place a token reaches: the kind of place, the unit, port or row, the input (or, for a register, the direction), the stream,
cycles since the token left its producer, the detour cycles on the way (R18) and the route entries used. -/
structure Hit where
  /-- 1 a local input, 2 a data steer store, 3 a control steer store, 4 a collection port, 5 a switch register. -/
  kind : Nat
  place : Nat
  input : Nat
  stream : Nat
  time : Nat
  det : Nat
  used : List (Nat × Nat)
  deriving DecidableEq, Repr

/-- A stream whose id only the program that sends it knows. -/
def anyStream : Nat := 4096

/-- What following routes finds: places reached, link directions used (port, output). -/
structure Walk where
  hits : List Hit := []
  links : List (Nat × Nat) := []
  seen : List (Nat × Nat × Nat) := []
  deriving DecidableEq, Repr

/-- The number of the route entry a token takes (R82); a token of unknown stream takes the first entry of its direction. -/
def State.routeIdx (s : State) (m : RegMap) (u dir stream : Nat) : Option Nat :=
  (List.range 8).find? fun n =>
    s.regIn m .FAB_ROUTE_VALID (ix u 8 n) == 1 && s.regIn m .FAB_ROUTE_SRC (ix u 8 n) == dir
      && (s.regIn m .FAB_ROUTE_ANY_STREAM (ix u 8 n) == 1 || s.regIn m .FAB_ROUTE_STREAM (ix u 8 n) == stream || stream == anyStream)

/-- Send a token from a port on an output mask, arriving at `t`: places reached and registers to go on from. -/
def walkOuts (sp : KMap Nat Nat) (u mask input : Nat) (h : Hit) (t : Nat) (w : Walk) : Walk × List Hit :=
  (outsOf mask).foldl (fun (acc : Walk × List Hit) out =>
    if out == 4 then ({ acc.1 with hits := { h with kind := 1, place := u, input := input, time := t } :: acc.1.hits }, acc.2)
    else match destOf u out with
      | .reg v d => ({ acc.1 with links := (u, out) :: acc.1.links },
          { h with kind := 5, place := v, input := d, time := t, det := h.det + detourIn sp u v } :: acc.2)
      | .coll row => ({ acc.1 with hits := { h with kind := 4, place := row, input := 0, time := t
                                                    det := h.det + siteHops sp u } :: acc.1.hits
                                   links := (u, out) :: acc.1.links }, acc.2)
      | .edge => acc) (w, [])

/-- Follow tokens from switch registers (R77, R82, R85): each hop one cycle and the entry's DELAY; a register is entered once a
stream. -/
def State.walkFrom (s : State) (m : RegMap) (sp : KMap Nat Nat) : Nat → List Hit → Walk → Walk
  | 0, _, w => w
  | _ + 1, [], w => w
  | n + 1, h :: rest, w =>
    let u := h.place
    if w.seen.contains (u, h.input, h.stream) then s.walkFrom m sp n rest w
    else
      let w := { w with seen := (u, h.input, h.stream) :: w.seen, hits := h :: w.hits }
      match s.routeIdx m u h.input h.stream with
      | none => s.walkFrom m sp n rest w
      | some k =>
        let r := fun f => s.regIn m f (ix u 8 k)
        let any := r .FAB_ROUTE_ANY_STREAM == 1
        let h := { h with used := (u, k) :: h.used
                          stream := if h.stream == anyStream && !any then r .FAB_ROUTE_STREAM else h.stream }
        let t := h.time + 1 + r .FAB_ROUTE_DELAY
        if r .FAB_ROUTE_STEER + r .FAB_ROUTE_STEER_CTRL != 0 then
          let st : Nat → Hit := fun kind => { h with kind := kind, input := 0, time := t }
          let hs : List Hit := (if r .FAB_ROUTE_STEER == 1 then [st 2] else []) ++ (if r .FAB_ROUTE_STEER_CTRL == 1 then [st 3] else [])
          s.walkFrom m sp n rest { w with hits := hs ++ w.hits }
        else
          let (w, more) := walkOuts sp u (r .FAB_ROUTE_OUT) (r .FAB_ROUTE_INPUT) h t w
          s.walkFrom m sp n (more ++ rest) w

/-- The count that bounds a walk: more than the registers of the grid. -/
def walkFuel : Nat := 20000

/-- A register to start from. -/
def startAt (u dir stream t : Nat) : Hit := ⟨5, u, dir, stream, t, 0, []⟩

/-- The streams a compute unit may send: an engine's by its registers (R131), a core's by the entries of its port that take local
tokens. -/
def State.unitStreams (s : State) (m : RegMap) (u : Nat) : List Nat :=
  if UnitAddr.isEland u then
    let c := s.eldCfg m u
    let rest : List Nat := if c.outFmt == 2 then [] else if c.escEn then [c.sstream, c.cstream] else [c.sstream]
    (c.dstream :: rest).eraseDups
  else
    ((List.range 8).filterMap fun n =>
      if s.regIn m .FAB_ROUTE_VALID (ix u 8 n) == 1 && s.regIn m .FAB_ROUTE_SRC (ix u 8 n) == 4
      then some (if s.regIn m .FAB_ROUTE_ANY_STREAM (ix u 8 n) == 1 then anyStream else s.regIn m .FAB_ROUTE_STREAM (ix u 8 n))
      else none).eraseDups

/-- Follow what a compute unit sends. -/
def State.walkUnit (s : State) (m : RegMap) (sp : KMap Nat Nat) (u : Nat) : Walk :=
  s.walkFrom m sp walkFuel ((s.unitStreams m u).map fun st => startAt u 4 st 0) {}

/-- Follow streams injected on a row (R77). -/
def State.walkRow (s : State) (m : RegMap) (sp : KMap Nat Nat) (row : Nat) (streams : List Nat) : Walk :=
  s.walkFrom m sp walkFuel (streams.map fun st => { startAt (unitAt 0 row) 3 st 1 with det := siteHops sp (unitAt 0 row) }) {}

/-- Follow what a steering port releases on its valid steer entries (R95, R97). -/
def State.walkSteer (s : State) (m : RegMap) (sp : KMap Nat Nat) (u : Nat) (streams : List Nat) : Walk :=
  let outs := (List.range 4).map fun k => (s.regIn m .FAB_STEER_OUT (ix u 4 k), s.regIn m .FAB_STEER_INPUT (ix u 4 k))
  let (w, more) := (streams.flatMap fun st => outs.map fun o => (st, o)).foldl (fun (acc : Walk × List Hit) (x : Nat × Nat × Nat) =>
    let (w, l) := walkOuts sp u x.2.1 x.2.2 (startAt u 5 x.1 0) 1 acc.1
    (w, acc.2 ++ l)) ({}, [])
  s.walkFrom m sp walkFuel more w

/-! ### The configuration an image would put in force -/

/-- Apply an image's register-write records to a configuration; the loader moves the placement's units to tag mode and names
their slot, and sets each program's entry (R90, R191). -/
def imageCfg (slot : Nat) (i : Image) (m : RegMap) : RegMap :=
  let m := (i.placement ++ i.routes).foldl (fun (m : RegMap) (w : RegWrites) =>
    w.writes.foldl (fun (m : RegMap) (x : Nat × Nat) => recordWrite (w.unit % 4096) w.role x.1 x.2 m) m) m
  let m := i.placement.foldl (fun (m : RegMap) (w : RegWrites) =>
    (m.put (.FAB_UCFG_MODE, w.unit % 4096) 0).put (.FAB_UCFG_SLOT, w.unit % 4096) slot) m
  i.fawn.foldl (fun (m : RegMap) (p : FawnProg) => m.put (.FAB_FC_ENTRY_PC, p.unit % 4096) (p.entry % 4096)) m

/-- Units an image places. -/
def Image_units (i : Image) : List Nat := (i.placement.map fun w => w.unit % 4096).eraseDups

/-- Switch ports an image writes. -/
def Image_ports (i : Image) : List Nat := (i.routes.map fun w => w.unit % 4096).eraseDups

/-- Streams injected on a row. -/
def Image_rowStreams (i : Image) (row : Nat) : List Nat :=
  ((i.chans.filter (·.row == row)).flatMap fun c => [c.sstream, c.dstream, c.cstream]).eraseDups

/-! ### Step 6: the schedule from the routes -/

/-- A node's walk and the cycle from which its times count. -/
structure NodeWalk where
  base : Nat := 0
  walk : Walk := {}
  deriving DecidableEq, Repr

/-- A node by index. -/
def nodeAt (i : Image) (k : Nat) : SchedNode := nth {} i.nodes k

/-- The hits of a walk at a node. -/
def hitsAt (n : SchedNode) (w : Walk) : List Hit :=
  w.hits.filter fun h => match n.kind with
    | 1 | 2 => h.kind == 1 && h.place == n.unit % 4096
    | 3 => (h.kind == 2 || h.kind == 3) && h.place == n.unit % 4096
    | 4 => h.kind == 4 && h.place == n.unit
    | 5 => h.kind == 5 && h.place == n.unit % 4096
    | _ => false

/-- An edge's arrivals: first and last, the detour on its routes, its hits. -/
structure EdgeArr where
  first : Nat
  last : Nat
  det : Nat
  hits : List Hit
  /-- Tokens after the first come when a fawn program sends them, no earlier than one a cycle. -/
  paced : Bool := false
  deriving DecidableEq, Repr

/-- Arrivals of an edge's tokens: one a cycle; injected tokens end at the ingress mark (R77, R78). [DEDUCED, log 66] -/
def edgeArr (i : Image) (ws : List NodeWalk) (e : SchedEdge) : Option EdgeArr :=
  let w := nth {} ws e.src
  let hs := hitsAt (nodeAt i e.dst) w.walk
  match minBy (fun (h : Hit) => h.time) hs with
  | none => none
  | some h =>
    let first := w.base + h.time
    some { first := first, last := if (nodeAt i e.src).kind == 0 then first else first + (max 1 e.tok - 1)
           det := (hs.map (·.det)).foldl max 0, hits := hs
           paced := (nodeAt i e.src).kind == 2 && decide (1 < e.tok) }

/-- The node's time agrees with the arrivals (R195 step 6): the base from which its own tokens count. -/
def State.nodeTime (s : State) (m : RegMap) (i : Image) (lpass k : Nat) (ins : List EdgeArr) : Option Nat :=
  let n := nodeAt i k
  let first := (minBy (fun (a : EdgeArr) => a.first) ins).map (·.first)
  let last := (ins.map (·.last)).foldl max 0
  let ok := fun (b : Bool) => if b then some n.tOut else none
  let due := fun (t : Nat) => n.tOut == t || (ins.any (·.paced) && decide (t ≤ n.tOut))
  match n.kind with
  | 0 => ok (ins.isEmpty && n.tOut == 0)
  | 1 => ok (!ins.isEmpty && due (last + 1 + lpass))
  | 2 => ok (!ins.isEmpty && decide (last ≤ n.tOut))
  | 3 =>
    let of := fun kd => (minBy (fun (a : EdgeArr) => a.first) (ins.filter fun a => a.hits.any (·.kind == kd))).map (·.first)
    match of 2, of 3 with
    | some d, some c => ok (due (max d c + 1))
    | _, _ => none
  | 4 => ok (first == some n.tOut)
  | _ =>
    match first, (ins.flatMap (·.hits)).head? with
    | some a, some h =>
      let d := match s.routeIdx m (n.unit % 4096) h.input h.stream with
        | some r => s.regIn m .FAB_ROUTE_DELAY (ix n.unit 8 r)
        | none => 0
      if n.tOut == a + d then some a else none
    | _, _ => none

/-- Follow the tokens of a node. -/
def State.nodeWalk (s : State) (m : RegMap) (sp : KMap Nat Nat) (i : Image) (k base : Nat) (ins : List EdgeArr) : NodeWalk :=
  let n := nodeAt i k
  let u := n.unit % 4096
  let streams := fun kd => (((ins.flatMap (·.hits)).filter (·.kind == kd)).map (·.stream)).eraseDups
  let w : Walk := match n.kind with
    | 0 => s.walkRow m sp n.unit (Image_rowStreams i n.unit)
    | 1 | 2 => s.walkUnit m sp u
    | 3 => s.walkSteer m sp u (streams 2)
    | 4 => {}
    | _ => s.walkFrom m sp walkFuel ((ins.flatMap (·.hits)).map fun h => { h with time := 0, det := 0, used := [] }) {}
  { base := base, walk := w }

/-- A schedule as recomputed: walks by node, arrivals by edge. -/
structure Sched where
  walks : List NodeWalk := []
  arrs : List EdgeArr := []
  deriving DecidableEq, Repr

/-- Node by node: the arrivals of its in-edges, its time, its walk; the index of the node at fault otherwise. -/
def State.schedFrom (s : State) (m : RegMap) (sp : KMap Nat Nat) (i : Image) (lpass : Nat) : Nat → Nat → List NodeWalk → Except Nat (List NodeWalk)
  | 0, _, ws => .ok ws
  | n + 1, k, ws =>
    let ins := i.edges.filter (·.dst == k)
    let arrs := ins.filterMap (edgeArr i ws)
    if arrs.length != ins.length then .error k
    else match s.nodeTime m i lpass k arrs with
      | none => .error k
      | some base => s.schedFrom m sp i lpass n (k + 1) (ws ++ [s.nodeWalk m sp i k base arrs])

/-- The index of the collection node. -/
def Image_coll (i : Image) : Nat := (i.nodes.findIdx? (·.kind == 4)).getD 0

/-- The schedule that the routes of a configuration give, without spare sites (R195 step 6). [DEDUCED, log 66] -/
def State.schedule (s : State) (m : RegMap) (sp : KMap Nat Nat) (i : Image) : Except Nat Sched :=
  if !i.edges.all (fun e => decide (e.src < e.dst) && decide (e.dst < i.nodes.length)) then .error i.nodes.length
  else if (i.nodes.filter (·.kind == 4)).length != 1 then .error i.nodes.length
  else match s.schedFrom m sp i (match Image_lat i i.step with | some l => l.lpass | none => 0) i.nodes.length 0 [] with
    | .error k => .error k
    | .ok ws =>
      if (nodeAt i (Image_coll i)).tOut != i.finalArr then .error (Image_coll i)
      else .ok { walks := ws, arrs := i.edges.filterMap (edgeArr i ws) }

/-- Step 6 as a check. -/
def schedFail (i : Image) (k : Nat) : LoadFail :=
  let n := nodeAt i k
  { status := lsSchedule, check := 6
    unit := if i.nodes.length ≤ k || n.kind == 0 || n.kind == 4 then 0xFFFF else n.unit }

/-! ### Step 9: re-padding (R197, R198) -/

/-- What re-padding gives. -/
structure Repad where
  din : List Int := []
  pads : List (Nat × Nat × Nat) := []
  waits : List (Nat × Nat) := []
  shift : Int := 0
  cycles : Nat := 0
  shorts : List Shortfall := []
  deriving DecidableEq, Repr

/-- The shifts of the nodes in list order: (din, dout) of each (R197). -/
def shifts (i : Image) (dlat : Int) (det : SchedEdge → Nat) : Nat → Nat → List (Int × Int) → List (Int × Int)
  | 0, _, acc => acc
  | n + 1, k, acc =>
    let ins := (i.edges.filter (·.dst == k)).map fun e => (nth (0, 0) acc e.src).2 + det e
    let din : Int := if (nodeAt i k).kind == 0 then 0
      else match ins with
        | [] => 0
        | x :: xs => xs.foldl max x
    shifts i dlat det n (k + 1) (acc ++ [(din, din + if (nodeAt i k).kind == 1 then dlat else 0)])

/-- Add to the pad points of an edge in order: the delays so far, and what is left. -/
def padPoints (pads : List (Nat × Nat)) (need : Nat) (delays : KMap (Nat × Nat) Nat) (now : Nat → Nat → Nat) :
    KMap (Nat × Nat) Nat × Nat :=
  pads.foldl (fun (acc : KMap (Nat × Nat) Nat × Nat) (p : Nat × Nat) =>
    let key := (p.1 % 4096, p.2)
    let d := (acc.1.get? key).getD (now key.1 key.2)
    let add := min acc.2 (63 - d)
    if add == 0 then acc else (acc.1.put key (d + add), acc.2 - add)) (delays, need)

/-- Tokens per event that pass a route entry: the most an edge of one source takes through it, summed over the sources. -/
def entryTok (i : Image) (arrs : List EdgeArr) (port n : Nat) : Nat :=
  ((List.range i.nodes.length).map fun k =>
    if (nodeAt i k).kind == 5 then 0
    else ((i.edges.zip arrs).map fun (x : SchedEdge × EdgeArr) =>
      if x.1.src == k && x.2.hits.any (fun h => h.used.contains (port, n)) then max 1 x.1.tok else 0).foldl max 0).foldl (· + ·) 0

/-- Re-padding for a pass-latency difference and the detours that the schedule's walks met (R197, R198, R372). The final result must
meet the deadline of R43 on this part, and at COMPILED_STEP, where R193 asks for a deadline slack of at least 0. [DEDUCED, log 66] -/
def State.repad (s : State) (m : RegMap) (i : Image) (sc : Sched) (dlat : Int) : Repad :=
  let es := i.edges.zip sc.arrs
  let det := fun (e : SchedEdge) => match es.find? (fun x => x.1 == e) with
    | some x => (x.2.hits.map fun (h : Hit) => h.det).foldl max 0
    | none => 0
  let sh := shifts i dlat det i.nodes.length 0 []
  let now := fun p n => s.regIn m .FAB_ROUTE_DELAY (ix p 8 n)
  let (delays, cycles, shorts) := ((List.range i.edges.length).zip i.edges).foldl
    (fun (acc : KMap (Nat × Nat) Nat × Nat × List Shortfall) (x : Nat × SchedEdge) =>
      let need := ((nth (0, 0) sh x.2.dst).1 - (nth (0, 0) sh x.2.src).2 - det x.2).toNat
      let (ds, left) := padPoints x.2.pads need acc.1 now
      (ds, acc.2.1 + (need - left), if left == 0 then acc.2.2 else acc.2.2 ++ [⟨7, x.1, need, need - left⟩])) ([], 0, [])
  let delayOf := fun p n => (delays.get? (p, n)).getD (now p n)
  let ports := (Image_ports i ++ delays.map (fun (e : (Nat × Nat) × Nat) => e.1.1)).eraseDups
  let lines := ports.filterMap fun p =>
    let occ := ((List.range 8).map fun n =>
      if s.regIn m .FAB_ROUTE_VALID (ix p 8 n) == 1
      then max 1 (entryTok i sc.arrs p n) * ceilDiv (delayOf p n + 1) i.ii else 0).foldl (· + ·) 0
    if 64 < occ then some (⟨6, 4096 + p, occ, 64⟩ : Shortfall) else none
  let steer := ((List.range i.nodes.length).zip i.nodes).filter fun (x : Nat × SchedNode) =>
    x.2.kind == 3 && decide (0 < (nth (0, 0) sh x.1).1)
  let waitOf := fun (x : Nat × SchedNode) => s.regIn m .FAB_STEER_CTRL_WAIT (x.2.unit % 4096)
  let dinN := fun (k : Nat) => (nth (0, 0) sh k).1.toNat
  let wShort := steer.filterMap fun (x : Nat × SchedNode) =>
    if waitOf x < dinN x.1 + x.2.waitMin then some (⟨7, x.1, dinN x.1, waitOf x - x.2.waitMin⟩ : Shortfall) else none
  let shift := (nth (0, 0) sh (Image_coll i)).1
  let late := fun (t : Int) (limit : Nat) => if (limit : Int) < t then [(⟨8, 0, t.toNat, limit⟩ : Shortfall)] else []
  let dead := late (i.finalArr + max 0 shift) (i.lnet - 10)
    ++ ((i.checks.filter (·.verdictPath)).flatMap fun c => late (c.postLast + (nth (0, 0) sh c.node).1) (i.lnet + 16))
  { din := sh.map (·.1), pads := delays.map fun (e : (Nat × Nat) × Nat) => (e.1.1, e.1.2, e.2)
    waits := steer.map fun (x : Nat × SchedNode) => (x.2.unit % 4096, waitOf x - dinN x.1)
    shift := shift, cycles := cycles, shorts := shorts ++ lines ++ wShort ++ dead }

/-- Pass-latency difference of this part against COMPILED_STEP (R197). -/
def State.dlat (s : State) (i : Image) : Int :=
  match Image_lat i s.stepping, Image_lat i i.step with
  | some a, some b => (a.lpass : Int) - b.lpass
  | _, _ => 0

/-- Walk an image's schedule again with the detours of a use of spare sites, the node times taken as given: for step 9. -/
def State.schedWalks (s : State) (m : RegMap) (sp : KMap Nat Nat) (i : Image) : Sched :=
  let ws := (List.range i.nodes.length).foldl (fun (ws : List NodeWalk) k =>
    let arrs := (i.edges.filter (·.dst == k)).filterMap (edgeArr i ws)
    ws ++ [s.nodeWalk m sp i k (nodeAt i k).tOut arrs]) []
  { walks := ws, arrs := i.edges.map fun e => (edgeArr i ws e).getD ⟨0, 0, 0, [], false⟩ }

/-- Step 9 for an image over a base configuration, with a use of spare sites: its own DELAY and WAIT values re-padded. [DEDUCED, log 66] -/
def State.step9 (s : State) (slot : Nat) (i : Image) (base : RegMap) (sp : KMap Nat Nat) : Repad :=
  let m := imageCfg slot i base
  s.repad m i (s.schedWalks m sp i) (s.dlat i)

end Sys2Proof.Machine
end

