-- ==== Sys2Proof/Machine/LoadRules.lean ====
section
/-! DEFINITION. The structural rules that the loader's step 7 and a commit check (R78 to R93, R110 to R151, R168 to R184, R193,
R372, R418, R463 to R465), on a view of the configuration and of cluster SRAM. -/
namespace Sys2Proof.Machine
open Sys2Proof

/-! ### What the image would put into cluster SRAM -/

/-- Bytes from an offset with a chunk laid over them. -/
def overlay (off : Nat) (bs : List Nat) (c : PassChunk) : List Nat :=
  if !overlaps off bs.length c.off c.data.length then bs
  else if c.off ≤ off && off + bs.length ≤ c.off + c.data.length then (c.data.drop (off - c.off)).take bs.length
  else if off ≤ c.off then putAt bs (c.off - off) (c.data.take (off + bs.length - c.off))
  else putAt bs 0 (c.data.drop (off - c.off))

/-- Bytes of a unit's cluster SRAM as an image would leave them. -/
def State.viewRd (s : State) (chunks : List PassChunk) (u off n : Nat) : List Nat :=
  (chunks.filter fun c => UnitAddr.steward (c.unit % 4096) == UnitAddr.steward u).foldl (overlay off) (s.rd (sramOf u + off) n)

/-! ### Pass data layouts and windows (R137, R180) -/

/-- The ranges of a pass's data (Table "Pass data layout"): `rd` reads the cluster's SRAM. The descriptors are those of the
channels the pass has (R131). -/
def State.eldLayout (s : State) (m : RegMap) (u : Nat) (rd : Nat → Nat → List Nat) : List (Nat × Nat) :=
  let c := s.eldCfg m u
  let tiles := c.nbIn * c.nbOut
  let top := ((List.range tiles).map fun n =>
    let w := leNat (rd (c.side + 4 * n) 4)
    if bits w 16 11 == 0 then 0 else w % 2 ^ 16 + bits w 16 11).foldl max 0
  [(c.tile, c.tile + 4096 * tiles), (c.side, sideEntries c + 8 * top)]
    ++ ((List.range (eldBlocks c)).map fun b => (c.chan + 256 * b, c.chan + 256 * b + 4 * s.eldNch m u b))
    ++ (if c.tableEn then [(c.table, c.table + 4096)] else [])

/-- The ranges of a core's valid windows. -/
def State.windowsIn (s : State) (m : RegMap) (u : Nat) : List (Nat × Nat) :=
  (List.range 8).filterMap fun w =>
    if s.regIn m .FAB_FC_WIN_VALID (ix u 8 w) == 1 then
      let b := s.regIn m .FAB_FC_WIN_BASE (ix u 8 w)
      some (b, b + 32 * (s.regIn m .FAB_FC_WIN_SIZE_M1 (ix u 8 w) + 1))
    else none

/-- Two lists of ranges share a byte. -/
def rangesMeet (xs ys : List (Nat × Nat)) : Bool := xs.any fun x => ys.any fun y => decide (x.1 < y.2) && decide (y.1 < x.2)

/-- What the slots hold: each network, live, staged or draining, and each staged bank, with the configuration it runs under (R34,
R137, R206). -/
def State.netCfgs (s : State) : List (RegMap × Image) :=
  s.nets.flatMap fun (e : Nat × SlotNet) =>
    (match e.2.live with
      | some n => (s.regs, n.img) :: (if e.2.unload then [] else [(s.nextCfg, n.img)])
      | none => [])
    ++ (match e.2.staged with
      | some (.load n) => [(s.nextCfg, n.img)]
      | some (.bank b false) => [(imageCfg e.1 { placement := b.writes } s.nextCfg, b.img)]
      | some (.bank b true) => [(s.nextCfg, b.img)]
      | none => [])
    ++ (match e.2.old with
      | some o => [((match s.cfgOld with | some (_, m) => m | none => s.regs), o.img)]
      | none => [])

/-- Engines that jobs use in the clusters they have joined. -/
def State.jobEngines (s : State) : List Nat :=
  s.jobs.flatMap fun (e : Nat × Job) => e.2.joined.flatMap fun rank =>
    ((Image_units e.2.img).filter UnitAddr.isEland).map fun u => UnitAddr.mk (rank / 17) (rank % 17) (UnitAddr.unit u)

/-- An engine's layouts: one for each network or bank that holds it, one when a job uses it. An engine that none holds has no pass
data (R137). -/
def State.heldLayouts (s : State) (u : Nat) : List (List (Nat × Nat)) :=
  let lay := fun m => s.eldLayout m u (fun o n => s.rd (sramOf u + o) n)
  (s.netCfgs.filterMap fun (x : RegMap × Image) => if (Image_units x.2).contains u then some (lay x.1) else none)
    ++ (if s.jobEngines.contains u then [lay s.regs] else [])

/-- Engines of a cluster that placements or jobs hold. -/
def State.enginesHeld (s : State) (steward : Nat) : List Nat :=
  ((s.netCfgs.flatMap fun (x : RegMap × Image) => Image_units x.2) ++ s.jobEngines).eraseDups.filter fun v =>
    UnitAddr.isEland v && UnitAddr.steward v == steward

/-- The pass data of other engines of a unit's cluster (R137). -/
def State.otherLayouts (s : State) (u : Nat) : List (Nat × Nat) :=
  ((s.enginesHeld (UnitAddr.steward u)).filter (· != u)).flatMap fun v => (s.heldLayouts v).flatMap id

/-- The windows of the cores of a cluster that placements hold. -/
def State.windowsHeld (s : State) (steward : Nat) : List (Nat × Nat) :=
  s.netCfgs.flatMap fun (x : RegMap × Image) =>
    ((Image_units x.2).filter fun u => UnitAddr.isFawn u && UnitAddr.steward u == steward).flatMap (s.windowsIn x.1)

/-! ### One engine -/

/-- Tokens of one event from a pass, a CORR token counted for every block with escapes enabled (R110, R132). -/
def State.passTokens (s : State) (m : RegMap) (u : Nat) : Nat :=
  let c := s.eldCfg m u
  ((List.range (eldBlocks c)).map fun b =>
    if c.outFmt == 2 then 8
    else (if c.outFmt == 1 then 2 else if c.emitHi || 32 < s.eldNch m u b then 3 else 2) + b2n c.escEn).foldl (· + ·) 0

/-- Output channels of a pass (R131, R140). -/
def State.passChans (s : State) (m : RegMap) (u : Nat) : Nat :=
  ((List.range (eldBlocks (s.eldCfg m u))).map (s.eldNch m u)).foldl (· + ·) 0

/-- Ascending (ROW, COL) order, no two alike. -/
def sideAscending : List Nat → Bool
  | a :: b :: rest => decide (bits a 32 7 * 64 + bits a 39 6 < bits b 32 7 * 64 + bits b 39 6) && sideAscending (b :: rest)
  | _ => true

/-- The side list of one tile agrees with its escapes (R120, R121). Every row of the tile is held to these rules, those beyond the
block's NCH too: the spec makes no exception for unused channels, nor names them. [DESIGN CHOICE, log 106] -/
def tileOk (c : EldCfg) (rd : Nat → Nat → List Nat) (n : Nat) : Bool :=
  let w := leNat (rd (c.side + 4 * n) 4)
  let cnt := bits w 16 11
  let list := if cnt == 0 then [] else wordsOf 8 (rd (sideEntries c + 8 * (w % 2 ^ 16)) (8 * cnt))
  let tile := rd (c.tile + 4096 * n) 4096
  let escs := (List.range (if c.w4 then 128 else 64)).map fun r => (r, codeAt (if c.w4 then -8 else -128) (rowCodes c.w4 tile r))
  let named := list.map fun x => (bits x 32 7, bits x 39 6)
  decide (cnt ≤ 1024) && sideAscending list && list.all (fun x => (escValue (BitVec.ofNat 32 x)).isSome)
    && escs.all (fun (x : Nat × List Nat) => decide (x.2.length ≤ 8))
    && named == escs.flatMap (fun (x : Nat × List Nat) => x.2.map fun e => (x.1, e))

/-- The channel descriptors of the channels in use. -/
def State.passDescs (s : State) (m : RegMap) (u : Nat) (rd : Nat → Nat → List Nat) : List Nat :=
  let c := s.eldCfg m u
  (List.range (eldBlocks c)).flatMap fun b => wordsOf 4 (rd (c.chan + 256 * b) (4 * s.eldNch m u b))

/-- Every weight channel's k lies in 0 to 22 (R119). -/
def State.weightKOk (s : State) (m : RegMap) (u : Nat) (rd : Nat → Nat → List Nat) : Bool :=
  (s.passDescs m u rd).all fun d =>
    let k := sx 8 (bits d 0 8) - (s.eldCfg m u).xbw
    decide (0 ≤ k) && decide (k ≤ 22)

/-- A zero point lies in the range of its format (R115). -/
def zpOk (q4 : Bool) (z : Int) : Bool := if q4 then decide (-7 ≤ z) && decide (z ≤ 7) else decide (-127 ≤ z) && decide (z ≤ 127)

/-- The zero points of the weights, and those of the output blocks of a quantised format (R115). -/
def State.passZpOk (s : State) (m : RegMap) (u : Nat) (rd : Nat → Nat → List Nat) : Bool :=
  let c := s.eldCfg m u
  (s.passDescs m u rd).all (fun d => zpOk c.w4 (sx 8 (bits d 8 8)))
    && (c.outFmt == 2 || (List.range (eldBlocks c)).all fun b => zpOk (c.outFmt == 1) (sx 8 (s.regIn m .ELD_OUTBLK_ZO (ix u 32 b))))

/-- The limits on one engine's registers: R110, R128, R133 and the base alignments. -/
def State.eldRegsOk (s : State) (m : RegMap) (u ii : Nat) : Bool :=
  let c := s.eldCfg m u
  decide (c.nbIn * c.nbOut ≤ ii) && decide (s.passTokens m u ≤ ii) && !(c.relu && c.tableEn) && !(c.tableEn && c.outFmt == 2)
    && c.outFmt != 3 && c.tile % 4096 == 0 && c.side % 8 == 0 && c.chan % 4 == 0 && (!c.tableEn || c.table % 4096 == 0)

/-- The limits on one engine's configuration and data that a commit checks too: its registers', R119, R121, R137's 4 MiB. -/
def State.eldOk (s : State) (m : RegMap) (u ii : Nat) (rd : Nat → Nat → List Nat) : Bool :=
  let c := s.eldCfg m u
  s.eldRegsOk m u ii && (s.eldLayout m u rd).all (fun r => decide (r.2 ≤ 2 ^ 22))
    && (List.range (c.nbIn * c.nbOut)).all (tileOk c rd) && s.weightKOk m u rd

/-! ### One switch port (R83 to R85, R463) -/

/-- An output mask that names an edge the grid does not have (R84). -/
def edgeOut (u mask : Nat) : Bool :=
  (bitAt mask 0 && posY u == 23) || (bitAt mask 2 && posY u == 0) || (bitAt mask 3 && posX u == 0)

/-- The valid entries of a port. -/
def State.validRoutes (s : State) (m : RegMap) (u : Nat) : List Nat :=
  (List.range 8).filter fun n => s.regIn m .FAB_ROUTE_VALID (ix u 8 n) == 1

/-- No two valid entries share SRC and STREAM (R83), none leaves the grid (R84). -/
def State.routesOk (s : State) (m : RegMap) (u : Nat) : Bool :=
  let es := s.validRoutes m u
  let keys := es.map fun n => (s.regIn m .FAB_ROUTE_SRC (ix u 8 n), s.regIn m .FAB_ROUTE_STREAM (ix u 8 n))
  keys.eraseDups.length == keys.length && es.all (fun n => !edgeOut u (s.regIn m .FAB_ROUTE_OUT (ix u 8 n)))

/-- R463. -/
def State.steerOk (s : State) (m : RegMap) (u : Nat) : Bool :=
  let en := s.regIn m .FAB_STEER_CTRL_ENABLE u == 1
  let out := fun k => s.regIn m .FAB_STEER_OUT (ix u 4 k)
  (en || (s.validRoutes m u).all fun n => s.regIn m .FAB_ROUTE_STEER (ix u 8 n) + s.regIn m .FAB_ROUTE_STEER_CTRL (ix u 8 n) == 0)
    && (!en || out (s.regIn m .FAB_STEER_CTRL_DEFAULT u) != 0)
    && (List.range 4).all (fun k => !edgeOut u (out k))

/-- No entry delivers to a local input that the unit does not configure (R83). -/
def State.localOk (s : State) (m : RegMap) (u : Nat) : Bool :=
  (s.validRoutes m u).all fun n =>
    !bitAt (s.regIn m .FAB_ROUTE_OUT (ix u 8 n)) 4
      || s.regIn m .FAB_ROUTE_STEER (ix u 8 n) + s.regIn m .FAB_ROUTE_STEER_CTRL (ix u 8 n) != 0
      || bitAt (s.regIn m .FAB_UCFG_INPUTS u) (s.regIn m .FAB_ROUTE_INPUT (ix u 8 n))

/-! ### Fawn programs (R168, R173, R176, R180, R184) -/

/-- A program's words are legal under the core's inputs, none is marked V where that is barred, and it fits its memories. -/
def State.progOk (s : State) (m : RegMap) (noV : Bool) (p : FawnProg) : Bool :=
  let ins := s.regIn m .FAB_UCFG_INPUTS (p.unit % 4096)
  p.words.all (fun w => fawnLegal ins w && !(noV && fawnVariant w)) && decide (p.start + p.words.length ≤ 4096)
    && decide (p.scratch.length ≤ 65536)

/-- A core that executes RECV has a wait limit within Lnet (R176). -/
def State.recvOk (s : State) (m : RegMap) (lnet : Nat) (p : FawnProg) : Bool :=
  let l := s.regIn m .FAB_FC_CTRL_RECV_LIMIT (p.unit % 4096)
  !p.words.any fawnIsRecv || (l != 0 && decide (l ≤ lnet))

/-- The program ranges of a unit that live networks use, and those of the epoch before until its drain ends (R184, R206). -/
def State.liveProgs (s : State) (u : Nat) : List (Nat × Nat) :=
  s.nets.flatMap fun (e : Nat × SlotNet) => (e.2.live.toList ++ e.2.old.toList).flatMap fun n =>
    (n.img.fawn.filter fun p => p.unit % 4096 == u).map fun p => (p.start, p.start + p.words.length)

/-- A staged program leaves the committed program of a running core alone (R184). -/
def State.progFree (s : State) (p : FawnProg) : Bool :=
  let u := p.unit % 4096
  s.reg .FAB_FC_CTRL_RUN u == 0 || !rangesMeet [(p.start, p.start + p.words.length)] (s.liveProgs u)

/-! ### Conditioner blocks (R78, R145, R151) -/

/-- An entry of the staged table has no reserved WIDTH (R145). -/
def State.entryOk (s : State) (n : Nat) : Bool := decide (bits (tblEntry s.cond.staged n).1 44 3 ≤ 4)

/-- ZP in range and the exponents in order: asked of every block of a staged table (R145). -/
def State.blockRangesOk (s : State) (b : Nat) : Bool :=
  let c := tblBlock s.cond.staged b
  zpOk c.q4 c.zp
    && decide (-24 ≤ c.expLo) && decide (c.expLo ≤ c.expInit) && decide (c.expInit ≤ c.expHi) && decide (c.expHi ≤ 15)

/-- The block fields of a block of a channel set: WIN not reserved, ZP and exponents as every block's (R145). -/
def State.blockFieldsOk (s : State) (b : Nat) : Bool :=
  let win := sx 4 (bits (tblEntry s.cond.staged (64 * b)).2 29 4)
  decide (-4 ≤ win) && decide (win ≤ 4) && s.blockRangesOk b

/-- A block of the staged table: no reserved encoding, ZP in range, exponents in order (R145). -/
def State.blockOk (s : State) (b : Nat) : Bool :=
  (List.range 64).all (fun e => s.entryOk (64 * b + e)) && s.blockFieldsOk b

/-- Tokens of a block's event, a correction token counted when escapes are enabled (R78). -/
def State.blockToks (s : State) (b : Nat) : Nat :=
  let c := tblBlock s.cond.staged b
  (if c.q4 then 2 else 3) + b2n c.escEn

/-- Places that the tokens of a node reach, those released by steering ports on the way included. -/
def reachOf (i : Image) (ws : List NodeWalk) : Nat → Nat → List Hit
  | 0, _ => []
  | n + 1, k =>
    let hs := (nth {} ws k).walk.hits
    hs ++ (((List.range i.nodes.length).filter fun j =>
      (nodeAt i j).kind == 3 && hs.any (fun h => h.kind == 2 && h.place == (nodeAt i j).unit % 4096)).flatMap (reachOf i ws n))

/-- Engines whose data input a stream of a node reaches. -/
def fedBy (i : Image) (ws : List NodeWalk) (k stream : Nat) : List Nat :=
  ((reachOf i ws i.nodes.length k).filterMap fun h =>
    if h.kind == 1 && h.input == 0 && UnitAddr.isEland h.place && h.stream == stream then some h.place else none).eraseDups

/-- The engines a conditioner block feeds. -/
def blockFeeds (i : Image) (ws : List NodeWalk) (c : ChanRec) : List Nat :=
  ((List.range i.nodes.length).filter fun k => (nodeAt i k).kind == 0 && (nodeAt i k).unit == c.row).flatMap fun k =>
    fedBy i ws k c.dstream

/-- R151, first: each block's exponents stay in the window of every pass it feeds. -/
def State.feedsOk (s : State) (m : RegMap) (i : Image) (ws : List NodeWalk) : Bool :=
  i.chans.all fun c => (blockFeeds i ws c).all fun u =>
    let b := tblBlock s.cond.staged c.block
    let x := (s.eldCfg m u).xba
    decide (0 ≤ b.expLo - x) && decide (b.expHi - x ≤ 22)

/-- The union of exponent ranges. -/
def rangeJoin : List (Int × Int) → Option (Int × Int)
  | [] => none
  | x :: xs => match rangeJoin xs with
    | none => some x
    | some y => some (min x.1 y.1, max x.2 y.2)

/-- The range of Xo(b) of a pass, given the range of its input block 0 (R127); none when nothing bounds it. -/
def State.xoRange (s : State) (m : RegMap) (u b : Nat) (inp : Option (Int × Int)) : Option (Int × Int) :=
  let c := s.eldCfg m u
  let e := sx 8 (s.regIn m .ELD_OUTBLK_OUT_EXP (ix u 32 b))
  if c.track then inp.map fun r => (e + r.1 - c.xaNom, e + r.2 - c.xaNom) else some (e, e)

/-- Ranges of input block 0 of each engine node, in list order (R151): from conditioner blocks of index 0 and from output block 0
of the passes that feed it. -/
def State.inRanges (s : State) (m : RegMap) (i : Image) (ws : List NodeWalk) : Nat → Nat → KMap Nat (Option (Int × Int)) → KMap Nat (Option (Int × Int))
  | 0, _, acc => acc
  | n + 1, k, acc =>
    let nd := nodeAt i k
    if nd.kind != 1 then s.inRanges m i ws n (k + 1) acc
    else
      let u := nd.unit % 4096
      let fromBlocks := (i.chans.filter fun c => c.index == 0 && (blockFeeds i ws c).contains u).map fun c =>
        let b := tblBlock s.cond.staged c.block
        (b.expLo, b.expHi)
      let fromPasses := (List.range k).filterMap fun j =>
        let v := (nodeAt i j).unit % 4096
        if (nodeAt i j).kind == 1 && (fedBy i ws j (s.eldCfg m v).dstream).contains u
        then s.xoRange m v 0 ((acc.get? v).bind id) else none
      s.inRanges m i ws n (k + 1) (acc.put u (rangeJoin (fromBlocks ++ fromPasses)))

/-- R151, second, of one node: its TRACK pass leaves neither −32 to 31 nor a window of R119 that it feeds. Where a fawn core feeds
input block 0 the spec gives it no possible range, so nothing bounds the pass here and it is accepted. [DESIGN CHOICE, log 107] -/
def State.trackNodeOk (s : State) (m : RegMap) (i : Image) (ws : List NodeWalk) (rs : KMap Nat (Option (Int × Int))) (k : Nat) : Bool :=
  let u := (nodeAt i k).unit % 4096
  let c := s.eldCfg m u
  if (nodeAt i k).kind != 1 || !c.track then true
  else (List.range (eldBlocks c)).all fun b =>
    match s.xoRange m u b ((rs.get? u).bind id) with
    | none => true
    | some r => decide (-32 ≤ r.1) && decide (r.2 ≤ 31) && (fedBy i ws k c.dstream).all fun v =>
        let x := (s.eldCfg m v).xba
        decide (0 ≤ r.1 - x) && decide (r.2 - x ≤ 22)

/-- R151, second. -/
def State.trackOk (s : State) (m : RegMap) (i : Image) (ws : List NodeWalk) : Bool :=
  let rs := s.inRanges m i ws i.nodes.length 0 []
  (List.range i.nodes.length).all (s.trackNodeOk m i ws rs)

/-- R132 of one node: no Q8 stream sent without Q8_HI reaches an engine's data input. -/
def State.hiNodeOk (s : State) (m : RegMap) (i : Image) (ws : List NodeWalk) (k : Nat) : Bool :=
  let u := (nodeAt i k).unit % 4096
  let c := s.eldCfg m u
  (nodeAt i k).kind != 1 || c.outFmt != 0 || c.emitHi
    || (List.range (eldBlocks c)).all (fun b => decide (32 < s.eldNch m u b)) || (fedBy i ws k c.dstream).isEmpty

/-- The places tokens reach, those that steering ports on the way release included. -/
def State.steeredHits (s : State) (m : RegMap) : Nat → List Hit → List Hit
  | 0, hs => hs
  | n + 1, hs => hs ++ s.steeredHits m n ((hs.filter (·.kind == 2)).flatMap fun h => (s.walkSteer m [] h.place [h.stream]).hits)

/-- R132 of engines without a schedule, those of a job: no half Q8 stream reaches an engine's data input. -/
def State.jobHiOk (s : State) (m : RegMap) (us : List Nat) : Bool :=
  (us.filter UnitAddr.isEland).all fun u =>
    let c := s.eldCfg m u
    c.outFmt != 0 || c.emitHi || (List.range (eldBlocks c)).all (fun b => decide (32 < s.eldNch m u b))
      || !(s.steeredHits m 15 (s.walkUnit m [] u).hits).any fun h =>
        h.kind == 1 && h.input == 0 && h.stream == c.dstream && UnitAddr.isEland h.place

/-- R132. -/
def State.hiOk (s : State) (m : RegMap) (i : Image) (ws : List NodeWalk) : Bool :=
  (List.range i.nodes.length).all (s.hiNodeOk m i ws)

/-- R179: each input of a core has one producer. -/
def oneProducer (i : Image) (ws : List NodeWalk) : Bool :=
  let from_ := (List.range i.nodes.length).flatMap fun k =>
    if (nodeAt i k).kind ≤ 2 then
      ((reachOf i ws i.nodes.length k).filterMap fun h =>
        if h.kind == 1 && UnitAddr.isFawn h.place then some (h.place, h.input) else none).eraseDups
    else []
  from_.eraseDups.length == from_.length

/-! ### Checks of whole images -/

/-- The kind of a unit, which PORT names a switch port, answers the record's role and every offset is a register of it (R464). -/
def recordOk (w : RegWrites) : Bool :=
  let u := w.unit % 4096
  let port := w.unit / 4096 % 2 == 1
  (match w.role with
    | 0 => !port && UnitAddr.isFawn u
    | 1 => !port && UnitAddr.isEland u
    | _ => port && decide (UnitAddr.unit u < 15))
    && w.writes.all (fun x => !(roleFields w.role x.1).isEmpty)

/-- Check classes of a kind of unit (R372): bit c for class c. -/
def kindClasses (u : Nat) : Nat := if 4096 ≤ u then 16 else if UnitAddr.isEland u then 22 else 24

/-- Nodes from which the collection node is reached. -/
def reachColl (i : Image) : List Nat :=
  (List.range i.nodes.length).reverse.foldl (fun (acc : List Nat) k =>
    if k == Image_coll i || i.edges.any (fun e => e.src == k && acc.contains e.dst) then k :: acc else acc) []

/-- The check descriptors (R372). -/
def State.checksOk (s : State) (m : RegMap) (i : Image) : Bool :=
  let steer := (Image_ports i).filter fun u => s.regIn m .FAB_STEER_CTRL_ENABLE u == 1
  let want := Image_units i ++ steer.map (4096 + ·)
  let have_ := i.checks.map (·.unit)
  let reach := reachColl i
  sortBy id have_ == have_ && have_.eraseDups.length == have_.length && want.all have_.contains && have_.all want.contains
    && i.checks.all fun d =>
      let n := nodeAt i d.node
      decide (d.node < i.nodes.length) && n.unit % 4096 == d.unit % 4096
        && n.kind == (if 4096 ≤ d.unit then 3 else if UnitAddr.isEland d.unit then 1 else 2)
        && d.classes == kindClasses d.unit && d.verdictPath == reach.contains d.node

/-- Join queues (R193). -/
def joinsOk (i : Image) (arrs : List EdgeArr) : Bool :=
  let es := i.edges.zip arrs
  (List.range i.nodes.length).all fun k =>
    let ins := es.filter fun (x : SchedEdge × EdgeArr) => x.1.dst == k
    let latest := (ins.map fun (x : SchedEdge × EdgeArr) => x.2.last).foldl max 0
    decide (ins.length < 2) || ins.all (fun (x : SchedEdge × EdgeArr) => decide (x.1.tok * ceilDiv (latest - x.2.last + 1) i.ii ≤ 16))

/-- Regions' leave (R418), and the header's sum (R189). -/
def leaveOkOf (i : Image) : Bool :=
  let us := Image_units i
  i.leave == (i.leaves.map (·.leave)).foldl (· + ·) 0
    && (List.range 8).all fun r =>
      let f := (us.filter fun u => UnitAddr.region u == r && UnitAddr.isFawn u).length
      let recs := i.leaves.filter (·.region == r)
      let b := (recs.map (·.maxBusy)).foldl max 0
      decide (2 * b + ceilDiv f 4 ≤ (recs.map (·.leave)).foldl (· + ·) 0)

/-- Scale records (R140). -/
def State.scalesOk (s : State) (m : RegMap) (units : List Nat) (rs : List ScaleRec) : Bool :=
  rs.all fun r => decide (0 < r.g) && decide (r.g < 0x7F800000)
    && (units.filter UnitAddr.isEland).any (fun u => s.passChans m u == r.count)

/-- A failed rule. -/
def ruleFail (ok : Bool) (unit : Nat := 0xFFFF) : Option LoadFail := failUnless ok lsRule 7 unit

/-- The first unit or port of a list at fault. -/
def ruleAll (us : List Nat) (ok : Nat → Bool) (port : Bool := false) : Option LoadFail :=
  match us.find? (fun u => !ok u) with
  | some u => ruleFail false (if port then 4096 + u else u)
  | none => none

/-- Engines against others' pass data, against other banks of their own, and windows (R137, R180): `units` those a configuration
sets. With `fresh` they are those of an image, whose layouts are new; otherwise an engine's layout that is held already is the one
being checked. [DEDUCED, log 65] -/
def State.sramRules (s : State) (m : RegMap) (fresh : Bool) (chunks : List PassChunk) (units : List Nat) : Option LoadFail :=
  let lay := fun u => s.eldLayout m u (s.viewRd chunks u)
  let mates := fun u => (units.filter fun v => v != u && UnitAddr.isEland v && UnitAddr.steward v == UnitAddr.steward u)
  let banks := fun u => ((s.heldLayouts u).filter fun l => fresh || l != lay u).flatMap id
  ruleAll (units.filter UnitAddr.isEland) (fun u => !rangesMeet (lay u) (s.otherLayouts u ++ (mates u).flatMap lay ++ banks u))
  <|> ruleAll (units.filter UnitAddr.isFawn) (fun u =>
    let ws := s.windowsIn m u
    ws.all (fun w => w.1 % 32 == 0 && decide (w.2 ≤ 2 ^ 22))
      && !rangesMeet ws (s.otherLayouts u ++ (mates u).flatMap lay))

/-- Rules for engines and cores that a full or bank image configures. -/
def State.unitRules (s : State) (m : RegMap) (i : Image) (units : List Nat) (lnet ii : Nat) (noV : Bool) : Option LoadFail :=
  ruleAll (units.filter UnitAddr.isEland) (fun u => s.eldOk m u ii (s.viewRd i.passData u) && s.passZpOk m u (s.viewRd i.passData u))
  <|> s.sramRules m true i.passData units
  <|> (i.fawn.find? fun p => !(units.contains (p.unit % 4096) && UnitAddr.isFawn (p.unit % 4096)
        && s.progOk m noV p && s.recvOk m lnet p && s.progFree p)).bind (fun p => ruleFail false p.unit)

/-- Rules of the channel set (R78, R145, R465). -/
def State.chanRules (s : State) (i : Image) : Option LoadFail :=
  ruleFail ((i.chans.map (·.block)).eraseDups.length == i.chans.length
    && (i.chans.map (·.row)).eraseDups.all (fun r =>
        decide (((i.chans.filter (·.row == r)).map fun c => s.blockToks c.block).foldl (· + ·) 0 ≤ i.ii))
    && (i.chans.map (·.dstream)).eraseDups.all (fun d => decide ((i.chans.filter (·.dstream == d)).length ≤ 256))
    && i.chans.all (fun c => s.blockOk c.block))

/-- When a node's tokens enter a port's delay line: first and last cycle of an event, counted from its mark, and DELAY. [DEDUCED, log 65] -/
def State.delayUses (s : State) (m : RegMap) (i : Image) (sc : Sched) (u : Nat) : List (Int × Int × Int) :=
  (List.range i.nodes.length).flatMap fun k =>
    let w : NodeWalk := nth {} sc.walks k
    w.walk.hits.filterMap fun h =>
      if h.kind != 5 || h.place != u then none
      else match s.routeIdx m u h.input h.stream with
        | none => none
        | some n =>
          let d := s.regIn m .FAB_ROUTE_DELAY (ix u 8 n)
          if d == 0 then none
          else
            let tok : Nat := ((i.edges.zip sc.arrs).map fun (x : SchedEdge × EdgeArr) =>
              if x.1.src == k && x.2.hits.any (fun g => g.used.contains (u, n)) then x.1.tok else 1).foldl max 1
            let t : Int := w.base + h.time
            some (if (nodeAt i k).kind == 0 then (t + 1 - tok, t, d) else (t, t + tok - 1, d))

/-- A token of the use `y` can enter behind one of `x` and be due before it: in one event, or in events at least II apart. -/
def delayCrosses (ii : Nat) (x y : Int × Int × Int) : Bool :=
  let d := x.2.2 - y.2.2
  decide (2 ≤ d) && ((decide (y.1 - x.2.1 < d) && decide (0 < y.2.1 - x.1)) || decide (y.1 - x.2.1 + ii < d) || decide (0 < y.2.1 - x.1 - ii))

/-- R85 order: on the schedule, the tokens of a port's delay line leave in the order in which they entered it. [DEDUCED, log 65] -/
def State.delayOrderOk (s : State) (m : RegMap) (i : Image) (sc : Sched) (u : Nat) : Bool :=
  let us := s.delayUses m i sc u
  us.all fun x => us.all fun y => !delayCrosses i.ii x y

/-- The stream of the edge into the collection node is VSTREAM (R44). -/
def vstreamOk (i : Image) (sc : Sched) : Bool :=
  ((i.edges.zip sc.arrs).filter fun (x : SchedEdge × EdgeArr) => x.1.dst == Image_coll i).all fun x =>
    x.2.hits.all fun h => h.stream == i.vstream || h.stream == anyStream

/-- Step 7 of a full image. [DEDUCED, log 65] -/
def State.fullRules (s : State) (m : RegMap) (i : Image) (sc : Sched) : Option LoadFail :=
  let us := Image_units i
  let ps := Image_ports i
  ((i.placement ++ i.routes).find? (fun w => !recordOk w)).bind (fun w => ruleFail false w.unit)
  <|> ruleFail (decide (120 ≤ i.lnet) && decide (i.lnet ≤ 960) && decide (8 ≤ i.ii) && decide (i.ii ≤ 4095))
  <|> ruleFail (decide (i.tagBase + i.tagCount ≤ 16384) && decide (ceilDiv (2 * i.lnet + 21) i.ii + 1 ≤ i.tagCount))
  <|> s.chanRules i
  <|> ruleAll ps (fun u => s.routesOk m u && s.delayOrderOk m i sc u && s.steerOk m u && s.localOk m u) true
  <|> ruleAll us (fun u =>
    let l := s.regIn m .FAB_UHOLD_LIMIT u
    l != 0 && decide (l ≤ i.lnet) && (!UnitAddr.isEland u || s.regIn m .FAB_UCFG_INPUTS u % 4 == 3))
  <|> s.unitRules m i us i.lnet i.ii true
  <|> ruleFail (i.passData.all fun c => us.contains (c.unit % 4096) && decide (c.off + c.data.length ≤ 2 ^ 22))
  <|> ruleFail (s.hiOk m i sc.walks)
  <|> ruleFail (s.scalesOk m us i.scales)
  <|> ruleFail (oneProducer i sc.walks)
  <|> ruleFail (vstreamOk i sc)
  <|> ruleFail (s.checksOk m i)
  <|> ruleFail (joinsOk i sc.arrs)
  <|> ruleFail (s.feedsOk m i sc.walks && s.trackOk m i sc.walks)
  <|> ruleFail (leaveOkOf i)
  <|> ruleFail (Config.sramPortsFree i.digest)

/-- The registers a bank image may write (R191). -/
def bankOffset (role off : Nat) : Bool :=
  if role == 1 then [0x18104, 0x18110, 0x18114, 0x18118, 0x1811C].contains off
    || (decide (0x18140 ≤ off) && decide (off < 0x181C0) && off % 4 == 0)
  else role == 0 && (off == 0x18104 || (decide (0x18110 ≤ off) && decide (off < 0x18150) && off % 8 == 0))

/-- The writes and units of a bank image are as R191 says, at units of a live placement. -/
def bankSetOk (live i : Image) : Bool :=
  let us := Image_units live
  i.placement.all (fun w => recordOk w && us.contains (w.unit % 4096) && w.writes.all (fun x => bankOffset w.role x.1))
    && i.passData.all (fun c => us.contains (c.unit % 4096)) && i.fawn.all (fun p => us.contains (p.unit % 4096))

/-- Step 7 of a bank image for a live network. [DEDUCED, log 65] -/
def State.bankRules (s : State) (m : RegMap) (live i : Image) : Option LoadFail :=
  let us := (Image_units i ++ i.passData.map (fun (c : PassChunk) => c.unit % 4096) ++ i.fawn.map (fun (p : FawnProg) => p.unit % 4096)).eraseDups
  let sc := s.schedWalks m [] live
  s.unitRules m i us live.lnet live.ii true
  <|> ruleFail (i.passData.all fun c => decide (c.off + c.data.length ≤ 2 ^ 22))
  <|> ruleFail (s.scalesOk m (Image_units live) i.scales)
  <|> ruleFail (s.hiOk m live sc.walks && s.feedsOk m live sc.walks && s.trackOk m live sc.walks)

end Sys2Proof.Machine
end

