-- ==== Sys2Proof/Machine/Loader.lean ====
section
/-! DEFINITION. The loader (R189 to R209, R262, R263, R376, R392): loading networks and banks, step 10, unloading, promotion,
cancelling, signing keys, the end of a slot's drain, and staging a remap. -/
namespace Sys2Proof.Machine
open Sys2Proof

/-! ### The staging area (R261, R330) -/

/-- Bytes of the staging area (R261). -/
def stageBytes : Nat := 0x10000000

/-- A range of the staging area holds a DIRTY page (R330). -/
def State.stageDirty (s : State) (off n : Nat) : Bool :=
  s.host.pages.any fun (e : Nat × PageState) => e.2 == .dirty && overlaps off n (4096 * e.1) 4096

/-- The image at an offset of the staging area, read from the stack in the HOST class: its bytes, or the status that refuses it. A
poisoned word makes the image unreadable. -/
def State.stagedImage (s : State) (off : Nat) : Except LoadFail (List Nat) × State :=
  let a := s.reg .MEM_STAGE_BASE + off
  let total := max 64 (s.rdLe (a + 8) 4)
  if s.stageDirty off total then (.error { status := Status.stageDirty.val, check := 0 }, s)
  else if stageBytes < off + total || !inStack a total then (.error { status := lsFormat, check := 1 }, s)
  else
    let (bs, bad, s) := s.stackRead a total 7
    (if bad.isEmpty then .ok bs else .error { status := lsFormat, check := 1 }, s)

/-! ### Slot states (Table "Slot states") and the slot's registers (R208) -/

/-- The network that a slot's registers describe: the live one, else the staged one, else the one that drains. -/
def SlotNet_shown (n : SlotNet) : Option Net :=
  match n.live, n.staged with
  | some l, _ => some l
  | none, some (.load l) => some l
  | none, _ => if n.drainC.isSome then n.old else none

/-- NSL_STATE.STATE. [DEDUCED, log 68] -/
def SlotNet_state (n : SlotNet) : Nat :=
  if n.live.isSome then 3
  else match n.staged with
    | some (.load _) => 2
    | _ => if n.loading.isSome then 1 else if n.drainC.isSome && n.old.isSome then 4 else 0

/-- Regions that hold units of an image. -/
def Image_regions (i : Image) : List Nat := (List.range 8).filter fun r => (Image_units i).any fun u => UnitAddr.region u == r

/-- Write a slot's registers (R208). -/
def State.slotRegs (s : State) (k : Nat) : State :=
  let n := s.netSlot k
  let (staged, has) := match n.staged with
    | some (.bank b _) => (b.bank, 1)
    | _ => (0, 0)
  let (net, on) := match SlotNet_shown n with
    | some x => (x, true)
    | none => ({}, false)
  let i := net.img
  let live := n.live.isSome
  let leave := ((SlotNet_nets n).map (·.img.leave)).foldl (· + ·) 0
  let rs := Image_regions i
  let set : List (Reg × Nat) := [
    (.NSL_STATE_STATE, SlotNet_state n), (.NSL_STATE_BANK, net.bank), (.NSL_STATE_STAGED_BANK, staged), (.NSL_STATE_HAS_STAGED, has),
    (.NSL_IMAGE_ID, i.imageId), (.NSL_IMAGE_BANK_ID, net.bankId), (.NSL_TAGS_BASE, i.tagBase), (.NSL_TAGS_COUNT, i.tagCount),
    (.NSL_SCHED_II, i.ii), (.NSL_SCHED_STEP, i.step), (.NSL_PAD_SLACK, if on then i.lnet - 10 - i.finalArr else 0),
    (.NSL_PAD_SHIFT, net.shift), (.NSL_PAD_CYCLES, net.padCycles), (.NSL_LEAVE_UNITS, leave), (.NSL_LEAVE_MAX_BUSY, i.maxBusy),
    (.NSL_REGIONS_MASK, rs.foldl (fun a r => a + 2 ^ r) 0), (.NSL_REGIONS_LEAD, rs.headD 0)]
  let s := set.foldl (fun s x => s.setReg x.1 k x.2) s
  (List.range 8).foldl (fun s d =>
    (s.setReg .NSL_DIGEST_VALUE (8 * k + d) (if live then leAt i.digest (8 * d) 8 else 0)).setReg .NSL_BDIGEST_VALUE (8 * k + d)
      (if live then leAt net.bankDigest (8 * d) 8 else 0)) s

/-- Replace a slot's data and write its registers. -/
def State.setSlot (s : State) (k : Nat) (n : SlotNet) : State := { s with nets := s.nets.put k n }.slotRegs k

/-- FAB_UCFG.HELD: 1 for the units of committed live placements. -/
def State.refreshHeld (s : State) : State :=
  let live := s.nets.flatMap fun (e : Nat × SlotNet) => match e.2.live with | some n => Image_units n.img | none => []
  let clear := { s with regs := s.regs.filter fun (e : (Reg × Nat) × Nat) => e.1.1 != .FAB_UCFG_HELD }
  live.eraseDups.foldl (fun s u => s.setReg .FAB_UCFG_HELD u 1) clear

/-! ### Step 8: resources (R81, R93, R196, R262, R416, R418, R419) -/

/-- Bytes that a list of ranges covers. -/
def rangesSize (rs : List (Nat × Nat)) : Nat :=
  ((sortBy (fun (r : Nat × Nat) => r.1) rs).foldl (fun (acc : Nat × Nat) (r : Nat × Nat) =>
    let lo := max acc.1 r.1
    if lo < r.2 then (r.2, acc.2 + (r.2 - lo)) else acc) (0, 0)).2

/-- The unit addresses an image writes: compute units, and switch ports with PORT = 1 (R193). -/
def Image_addrs (i : Image) : List Nat := Image_units i ++ (Image_ports i).map (4096 + ·)

/-- Unit addresses that other placements hold, for a load into a slot: its own live network's count as free (R193, R196). -/
def State.unitsTaken (s : State) (slot : Nat) : List Nat :=
  s.nets.flatMap fun (e : Nat × SlotNet) =>
    (SlotNet_nets e.2).flatMap fun n => if e.1 == slot && e.2.live == some n then [] else Image_addrs n.img

/-- UNIT: a unit of a spare site is never free. [DEDUCED, log 67] -/
def State.shortUnits (s : State) (slot : Nat) (i : Image) : List Shortfall :=
  let taken := s.unitsTaken slot
  (List.range 8).filterMap fun r =>
    let us := (Image_addrs i).filter fun u => UnitAddr.region (u % 4096) == r
    let ok := us.filter fun u => decide (UnitAddr.cluster (u % 4096) < 16) && !taken.contains u
    if ok.length < us.length then some ⟨1, r, us.length, ok.length⟩ else none

/-- Ranges of pass data records in a cluster. -/
def chunksIn (cs : List PassChunk) (steward : Nat) : List (Nat × Nat) :=
  (cs.filter fun c => UnitAddr.steward (c.unit % 4096) == steward).map fun c => (c.off, c.off + c.data.length)

/-- What placements, live banks and staged banks use of a cluster's SRAM (R196). -/
def State.sramUsed (s : State) (steward : Nat) : List (Nat × Nat) :=
  ((s.enginesHeld steward).flatMap fun u => (s.heldLayouts u).flatMap id) ++ s.windowsHeld steward
    ++ s.netCfgs.flatMap fun (x : RegMap × Image) => chunksIn x.2.passData steward

/-- SRAM: pass data and the windows that a configuration adds, by cluster. [DEDUCED, log 67] -/
def State.shortSram (s : State) (m : RegMap) (bank : Bool) (i : Image) (us : List Nat) : List Shortfall :=
  let stewards := (us ++ i.passData.map fun (c : PassChunk) => c.unit % 4096).map UnitAddr.steward
  stewards.eraseDups.filterMap fun st =>
    let wins := (us.filter fun u => UnitAddr.steward u == st && UnitAddr.isFawn u).flatMap fun u =>
      if i.placement.any (fun w => w.unit % 4096 == u && w.role == 0) then
        if bank then (s.windowsIn m u).filter (fun w => !(s.windowsIn s.regs u).contains w) else s.windowsIn m u
      else []
    let need := chunksIn i.passData st ++ wins
    let used := s.sramUsed st
    let n := rangesSize need
    let free := rangesSize (need ++ used) - rangesSize used
    if free < n then some ⟨2, 17 * UnitAddr.region st + UnitAddr.cluster st, n, free⟩ else none

/-- Networks of other slots. -/
def State.otherNets (s : State) (slot : Nat) : List Net :=
  s.nets.flatMap fun (e : Nat × SlotNet) => if e.1 == slot then [] else SlotNet_nets e.2

/-- TAG: a network that is replaced leaves its tags to the replacement (R205). [DEDUCED, log 67] -/
def State.shortTags (s : State) (slot : Nat) (i : Image) : List Shortfall :=
  let others := (s.otherNets slot).map fun n => (n.img.tagBase, n.img.tagBase + n.img.tagCount)
  let need := [(i.tagBase, i.tagBase + i.tagCount)]
  let free := rangesSize (need ++ others) - rangesSize others
  if free < i.tagCount then [⟨3, 0, i.tagCount, free⟩] else []

/-- Leave of the background classes that a load may take: readout, refinement and scrub (R419). -/
def State.leaveYields (s : State) (p : Leave → Bool) : Nat := s.grantedWhere fun g => decide (3 ≤ g.cls) && p g

/-- LEAVE: regions, then the device total. -/
def State.shortLeave (s : State) (i : Image) : List Shortfall :=
  ((List.range 8).filterMap fun r =>
    let need := Image_leaveIn i r
    let free := s.capIn s.regs r - (s.leaveHeld r - s.leaveYields (fun g => g.region == some r))
    if free < need then some (⟨4, r, need, free⟩ : Shortfall) else none)
  ++ (let free := (s.freeLeaveIn s.regs + (s.leaveYields fun _ => true)).toNat
      if free < i.leave then [⟨4, 0xFFFF, i.leave, free⟩] else [])

/-- The edges whose tokens a switch-port node passes on: all, but for a steering port only those that deliver data, since control
tokens are consumed there (R95). -/
def passedEdges (i : Image) (arrs : List EdgeArr) (k : Nat) : List SchedEdge :=
  ((i.edges.zip arrs).filter fun (x : SchedEdge × EdgeArr) => x.1.dst == k
    && ((nodeAt i k).kind != 3 || x.2.hits.any (·.kind == 2) || x.2.hits.isEmpty)).map (·.1)

/-- The producers whose tokens a node passes on (R81): an injection row, a compute unit, or those that feed a switch port. -/
def producers (i : Image) (arrs : List EdgeArr) : Nat → Nat → List Nat
  | 0, _ => []
  | n + 1, k =>
    let nd := nodeAt i k
    match nd.kind with
    | 0 => [8192 + nd.unit]
    | 1 | 2 => [nd.unit % 4096]
    | 4 => []
    | _ => ((passedEdges i arrs k).flatMap fun e => producers i arrs n e.src).eraseDups

/-- The link directions a network's routes use, with the producer of the tokens (R81). -/
def linkUses (i : Image) (sc : Sched) : List ((Nat × Nat) × Nat) :=
  ((List.range i.nodes.length).flatMap fun k =>
    let ps := producers i sc.arrs i.nodes.length k
    (nth {} sc.walks k).walk.links.flatMap fun l => ps.map fun p => (l, p)).eraseDups

/-- Link uses of a network under a configuration. -/
def State.netLinks (s : State) (m : RegMap) (n : Net) : List ((Nat × Nat) × Nat) :=
  linkUses n.img (s.schedWalks m [] n.img)

/-- Link uses of the networks of other slots, each under its configuration. -/
def State.otherLinks (s : State) (slot : Nat) : List ((Nat × Nat) × Nat) :=
  s.nets.flatMap fun (e : Nat × SlotNet) =>
    if e.1 == slot then []
    else (match e.2.live with | some n => s.netLinks s.regs n | none => [])
      ++ (match e.2.staged with | some (.load n) => s.netLinks s.nextCfg n | _ => [])
      ++ (match e.2.old with
        | some n => s.netLinks (match s.cfgOld with | some (_, m) => m | none => s.regs) n
        | none => [])

/-- LINK: directions needed against those that no other producer holds, by region. -/
def State.shortLinks (s : State) (slot : Nat) (i : Image) (sc : Sched) : List Shortfall :=
  let mine := linkUses i sc
  let all := mine ++ s.otherLinks slot
  let need := (mine.map (·.1)).eraseDups
  (List.range 8).filterMap fun r =>
    let ls := need.filter fun l => UnitAddr.region l.1 == r
    let free := ls.filter fun l => decide (((all.filter (·.1 == l)).map (·.2)).eraseDups.length ≤ 1)
    if free.length < ls.length then some ⟨5, r, ls.length, free.length⟩ else none

/-- STACK: the engines' pass data, in the layouts of the configuration the image makes, must lie below SPAN (R262). -/
def State.shortStack (s : State) (m : RegMap) (i : Image) : List Shortfall :=
  let engines := (i.placement.map fun w => w.unit % 4096).eraseDups.filter UnitAddr.isEland
  let top := (engines.flatMap fun u => (s.eldLayout m u (s.viewRd i.passData u)).map (·.2)).foldl max 0
  if s.span < top then [⟨9, 0, top, s.span⟩] else []

/-- The refusal that shortfalls make, sorted by RESOURCE and SCOPE (R202). -/
def shortFail (step8 step9 : List Shortfall) : Option LoadFail :=
  if step8.isEmpty && step9.isEmpty then none
  else some { status := lsShort, check := if step8.isEmpty then 9 else 8
              shorts := sortBy (fun (x : Shortfall) => x.resource * 65536 + x.scope) (step8 ++ step9) }

/-! ### Steps 1 to 9 -/

/-- The slot's state allows a full image (Table "Slot transitions", R203, R204). [DEDUCED, log 68] -/
def State.slotTakes (s : State) (slot : Nat) (i : Image) : Bool :=
  let n := s.netSlot slot
  !s.draining && n.loading.isNone && n.staged.isNone && !n.unload && (match n.live with
    | some l => decide (l.img.lnet ≤ i.lnet)
    | none => n.drainC.isNone)

/-- Steps 4 to 9 of a full image. -/
def State.checkFull (s : State) (slot : Nat) (p : Parsed) (bank : Bool) : Option LoadFail :=
  let i := p.img
  s.imageStep4 i
  <|> failUnless (s.slotTakes slot i) lsState 5
  <|> failUnless (!bank) lsBank 5
  <|> (let m := imageCfg slot i s.nextCfg
       match s.schedule m [] i with
       | .error k => some (schedFail i k)
       | .ok sc => s.fullRules m i sc
         <|> shortFail (s.shortUnits slot i ++ s.shortSram m false i (Image_units i) ++ s.shortTags slot i ++ s.shortLeave i
              ++ s.shortLinks slot i sc ++ s.shortStack m i) (s.step9 slot i s.nextCfg s.ints.spare).shorts)

/-- Steps 4 to 8 of a bank image; its schedule, tags, leave and routes are the base image's. -/
def State.checkBank (s : State) (slot : Nat) (p : Parsed) (bank : Bool) : Option LoadFail :=
  let i := p.img
  let n := s.netSlot slot
  failUnless (s.imagePart i) lsPart 4
  <|> (match n.live with
       | none => failUnless false lsState 5
       | some l =>
         failUnless (!s.draining && n.loading.isNone && n.staged.isNone && !n.unload) lsState 5
         <|> failUnless (bank && i.baseId == l.img.imageId) lsBank 5
         <|> failUnless (i.lnet == l.img.lnet && i.ii == l.img.ii && i.tagBase == l.img.tagBase && i.tagCount == l.img.tagCount) lsLnet 5
         <|> failUnless (bankSetOk l.img i) lsBank 5
         <|> (let m := imageCfg slot i s.nextCfg
              s.bankRules m l.img i <|> shortFail (s.shortSram m true i (Image_units i) ++ s.shortStack m i) []))

/-- Steps 1 to 9 of an image's bytes: the image, or the refusal. -/
def State.checkImage (s : State) (slot : Nat) (bank : Bool) (bs : List Nat) : Except LoadFail Image :=
  match imageStep1 bs 0x314E5654 with
  | .error f => .error f
  | .ok p =>
    match imageStep2 p <|> s.imageStep3 (bs.take p.img.totalLen) p
        <|> (if kindOf bs == .bank then s.checkBank slot p bank else s.checkFull slot p bank) with
    | some f => .error f
    | none => .ok p.img

/-! ### Replies (R201, R202) -/

/-- The load result. -/
def loadResult (f : LoadFail) (bank shift pad : Nat) : List Nat :=
  [f.check % 256, 0] ++ leBytes 2 f.unit ++ leBytes 2 f.section_ ++ [min f.shorts.length 255, bank % 256] ++ leBytes 2 shift
    ++ leBytes 2 pad ++ [0, 0, 0, 0]
    ++ (f.shorts.take 12).flatMap fun x => [x.resource, 0] ++ leBytes 2 x.scope ++ leBytes 4 x.needed ++ leBytes 4 x.available ++ [0, 0, 0, 0]

/-- NSL_LAST (R209). -/
def State.nslLast (s : State) (slot status : Nat) : State :=
  (s.setReg .NSL_LAST_STATUS 0 status).setReg .NSL_LAST_SLOT 0 slot

/-- NSL_LOAD of a slot. -/
def State.nslLoad (s : State) (slot : Nat) (f : LoadFail) : State :=
  ((s.setReg .NSL_LOAD_STATUS slot f.status).setReg .NSL_LOAD_CHECK slot f.check).setReg .NSL_LOAD_UNIT slot f.unit

/-- A refused load (R195, R201). -/
def State.loadRefused (s : State) (p : Packet) (slot : Nat) (f : LoadFail) : State :=
  (((s.nslLoad slot f).bump .NSL_CNT_REFUSED slot).nslLast slot f.status).replyP p f.status (loadResult f 0 0 0)

/-- Answer a slot command. -/
def State.slotReply (s : State) (p : Packet) (slot status : Nat) : State := (s.nslLast slot status).replyP p status

/-- LOAD and BANK_LOAD, steps 1 to 9: the image waits for step 10, or the command is refused (R195). -/
def State.loadBegin (s : State) (bank : Bool) (p : Packet) : State :=
  let slot := pU8 p 0
  if s.nets.any (fun (e : Nat × SlotNet) => e.2.loading.isSome) then s
  else match s.stagedImage (pU32 p 4) with
    | (.error f, s) => s.loadRefused p slot f
    | (.ok bs, s) => match s.checkImage slot bank bs with
      | .error f => s.loadRefused p slot f
      | .ok i => s.setSlot slot { s.netSlot slot with loading := some i }

/-! ### Step 10 -/

/-- Copy bytes within internal memory, zeros included. -/
def State.copyBytes (s : State) (src dst n : Nat) : State :=
  let cells := s.mem.filter fun c => decide (src ≤ c.1) && decide (c.1 < src + n)
  { s with mem := cells.foldl (fun (m : List Host.Cell) c => cellPut m (dst + (c.1 - src)) c.2) (cellsClear s.mem dst n) }

/-- Words of internal memory below 2^32 that were written are good again, and leave a restore list on which they stood failed
(R263). -/
def State.wordsGood (s : State) (steward : Nat) (ws : List Nat) : State :=
  { s with ue := s.ue.filter (fun w => !ws.contains w), ce := s.ce.filter (fun w => !ws.contains w)
           memS := { s.memS with restore := s.memS.restore.put steward ((s.restoreList steward).filter fun e => !ws.contains e.addr) } }

/-- Pages of a pass data record below SPAN (R263). -/
def State.chunkPages (s : State) (c : PassChunk) : List (Nat × Nat) :=
  let n := min c.data.length (s.span - c.off)
  if n == 0 then []
  else (List.range ((c.off + n - 1) / 4096 - c.off / 4096 + 1)).map fun k => (UnitAddr.steward (c.unit % 4096), c.off / 4096 + k)

/-- Store a pass data record: the golden copy first, then cluster SRAM (R262, R263). -/
def State.storeChunk (s : State) (c : PassChunk) : State :=
  let st := UnitAddr.steward (c.unit % 4096)
  let a := s.goldenAddr st c.off
  let gold := c.data.take (s.span - c.off)
  let s := if gold.isEmpty || !inStack a gold.length then s else s.stackWrite a gold 6
  let s := { s with memS := { s.memS with golden := ((s.chunkPages c) ++ s.memS.golden).eraseDups } }
  let at_ := sramOf st + c.off
  (s.wr at_ c.data).wordsGood st (stackWords at_ c.data.length)

/-- The replay copy of a core: program memory, then initial scratch (R376). -/
def State.replayCopy (s : State) (u : Nat) (scratch : List Nat) : State :=
  let a := s.replayArea u
  if !inStack a 81920 then s
  else
    let s := s.copyBytes (progBase u) a 16384
    let s := { s with mem := cellsClear s.mem (a + 16384) 65536 }
    let s := s.wr (a + 16384) scratch
    { s with poison := s.poison.filter fun w => !(decide (a ≤ w) && decide (w < a + 81920)) }.traffic 6 81920

/-- Store a fawn program, its initial scratch unless the core runs, and its replay copy. -/
def State.storeProg (s : State) (p : FawnProg) : State :=
  let u := p.unit % 4096
  let prog := p.words.flatMap (leBytes 4)
  let a := progBase u + 4 * p.start
  let s := (s.wr a prog).wordsGood (UnitAddr.steward u) ((List.range p.words.length).map fun k => a + 4 * k)
  let s := if s.reg .FAB_FC_CTRL_RUN u == 1 then s
    else (s.wr (unitSpace u) p.scratch).wordsGood (UnitAddr.steward u) (words4 (unitSpace u) (max 1 p.scratch.length))
  s.replayCopy u p.scratch

/-- Stage field values. -/
def State.stageAll (s : State) (m : RegMap) : State :=
  m.foldl (fun s (e : (Reg × Nat) × Nat) => s.stageReg e.1.1 e.1.2 e.2) s

/-- The DELAY of every pad point and the WAIT of every steering node after re-padding (R197, R198). -/
def padWrites (m : RegMap) (i : Image) (rp : Repad) : RegMap :=
  let points := ((i.edges.flatMap (·.pads)).map fun p => (p.1 % 4096, p.2)).eraseDups
  let own : RegMap := points.map fun p => ((Reg.FAB_ROUTE_DELAY, ix p.1 8 p.2), m.getD (.FAB_ROUTE_DELAY, ix p.1 8 p.2) 0)
  let added := rp.pads.foldl (fun (m : RegMap) (x : Nat × Nat × Nat) => m.put (.FAB_ROUTE_DELAY, ix x.1 8 x.2.1) x.2.2) own
  rp.waits.foldl (fun (m : RegMap) (x : Nat × Nat) => m.put (.FAB_STEER_CTRL_WAIT, x.1) x.2) added

/-- What a network puts into the verdict unit's and the collector's shadow (R42, R44, R68). -/
def vrdWrites (slot : Nat) (i : Image) : RegMap :=
  [((.VRD_CTRL_ENABLE, slot), 1), ((.VRD_LNET_LNET, slot), i.lnet), ((.VRD_DEFAULT_RESULT, slot), i.dflt),
   ((.VRD_VSTREAM_STREAM, slot), i.vstream)]

/-- Pass data of a base image that a bank's configuration still uses: ranges that meet a layout or a window of its units. -/
def State.chunkStays (s : State) (m : RegMap) (us : List Nat) (c : PassChunk) : Bool :=
  let mates := us.filter fun u => UnitAddr.steward u == UnitAddr.steward (c.unit % 4096)
  rangesMeet [(c.off, c.off + c.data.length)]
    ((mates.filter UnitAddr.isEland).flatMap (fun u => s.eldLayout m u (fun o n => s.rd (sramOf u + o) n))
      ++ (mates.filter UnitAddr.isFawn).flatMap (s.windowsIn m))

/-- The network that a live one becomes with a bank promoted (R206). -/
def State.withBank (s : State) (slot : Nat) (l : Net) (i : Image) : Net :=
  let m := imageCfg slot i s.nextCfg
  let us := Image_units l.img
  { l with
    img := { l.img with
      passData := i.passData ++ l.img.passData.filter (s.chunkStays m us)
      fawn := i.fawn ++ l.img.fawn.filter (fun p => !i.fawn.any (fun q => q.unit % 4096 == p.unit % 4096)) }
    bank := (l.bank + 1) % 16, bankId := i.imageId, bankDigest := i.digest, writes := i.placement
      ++ i.fawn.map (fun p => { unit := p.unit, role := 0, writes := [(0x18104, p.entry)] }) }

/-- Units and clusters of an image that refinement jobs have joined: (job, cluster) (R218). -/
def State.jobsInWay (s : State) (i : Image) : List (Nat × Nat) :=
  let us := Image_units i ++ i.passData.map (fun (c : PassChunk) => c.unit % 4096) ++ i.fawn.map (fun (p : FawnProg) => p.unit % 4096)
  let clusters := (us.map fun u => 17 * UnitAddr.region u + UnitAddr.cluster u).eraseDups
  s.jobs.flatMap fun (e : Nat × Job) => (e.2.joined.filter clusters.contains).map fun c => (e.1, c)

/-- A cluster leaves a job and its leave is released (R216, R218). -/
def State.clusterLeaves (s : State) (j cluster : Nat) : State :=
  let s := { s.freeCluster cluster with
    jobs := s.jobs.upd j {} fun b => { b with joined := b.joined.filter (· != cluster), leaving := b.leaving.filter (· != cluster) }
    power := { s.power with granted := removeFirst (fun g => g.cls == 4 && g.work == j && g.region == some (cluster / 17)) s.power.granted } }
  ((s.setReg .NSL_JOB_STATE_CLUSTERS j (s.jobs.getD j {}).joined.length).jobLeaveField j).jobMembership j

/-- A load needs a joined cluster: it leaves at the job's step boundary, at once when no step runs (R218). -/
def State.askCluster (s : State) (x : Nat × Nat) : State :=
  let b := s.jobs.getD x.1 {}
  if b.stepStart.isNone then s.clusterLeaves x.1 x.2
  else { s with jobs := s.jobs.put x.1 { b with leaving := (x.2 :: b.leaving).eraseDups } }

/-- A word of an image's pass data waits for its restore (R263). -/
def State.restoreInWay (s : State) (i : Image) : Bool :=
  i.passData.any fun c =>
    let st := UnitAddr.steward (c.unit % 4096)
    (s.restoreList st).any fun e => !e.failed && overlaps e.addr 32 (sramOf st + c.off) c.data.length

/-- Revoke readout, refinement and scrub grants until what is held fits (R419). -/
def State.leaveForLoad (s : State) : State :=
  State.revokeUntil (fun c => decide (3 ≤ c)) State.leaveOk s.power.granted.length s

/-- The writes of step 10: registers, pass data, programs and the slot. -/
def State.stageImage (s : State) (slot : Nat) (i : Image) : Net × State :=
  let n := s.netSlot slot
  match kindOf (leBytes 4 i.magic ++ List.replicate 34 0 ++ leBytes 2 i.flags), n.live with
  | .bank, some l =>
    let b := s.withBank slot l i
    let s := i.fawn.foldl (fun s p => s.storeProg p) (i.passData.foldl (fun s c => s.storeChunk c) s)
    (b, s.setSlot slot { n with loading := none, staged := some (.bank b false) })
  | _, _ =>
    let rp := s.step9 slot i s.nextCfg s.ints.spare
    let m := imageCfg slot i []
    let net : Net := { img := i, shift := ux 10 rp.shift, padCycles := rp.cycles % 65536, pads := rp.pads, waits := rp.waits }
    let s := ((s.stageAll m).stageAll (padWrites m i rp)).stageAll (vrdWrites slot i)
    let s := i.fawn.foldl (fun s p => s.storeProg p) (i.passData.foldl (fun s c => s.storeChunk c) s)
    (net, (s.setSlot slot { n with loading := none, staged := some (.load net) }).leaveForLoad)

/-- The commit cycle C has been broadcast and has not come: a slot in LOADING takes no part in it (R204). -/
def State.broadcasting (s : State) : Bool := match s.commit with | .broadcast _ _ => true | _ => false

/-- SHADOW_WRITE (R195 step 10): once no job and no restore stands in the way, the shadow state, the golden and replay copies and the
slot are written and the command is answered. -/
def shadowWrite (s : State) (slot : Nat) : State :=
  match (s.netSlot slot).loading, s.host.loaderQ.head?.bind s.host.busy.get? with
  | some i, some p =>
    if s.isFrozen 1 || s.broadcasting || pU8 p 0 != slot || !(p.opcode % 4096 == 0x200 || p.opcode % 4096 == 0x201) then s
    else if !(s.jobsInWay i).isEmpty then (s.jobsInWay i).foldl State.askCluster s
    else if s.restoreInWay i then s
    else
      let (net, s) := s.stageImage slot i
      let done : LoadFail := { status := 0, check := 0 }
      (((s.nslLoad slot done).bump .NSL_CNT_LOADS slot).nslLast slot 0).replyP p 0 (loadResult done net.bank (ux 16 (sx 10 net.shift)) net.padCycles)
  | _, _ => s

/-! ### Unload, promote, cancel -/

/-- A network leaves: golden bits of pages that no other held network uses are cleared (R263). -/
def State.freeGolden (s : State) (net : Net) : State :=
  let keep := s.heldNets.flatMap fun n => n.img.passData.flatMap s.chunkPages
  let gone := (net.img.passData.flatMap s.chunkPages).filter fun p => !keep.contains p
  { s with memS := { s.memS with golden := s.memS.golden.filter fun p => !gone.contains p } }

/-- Drop staged writes of some fields. -/
def State.unstage (s : State) (ks : List (Reg × Nat)) : State :=
  { s with staged := s.staged.filter fun (e : (Reg × Nat) × Nat) => !ks.contains e.1 }

/-- The fields a staged load has staged. -/
def netFields (slot : Nat) (i : Image) : List (Reg × Nat) :=
  let pads := (i.edges.flatMap (·.pads)).map fun p => (Reg.FAB_ROUTE_DELAY, ix p.1 8 p.2)
  let waits := (i.nodes.filter (·.kind == 3)).map fun n => (Reg.FAB_STEER_CTRL_WAIT, n.unit % 4096)
  (imageCfg slot i []).keys ++ pads ++ waits ++ (vrdWrites slot i).keys

/-- A staged load is given up: it holds nothing any more (R200, R203). -/
def State.dropStaged (s : State) (slot : Nat) (net : Net) : State :=
  ((s.unstage (netFields slot net.img)).setSlot slot { s.netSlot slot with staged := none }).freeGolden net

/-- The field writes of a bank that a promotion stages. -/
def bankWrites (b : Net) : RegMap :=
  b.writes.foldl (fun (m : RegMap) (w : RegWrites) =>
    w.writes.foldl (fun (m : RegMap) (x : Nat × Nat) => recordWrite (w.unit % 4096) w.role x.1 x.2 m) m) []

/-- What an unload stages: the verdict unit disabled, and no Lnet (R68, R203). -/
def unloadWrites (slot : Nat) : RegMap := [((.VRD_CTRL_ENABLE, slot), 0), ((.VRD_LNET_LNET, slot), 0)]

/-- UNLOAD (R203): the slot's verdict unit is to be disabled at the next commit. -/
def State.unloadCmd (s : State) (p : Packet) : State :=
  let slot := pU8 p 0
  let n := s.netSlot slot
  if n.live.isSome && n.staged.isNone && n.loading.isNone && !n.unload then
    ((s.setSlot slot { n with unload := true }).stageAll (unloadWrites slot)).slotReply p slot 0
  else s.slotReply p slot lsState

/-- PROMOTE (R204, R206). -/
def State.promoteCmd (s : State) (p : Packet) : State :=
  let slot := pU8 p 0
  let n := s.netSlot slot
  match n.staged with
  | some (.bank b false) =>
    if s.draining || n.live.isNone then s.slotReply p slot lsState
    else ((s.setSlot slot { n with staged := some (.bank b true) }).stageAll (bankWrites b)).slotReply p slot 0
  | _ => s.slotReply p slot lsState

/-- CANCEL (R203): a staged load or a staged bank is given up; in any other state it is refused. -/
def State.cancelCmd (s : State) (p : Packet) : State :=
  let slot := pU8 p 0
  let n := s.netSlot slot
  match n.staged with
  | some (.load net) => (s.dropStaged slot net).slotReply p slot 0
  | some (.bank b pr) =>
    let s := if pr then s.unstage (bankWrites b).keys else s
    ((s.setSlot slot { n with staged := none }).freeGolden b).slotReply p slot 0
  | none => s.slotReply p slot lsState

/-- SLOT_DRAIN_END (R203): Lnet + 20 cycles after the unload's C the slot is EMPTY and holds nothing. [DEDUCED, log 29] -/
def slotDrainEnd (s : State) (slot : Nat) : State :=
  let n := s.netSlot slot
  match n.drainC, n.old, n.live with
  | some c, some o, none =>
    if c + o.img.lnet + 20 ≤ s.cycle then (s.setSlot slot { n with old := none, drainC := none }).freeGolden o else s
  | _, _, _ => s

/-! ### Signing keys (R192, R338) -/

/-- KEY_REGISTER. -/
def State.keyCmd (s : State) (p : Packet) : State :=
  let off := pU32 p 4
  let a := s.reg .MEM_STAGE_BASE + off
  if s.stageDirty off 1793 then s.reply p .stageDirty
  else if stageBytes < off + 1793 || !inStack a 1793 then s.reply p .keyFormat
  else
    let (bs, bad, s) := s.stackRead a 1793 7
    if !bad.isEmpty || !Config.falconKeyValid bs then s.reply p .keyFormat
    else if s.keys.any (·.id == pU32 p 0) then s.reply p .keyDuplicate
    else if 8 ≤ s.keys.length then s.reply p .keySpace
    else
      let s := { s with keys := s.keys ++ [({ id := pU32 p 0, key := bs } : NetKey)] }
      (s.setReg .NSL_KEYS_COUNT 0 s.keys.length).reply p .ok

/-! ### Remaps (R200, R392) -/

/-- Placements, live or staged, with their slots. -/
def State.placements (s : State) : List (Nat × Image) :=
  s.nets.flatMap fun (e : Nat × SlotNet) =>
    (match e.2.live with | some n => [(e.1, n.img)] | none => [])
      ++ (match e.2.staged with | some (.load n) => [(e.1, n.img)] | _ => [])

/-- The cluster's program memories, scratch and SRAM from SPAN up read without uncorrectable error (Table "Remap checks"). -/
def State.remapSourceOk (s : State) (region cluster : Nat) : Bool :=
  let ram := sramBase region cluster
  let us := unitSpace (UnitAddr.mk region cluster 0)
  s.ue.all fun w => !(decide (ram + s.span ≤ w) && decide (w < ram + sramBytes)) && !(decide (us ≤ w) && decide (w < us + 2 ^ 21))

/-- INT_REMAP: the checks in their order, then the remap is staged with the re-padded delays and waits (R392, R393). -/
def State.remapCmd (s : State) (p : Packet) : State :=
  let r := pU8 p 0
  let c := pU8 p 1
  if s.ints.remap.isSome || (s.ints.spare.get? r).isSome || bitAt (s.reg .INT_STATE_SPARE_BAD) r then s.reply p .remapSpare
  else
    let sp := s.ints.spare.put r c
    let reps := s.placements.map fun (x : Nat × Image) => (imageCfg x.1 x.2 [], x.2, s.step9 x.1 x.2 s.nextCfg sp)
    let shorts := reps.flatMap fun x => x.2.2.shorts
    match shortFail [] shorts with
    | some f => s.reply p .remapShortfall (loadResult f 0 0 0)
    | none =>
      if !s.remapSourceOk r c then s.reply p .remapSource
      else
        let writes := reps.flatMap fun x => padWrites x.1 x.2.1 x.2.2
        let pads := writes.filterMap fun (e : (Reg × Nat) × Nat) =>
          if e.1.1 == .FAB_ROUTE_DELAY then some (e.1.2 / 8, e.1.2 % 8, e.2) else none
        let waits := writes.filterMap fun (e : (Reg × Nat) × Nat) => if e.1.1 == .FAB_STEER_CTRL_WAIT then some (e.1.2, e.2) else none
        let rm : Remap := { region := r, cluster := c, pads := pads, waits := waits }
        ({ s with ints := { s.ints with remap := some rm } } : State).reply p .ok

/-- R200: a staged load is checked again under a new use of spare sites; it takes the new delays or leaves its slot. -/
def State.recheckStaged (s : State) (sp : KMap Nat Nat) (slot : Nat) : State :=
  match (s.netSlot slot).staged with
  | some (.load net) =>
    let rp := s.step9 slot net.img s.nextCfg sp
    match shortFail [] rp.shorts with
    | none =>
      let net := { net with shift := ux 10 rp.shift, padCycles := rp.cycles % 65536, pads := rp.pads, waits := rp.waits }
      (s.stageAll (padWrites (imageCfg slot net.img []) net.img rp)).setSlot slot { s.netSlot slot with staged := some (.load net) }
    | some f =>
      let args := match f.shorts with
        | x :: _ => [slot, x.resource, x.scope, x.needed, x.available]
        | [] => [slot]
      ((s.dropStaged slot net).nslLoad slot f).raise clsWarn .nsl 0x0009 0xFFFF args
  | _ => s

/-! ### Commands -/

/-- LOAD (R195): of a full image. -/
def execLoad (hs : Nat) (s : State) : Answer := awake s (s.runLoader hs 0x200 fun p s => s.loadBegin false p)
/-- BANK_LOAD (R195). -/
def execBankLoad (hs : Nat) (s : State) : Answer := awake s (s.runLoader hs 0x201 fun p s => s.loadBegin true p)
/-- SHADOW_WRITE (R195). -/
def execShadowWrite (slot : Fin 16) (s : State) : Answer := awake s (shadowWrite s slot.val)
/-- UNLOAD (R203). -/
def execUnload (hs : Nat) (s : State) : Answer := awake s (s.runLoader hs 0x202 fun p s => s.unloadCmd p)
/-- PROMOTE (R206). -/
def execPromote (hs : Nat) (s : State) : Answer := awake s (s.runLoader hs 0x203 fun p s => s.promoteCmd p)
/-- CANCEL (R203). -/
def execCancel (hs : Nat) (s : State) : Answer := awake s (s.runLoader hs 0x204 fun p s => s.cancelCmd p)
/-- KEY_REGISTER (R192). -/
def execKeyRegister (hs : Nat) (s : State) : Answer := awake s (s.runLoader hs 0x210 fun p s => s.keyCmd p)
/-- SLOT_DRAIN_END (R203). -/
def execSlotDrainEnd (slot : Fin 16) (s : State) : Answer := awake s (slotDrainEnd s slot.val)
/-- SIG_REQUIRED (R209): a write of 0 while the field is 1 is ignored. -/
def execSigRequired (value : Nat) (s : State) : Answer :=
  awake s (if s.flag .NSL_CTRL_SIG_REQUIRED then s else s.setReg .NSL_CTRL_SIG_REQUIRED 0 value)
/-- INT_REMAP (R392). -/
def execIntRemap (hs : Nat) (s : State) : Answer := awake s (s.runLoader hs 0x601 fun p s => s.remapCmd p)

end Sys2Proof.Machine
end

