-- ==== Sys2Proof/Machine/CommitRules.lean ====
section
/-! DEFINITION. The rules an epoch commit checks (R42, R61, R81 to R91, R139, R162, R187, R253, R261, R262, R270, R272, R297, R340, R376,
R398, R415, R463), each breach with the internal address that a refusal names. -/
namespace Sys2Proof.Machine
open Sys2Proof

/-- COMMIT_RULE and LNET_CHANGE, the statuses of bytes 8 and 9 of a refusal (R42, R340). -/
def commitRule : Nat := 0x2101

/-- A broken rule: the internal address of the register, unit or table entry, and the status (R340). -/
structure Breach where
  addr : Nat
  status : Nat := commitRule
  deriving DecidableEq, Repr

/-- A breach at an address unless a rule holds. -/
def breachUnless (ok : Bool) (addr : Nat) (status : Nat := commitRule) : List Breach := if ok then [] else [⟨addr, status⟩]

/-- Units whose space holds staged writes. -/
def State.stagedUnits (s : State) (p : Reg.Space → Bool) : List Nat :=
  (s.staged.filterMap fun (e : (Reg × Nat) × Nat) =>
    let f := e.1.1.info
    if f.space != .block && p f.space then some (e.1.2 / (f.n1 * f.n2)) else none).eraseDups

/-- The networks that are live after the commit, by slot. -/
def State.nextNets (s : State) : List (Nat × Net) :=
  s.nets.filterMap fun (e : Nat × SlotNet) => (SlotNet_next e.2).map fun n => (e.1, n)

/-! ### Fixed areas (R261, R272, R297, R376) -/

/-- An area of the stack: the address of the register that places it, base, length, and what base and length are multiples of. -/
structure Area where
  reg : Nat
  base : Nat
  len : Nat
  align : Nat
  lenAlign : Nat := 1
  deriving DecidableEq, Repr

/-- An area whose base of 0 means that it is not placed (R261). -/
def areaIf (a : Area) : List Area := if a.base == 0 then [] else [a]

/-- The areas of a Springbok group: its ring and its segment area. -/
def State.groupAreas (s : State) (m : RegMap) (t : KMap Nat ChanEntry) (g : Nat) : List Area :=
  let c := s.groupCfgIn m t g
  let r := 0x60602000 + 128 * g
  let slot := if c.ringBase == 0 then 0 else slotBytes { c with chans := groupChans t g }
  areaIf ⟨r + 0x20, c.ringBase, c.slots * slot, 64, 1⟩ ++ areaIf ⟨r + 0x30, c.areaBase, c.areaLen, 64, 64⟩

/-- Every area that a configuration places. -/
def State.areas (s : State) (m : RegMap) (t : KMap Nat ChanEntry) : List Area :=
  let r := fun (f : Reg) => s.regIn m f 0
  [⟨0x60700008, r .MEM_STAGE_BASE, stageBytes, 2 ^ 28, 1⟩,
   ⟨0x60700010, r .MEM_GOLD_BASE, 136 * 262144 * 2 ^ r .MEM_GOLD_SPAN_SPAN, 2 ^ 18, 1⟩,
   ⟨0x60700020, r .MEM_RET_BASE, r .MEM_RET_LEN, 64, 64⟩,
   ⟨0x60D00040, r .INT_RPL_BASE, r .INT_RPL_LEN, 4096, 1⟩, ⟨0x60D00028, r .INT_SIG_BASE, 256 * r .INT_SIG_LEN, 256, 1⟩]
  ++ areaIf ⟨0x60300020, r .CND_STAT_BASE_ADDR, 2176 * 1024, 4096, 1⟩ ++ areaIf ⟨0x60300028, r .CND_OSTAT_BASE_ADDR, 16512 * 384, 4096, 1⟩
  ++ areaIf ⟨0x60600008, r .SPB_SEGTAB_BASE, 2 ^ 20, 2 ^ 20, 1⟩
  ++ (List.range 16).flatMap (fun k =>
      areaIf ⟨0x60402010 + 64 * k, s.regIn m .NSL_SMP_RING_BASE k, 64 * s.regIn m .NSL_SMP_RLEN_LEN k, 64, 1⟩)
  ++ (List.range 64).flatMap (s.groupAreas m t)
  ++ (List.range 16).flatMap fun p =>
      let n := s.regIn m .OPX_PVRING_LEN p
      if n == 0 then [] else [⟨0x60801028 + 512 * p, s.regIn m .OPX_PVRING_BASE p, 64 * n, 64, 1⟩]

/-- R261, R272, R376: each area is aligned, lies in the stack and meets no other. -/
def areaBreaches (as : List Area) : List Breach :=
  as.flatMap fun a =>
    breachUnless (a.base % a.align == 0 && a.len % a.lenAlign == 0 && (a.len == 0 || inStack a.base a.len)
      && !as.any (fun b => b.reg != a.reg && overlaps a.base a.len b.base b.len)) a.reg

/-- R262, R270. -/
def State.memBreaches (s : State) (m : RegMap) : List Breach :=
  breachUnless (decide (s.regIn m .MEM_GOLD_SPAN_SPAN ≤ 4)) 0x60700018
    ++ breachUnless (decide (((List.range 8).map fun k => s.regIn m .MEM_CLASS_LIMIT k).foldl (· + ·) 0 ≤ 109333)) 0x60700110

/-! ### Ports (R61, R297) -/

/-- R61 and R297. A staged port map names ports in the readout or peer role alone, at most four units to a port: the map's register
fails. A staged ROLE leaves no port of a network's map outside those roles: the port's register fails. Receive windows lie in the
stack. -/
def State.portBreaches (s : State) (m : RegMap) : List Breach :=
  let map := fun k => s.regIn m .VRD_PORTS_MAP k
  let verdicts := fun p => s.regIn m .OPX_PCTRL_ROLE p == 1 || s.regIn m .OPX_PCTRL_ROLE p == 2
  let onPort := fun p => ((List.range 16).filter fun k => bitAt (map k) p).length
  let written := fun k => s.staged.any fun (e : (Reg × Nat) × Nat) => e.1 == (.VRD_PORTS_MAP, k)
  (List.range 16).flatMap (fun k => breachUnless (!written k || (List.range 16).all fun p =>
      !bitAt (map k) p || (verdicts p && decide (onPort p ≤ 4))) (0x60500010 + 256 * k))
  ++ (List.range 16).flatMap fun p =>
    let used := s.nextNets.any fun (x : Nat × Net) => bitAt (map x.1) p
    let n := s.regIn m .OPX_PRX_LEN p
    breachUnless (!used || verdicts p) (0x60801000 + 512 * p)
      ++ breachUnless (s.regIn m .OPX_PRX_BASE p % 32 == 0 && (n == 0 || inStack (s.regIn m .OPX_PRX_BASE p) n))
        (0x60801018 + 512 * p)

/-! ### The fabric, engines, cores and blocks (R42, R81 to R91, R139, R162, R187, R463) -/

/-- R81: no link direction carries two producers' tokens. -/
def State.linkBreaches (s : State) (m : RegMap) : List Breach :=
  let all := s.nextNets.flatMap fun (x : Nat × Net) => s.netLinks m x.2
  (all.map (·.1)).eraseDups.flatMap fun l =>
    breachUnless (decide (((all.filter (·.1 == l)).map (·.2)).eraseDups.length ≤ 1)) (unitSpace l.1)

/-- R84 and R463 of ports with staged writes. -/
def State.switchBreaches (s : State) (m : RegMap) : List Breach :=
  (s.stagedUnits (· == .port)).flatMap fun u =>
    breachUnless ((s.validRoutes m u).all (fun n => !edgeOut u (s.regIn m .FAB_ROUTE_OUT (ix u 8 n))) && s.steerOk m u) (unitSpace u)

/-- A refusal of the loader's rules as a breach at its unit. -/
def failBreach (f : Option LoadFail) (first : Nat) : List Breach :=
  match f with
  | some x => [⟨unitSpace (if x.unit == 0xFFFF then first else x.unit % 4096), commitRule⟩]
  | none => []

/-- A network that stays or becomes live keeps its Lnet, II and tags unless it is unloaded (R42). -/
def State.lnetBreach (s : State) (m : RegMap) (slot : Nat) (n : Net) : List Breach :=
  let same := match (s.netSlot slot).live, (s.netSlot slot).staged with
    | some l, some (.bank b true) => b.img.lnet == l.img.lnet && b.img.ii == l.img.ii && b.img.tagBase == l.img.tagBase
        && b.img.tagCount == l.img.tagCount
    | _, _ => true
  breachUnless (same && s.regIn m .VRD_LNET_LNET slot == n.img.lnet) (0x60500004 + 256 * slot) 0x2206

/-- R83, R84, R86, R90, R91 and R463 of a placement. -/
def State.placeBreaches (s : State) (m : RegMap) (n : Net) : List Breach :=
  (Image_ports n.img).flatMap (fun u => breachUnless (s.routesOk m u && s.localOk m u && s.steerOk m u) (unitSpace u))
  ++ (Image_units n.img).flatMap fun u =>
    let l := s.regIn m .FAB_UHOLD_LIMIT u
    breachUnless (s.regIn m .FAB_UCFG_MODE u == 0 && l != 0 && decide (l ≤ n.img.lnet)
      && (!UnitAddr.isEland u || s.regIn m .FAB_UCFG_INPUTS u % 4 == 3)) (unitSpace u)

/-- R139, R180, R184 and R187 of a placement: its engines, windows, programs and producers; `old` are the slot's live programs. -/
def State.unitBreaches (s : State) (m : RegMap) (old : List FawnProg) (n : Net) (ws : List NodeWalk) : List Breach :=
  let i := n.img
  let us := Image_units i
  (us.filter UnitAddr.isEland).flatMap (fun u => breachUnless (s.eldOk m u i.ii (s.viewRd [] u)) (unitSpace u))
    ++ failBreach (s.sramRules m false [] us) 0
    ++ i.fawn.flatMap (fun p => breachUnless (s.progOk m true p && s.recvOk m i.lnet p && (old.contains p || s.progFree p)) (unitSpace (p.unit % 4096)))
    ++ (List.range i.nodes.length).flatMap (fun k => breachUnless (s.hiNodeOk m i ws k) (unitSpace ((nodeAt i k).unit % 4096)))
    ++ breachUnless (oneProducer i ws) (unitSpace (((us.filter UnitAddr.isFawn).headD 0) % 4096))

/-- II of the job image that uses an engine; none when no job does. -/
def State.jobIi (s : State) (u : Nat) : Option Nat :=
  (s.jobs.find? fun (e : Nat × Job) => e.2.joined.contains (17 * UnitAddr.region u + UnitAddr.cluster u)
    && (Image_units e.2.img).any fun v => UnitAddr.isEland v && UnitAddr.unit v == UnitAddr.unit u).map fun e => e.2.img.ii

/-- Engines and cores outside placements with staged registers: an engine that a job uses keeps R110 to R137 with the job's II; one
that neither holds has no pass data, so only its registers' limits bind it (R137, R139); a core's windows keep R180. -/
def State.looseBreaches (s : State) (m : RegMap) : List Breach :=
  let held := s.nextNets.flatMap fun (x : Nat × Net) => Image_units x.2.img
  let us := (s.stagedUnits fun p => p == .eland || p == .fawn).filter fun u => !held.contains u
  (us.filter UnitAddr.isEland).flatMap (fun u => match s.jobIi u with
      | some ii => breachUnless (s.eldOk m u ii (s.viewRd [] u) && s.jobHiOk m [u]) (unitSpace u)
      | none => breachUnless (s.eldRegsOk m u 4294967296) (unitSpace u))
    ++ failBreach (s.sramRules m false [] (us.filter fun u => UnitAddr.isFawn u || s.jobEngines.contains u)) 0

/-- The address that stands for a channel-table entry (R340). -/
def tblAddr (n : Nat) : Nat := 0x60380000 + 8 * n

/-- R145 and R151 of a network's channel set, when the channel table is staged (R162). -/
def State.chanBreaches (s : State) (m : RegMap) (n : Net) (ws : List NodeWalk) : List Breach :=
  let i := n.img
  let rs := s.inRanges m i ws i.nodes.length 0 []
  if !s.cond.dirty then []
  else i.chans.flatMap (fun c =>
    (List.range 64).flatMap (fun e => breachUnless (s.entryOk (64 * c.block + e)) (tblAddr (64 * c.block + e)))
      ++ breachUnless (s.blockFieldsOk c.block && s.feedsOk m { i with chans := [c] } ws) (tblAddr (64 * c.block)))
  ++ (List.range i.nodes.length).flatMap fun k => breachUnless (s.trackNodeOk m i ws rs k) (unitSpace ((nodeAt i k).unit % 4096))

/-- R145's conditions that bind every block of a staged table, of a channel set or not: ZP and the exponents. -/
def State.tableBreaches (s : State) : List Breach :=
  if !s.cond.dirty then []
  else (s.cond.staged.keys.filter (fun n => n % 64 == 0 && !s.blockRangesOk (n / 64))).flatMap fun n => breachUnless false (tblAddr n)

/-- The rules of the networks that are live after the commit. -/
def State.netBreaches (s : State) (m : RegMap) : List Breach :=
  s.nextNets.flatMap fun (x : Nat × Net) =>
    let ws := (s.schedWalks m [] x.2.img).walks
    s.lnetBreach m x.1 x.2 ++ s.placeBreaches m x.2 ++ s.unitBreaches m (match (s.netSlot x.1).live with | some l => l.img.fawn | none => []) x.2 ws ++ s.chanBreaches m x.2 ws

/-! ### Springbok (R230, R233, R234, R251, R253, R261) -/

/-- The key by which a group's envelope points ascend: ROW_OFF, then CH (R251). -/
def envKey (p : Nat × Nat) : Int := sx 16 (bits p.1 0 16) * 4096 + (bits p.1 16 12 : Nat)

/-- Points of a group out of order (R251). -/
def State.envBreaches (s : State) (c : GroupCfg) (g : Nat) : List Breach :=
  if !c.maskEn then []
  else breachUnless (decide (c.maskCount ≤ 4096)) (0x60602048 + 128 * g)
    ++ (List.range (c.maskCount - 1)).flatMap fun k =>
      let at_ := fun (j : Nat) => envKey (s.spb.envStaged.getD (c.maskFirst + j) (0, 0))
      breachUnless (decide (at_ k < at_ (k + 1))) (0x60680000 + 8 * (c.maskFirst + k + 1))

/-- R230, R233, R251, R253 and R261 of one group. -/
def State.groupBreaches (s : State) (m : RegMap) (t : KMap Nat ChanEntry) (g : Nat) : List Breach :=
  let c := s.groupCfgIn m t g
  let r := 0x60602000 + 128 * g
  if !c.en then []
  else
    breachUnless (!c.chans.isEmpty && decide ((groupBlocks c).length ≤ 64) && c.reduce != 3 && c.rowWait != 0
        && (c.reduce != 2 || (c.avgK % 2 == 0 && decide (2 ≤ c.avgK) && decide (c.avgK ≤ 16)))) r
      ++ breachUnless (decide (c.pre ≤ c.slots)) (r + 8) ++ breachUnless (c.ringBase != 0) (r + 0x20)
      ++ breachUnless (c.areaBase != 0) (r + 0x30) ++ breachUnless (decide (segReserve c ≤ c.areaLen)) (r + 0x38) ++ s.envBreaches c g

/-- Springbok's rules. -/
def State.spbBreaches (s : State) (m : RegMap) (t : KMap Nat ChanEntry) : List Breach :=
  breachUnless (s.regIn m .SPB_CTRL_ENABLE 0 == 0 || s.regIn m .SPB_SEGTAB_BASE 0 != 0) 0x60600008
    ++ (List.range 64).flatMap (s.groupBreaches m t)
    ++ (List.range 1024).flatMap (fun c => breachUnless (s.regIn m .SPB_CMP_SLOPE c == 0
        || (chanCfg (tblEntry t (s.regIn m .SPB_CMP_CHAN c))).trig) (0x60610000 + 16 * c))
    ++ (List.range 1024).flatMap fun k =>
      breachUnless (decide (s.regIn m .SPB_COIN_TERM k < 1088)) (0x60630008 + 128 * (k / 8) + 8 * (k % 8))

/-! ### Leave (R415) and the whole check -/

/-- R415. -/
def State.leaveBreaches (s : State) (m : RegMap) : List Breach :=
  let plimit := s.staged.any fun (e : (Reg × Nat) × Nat) => e.1.1 == .LV_PLIMIT_UNITS
  breachUnless (decide (s.leaveReserved + 496 + s.reserveIn m ≤ s.budgetIn m)) (if plimit then Reg.LV_PLIMIT_UNITS.info.addr else Reg.LV_RESERVE_RESTORE.info.addr)

/-- Every rule that a commit of what is staged breaks. [DEDUCED, log 23] -/
def State.commitBreaches (s : State) : List Breach :=
  let m := s.nextCfg
  let t := s.cond.staged
  areaBreaches (s.areas m t) ++ s.memBreaches m ++ s.portBreaches m ++ s.linkBreaches m ++ s.switchBreaches m ++ s.looseBreaches m
    ++ s.tableBreaches ++ s.netBreaches m ++ s.spbBreaches m t ++ s.leaveBreaches m

/-- The breach that a refusal names: that of the lowest address (R340). [DEDUCED, log 23] -/
def State.commitBreach (s : State) : Option Breach := minBy (·.addr) s.commitBreaches

end Sys2Proof.Machine
end

