-- ==== Sys2Proof/Machine/Refinement.lean ====
section
/-! DEFINITION. On-line refinement (R215 to R228): job images, clusters, steps, their arithmetic, and candidates. -/
namespace Sys2Proof.Machine
open Sys2Proof

/-! ### Job images (R215) -/

/-- A layout block of a CAND section: bank PLACEMENT records, PASSDATA heads, FAWN records. -/
structure Layout where
  place : List RegWrites := []
  heads : List PassChunk := []
  fawn : List FawnProg := []
  deriving DecidableEq, Repr

/-- Read a number of records: the records and the bytes left. -/
def takeRecs {α : Type} (f : List Nat → Rd α) : Nat → List Nat → Option (List α × List Nat × Bool)
  | 0, bs => some ([], bs, true)
  | n + 1, bs =>
    match f bs with
    | none => none
    | some (a, len, rsv, rng) =>
      if bs.length < len then none
      else match takeRecs f n (bs.drop len) with
        | none => none
        | some (l, rest, ok) => some (a :: l, rest, rsv && rng && ok)

/-- Read a layout block; the truth value says that no reserved field or range is broken. -/
def readLayout (bs : List Nat) : Option (Layout × Bool) :=
  match takeRecs (readWrites 0) (leAt bs 0 4) (bs.drop 16) with
  | none => none
  | some (pl, r1, ok1) =>
    match takeRecs (readPass true) (leAt bs 4 4) r1 with
    | none => none
    | some (hs, r2, ok2) =>
      match takeRecs readFawn (leAt bs 8 4) r2 with
      | none => none
      | some (fs, r3, ok3) => some ({ place := pl, heads := hs, fawn := fs }, ok1 && ok2 && ok3 && zerosAt bs 12 4 && r3.all (· == 0))

/-- A CAND section. -/
structure Cand where
  lay0 : Layout := {}
  lay1 : Layout := {}
  raw : List (List Nat) := []
  scales : List ScaleRec := []
  scaleBytes : List Nat := []
  ok : Bool := true
  deriving DecidableEq, Repr

/-- Read the CAND section (Table "Candidate section"). -/
def readCand (bs : List Nat) : Option Cand :=
  let ll := leAt bs 0 4
  let sl := leAt bs 4 4
  let b0 := bytesAt bs 16 ll
  let b1 := bytesAt bs (16 + ll) ll
  let sb := bytesAt bs (16 + 2 * ll) sl
  if bs.length < 16 + 2 * ll + sl || ll % 8 != 0 then none
  else match readLayout b0, readLayout b1, readAll readScale sb with
    | some (l0, k0), some (l1, k1), some (rs, r, g) =>
      if rs.length != leAt bs 8 2 then none
      else some { lay0 := l0, lay1 := l1, raw := [b0, b1], scales := rs, scaleBytes := sb
                  ok := k0 && k1 && r && g && zerosAt bs 10 6 && zerosAt bs (16 + 2 * ll + sl) (bs.length - (16 + 2 * ll + sl)) }
    | _, _, _ => none

/-- The units and cores a layout names, in order. -/
def layoutNames (l : Layout) : List Nat × List Nat × List Nat :=
  (l.place.map fun w => w.unit % 4096, l.heads.map fun c => c.unit % 4096, l.fawn.map fun p => p.unit % 4096)

/-- Two layouts share no byte of a cluster's SRAM and no program word of a core. -/
def layoutsApart (a b : Layout) : Bool :=
  let st := ((a.heads ++ b.heads).map fun c => UnitAddr.steward (c.unit % 4096)).eraseDups
  st.all (fun k => !rangesMeet (chunksIn a.heads k) (chunksIn b.heads k))
    && a.fawn.all (fun p => b.fawn.all fun q =>
      p.unit % 4096 != q.unit % 4096 || !rangesMeet [(p.start, p.start + p.words.length)] [(q.start, q.start + q.words.length)])

/-- A layout as the bank image it would make. -/
def layoutImage (l : Layout) : Image := { placement := l.place, passData := l.heads, fawn := l.fawn }

/-- The register fields a job image sets for the cluster it names. -/
def jobWrites (i : Image) (region cluster : Nat) (m : RegMap) : RegMap :=
  let at_ := fun (u : Nat) => UnitAddr.mk region cluster (UnitAddr.unit u)
  let m := (i.placement ++ i.routes).foldl (fun (m : RegMap) (w : RegWrites) =>
    w.writes.foldl (fun (m : RegMap) (x : Nat × Nat) => recordWrite (at_ w.unit) w.role x.1 x.2 m) m) m
  i.fawn.foldl (fun (m : RegMap) (p : FawnProg) => m.put (.FAB_FC_ENTRY_PC, at_ p.unit) (p.entry % 4096)) m


/-- Step 7 of a job image (R215), given the slot's live image. [DEDUCED, log 69] -/
def State.jobRules (s : State) (live i : Image) (c : Cand) : Option LoadFail :=
  let m := jobWrites i 0 0 []
  let us := Image_units i
  let names := (us ++ Image_ports i ++ i.passData.map (fun (x : PassChunk) => x.unit % 4096) ++ i.fawn.map (fun (p : FawnProg) => p.unit % 4096))
  ruleAll names (fun u => UnitAddr.region u == 0 && UnitAddr.cluster u == 0)
  <|> ((i.placement ++ i.routes).find? (fun w => !recordOk w)).bind (fun w => ruleFail false w.unit)
  <|> ruleAll (Image_ports i) (fun u => s.routesOk m u && s.localOk m u) true
  <|> ruleAll (us.filter UnitAddr.isEland) (fun u => s.eldOk m u i.ii (s.viewRd i.passData u) && s.passZpOk m u (s.viewRd i.passData u))
  <|> ruleAll us (fun u =>
    let lay := fun v => s.eldLayout m v (s.viewRd i.passData v)
    let mates := (us.filter fun v => v != u && UnitAddr.isEland v).flatMap lay
    if UnitAddr.isEland u then !rangesMeet (lay u) mates
    else (s.windowsIn m u).all (fun w => w.1 % 32 == 0 && decide (w.2 ≤ 2 ^ 22)) && !rangesMeet (s.windowsIn m u) mates)
  <|> (i.fawn.find? fun p => !(us.contains (p.unit % 4096) && UnitAddr.isFawn (p.unit % 4096) && s.progOk m false p)).bind
    (fun p => ruleFail false p.unit)
  <|> ruleFail (i.passData.all fun x => decide (x.off + x.data.length ≤ 2 ^ 22))
  <|> ruleFail (s.jobHiOk m us)
  <|> ruleFail (s.scalesOk s.regs (Image_units live) c.scales)
  <|> ruleFail (layoutNames c.lay0 == layoutNames c.lay1 && layoutsApart c.lay0 c.lay1)
  <|> ruleFail (bankSetOk live (layoutImage c.lay0) && bankSetOk live (layoutImage c.lay1))

/-- The checks of a job image: the image and its CAND section, or the refusal. [DEDUCED, log 69] -/
def State.jobChecks (s : State) (slot : Nat) (bs : List Nat) : Except LoadFail (Image × Cand) :=
  match imageStep1 bs 0x314A5654 with
  | .error f => .error f
  | .ok p =>
    match readCand p.cand with
    | none => .error { status := lsFormat, check := 1, section_ := dirIndex p.dirs 11 }
    | some c =>
      let bad := imageStep2 p
        <|> failUnless (c.ok || decide (0 < p.img.minor)) lsField 2 0xFFFF (dirIndex p.dirs 11)
        <|> s.imageStep3 (bs.take p.img.totalLen) p
        <|> failUnless (s.imagePart p.img) lsPart 4
        <|> (match (s.netSlot slot).live with
             | none => failUnless false lsState 5
             | some l => failUnless (p.img.baseId == l.img.imageId) lsBank 5 <|> s.jobRules l.img p.img c)
      match bad with
      | some f => .error f
      | none => .ok (p.img, c)

/-! ### Starting and ending jobs -/

/-- A binary32 operand in a half-open range from 0 to 1. -/
def decayOk (w : Nat) : Bool := decide (w < 0x3F800000) || w == 0x80000000

/-- The descriptor's values lie in their ranges (Table "Job descriptor"): decays, EPS, and the areas in the stack. -/
def jobFieldsOk (p : Packet) : Bool :=
  decayOk (pU32 p 40) && decayOk (pU32 p 44) && decide (0 < pU32 p 48) && decide (pU32 p 48 ≤ 0x7F800000)
    && inStack (pU64 p 16) 64 && inStack (pU64 p 24) (pU32 p 32)

/-- A job's image in the stack, read in the REFINE class. -/
def State.jobImage (s : State) (a : Nat) : Except LoadFail (List Nat) × State :=
  let total := max 64 (s.rdLe (a + 8) 4)
  if stageBytes < total || !inStack a total then (.error { status := lsFormat, check := 1 }, s)
  else
    let (bs, bad, s) := s.stackRead a total 5
    (if bad.isEmpty then .ok bs else .error { status := lsFormat, check := 1 }, s)

/-- The job that a descriptor and its image start. -/
def jobOf (p : Packet) (i : Image) (c : Cand) (baseId : Nat) : Job :=
  { slot := pU8 p 1, count := pU8 p 2, fixed := bitAt (pU8 p 3) 0, first := pU32 p 4, last := pU32 p 8, batch := pU16 p 12
    passes := pU16 p 14, image := pU64 p 16, cand := pU64 p 24, candLen := pU32 p 32, lr := pU32 p 36, beta1 := pU32 p 40
    beta2 := pU32 p 44, eps := pU32 p 48, baseId := baseId, img := i, layouts := c.raw, scaleRecs := c.scaleBytes
    leavePerCluster := (i.leaves.map (·.leave)).foldl (· + ·) 0, hasV := i.fawn.any fun f => f.words.any fawnVariant }

/-- REF_START: the job waits for its clusters, in SUSPENDED while a drain is in force. [DEDUCED, log 69] -/
def State.refStartCmd (s : State) (p : Packet) : State :=
  let j := pU8 p 0
  if !jobFieldsOk p then s.reply p .field
  else if [1, 2, 3].contains (s.reg .NSL_JOB_STATE_STATE j) then s.reply p .jobState
  else match s.jobImage (pU64 p 16) with
    | (.error f, s) => s.replyP p f.status
    | (.ok bs, s) => match s.jobChecks (pU8 p 1) bs with
      | .error f => s.replyP p f.status
      | .ok (i, c) =>
        let s := { s with jobs := s.jobs.put j (jobOf p i c (match (s.netSlot (pU8 p 1)).live with | some l => l.img.imageId | none => 0)) }
        let set : List (Reg × Nat) := [(.NSL_JOB_STATE_STATE, if s.draining then 3 else 1), (.NSL_JOB_STATE_DET, 0),
          (.NSL_JOB_STATE_SLOT, pU8 p 1), (.NSL_JOB_STATE_CLUSTERS, 0), (.NSL_JOB_STATE_STATUS, 0), (.NSL_JOB_STATE_STEPS, 0),
          (.NSL_JOB_POS_PASS, 0), (.NSL_JOB_POS_SEQ, pU32 p 4)]
        (set.foldl (fun s x => s.setReg x.1 j x.2) s).reply p .ok

/-- REF_CANCEL (R338). -/
def State.refCancelCmd (s : State) (p : Packet) : State :=
  let j := pU8 p 0
  if [1, 2, 3].contains (s.reg .NSL_JOB_STATE_STATE j) then (s.endJob j 5 0x4302).reply p .ok else s.reply p .jobState

/-! ### Clusters (R216) -/

/-- A core whose RUN has changed from 0 to 1 starts at FAB_FC_ENTRY.PC with everything cleared (R165). -/
def State.coreStart (s : State) (u epochLo at_ : Nat) : State :=
  let pc := s.reg .FAB_FC_ENTRY_PC u
  { s with cores := s.cores.put u { epochLo := epochLo, pc := pc, entry := pc, st := .running, readyAt := at_ } }

/-- Output directions that a job's routes use in a cluster. -/
def State.jobLinks (s : State) (i : Image) (region cluster : Nat) : List (Nat × Nat) :=
  let m := jobWrites i region cluster []
  (Image_ports i).flatMap fun p =>
    let u := UnitAddr.mk region cluster (UnitAddr.unit p)
    (s.validRoutes m u).flatMap fun n => ((outsOf (s.regIn m .FAB_ROUTE_OUT (ix u 8 n))).filter (· < 4)).map fun o => (u, o)

/-- A cluster can join a job: an active site, none of its units held by a placement, in no job, and no live producer on a link
direction that the job uses (R81, R215, R216, R375). -/
def State.clusterFree (s : State) (i : Image) (rank : Nat) : Bool :=
  let held := (s.netCfgs.flatMap fun (x : RegMap × Image) => Image_units x.2).any fun u => 17 * UnitAddr.region u + UnitAddr.cluster u == rank
  decide (rank % 17 < 16) && !held && !s.jobs.any (fun (e : Nat × Job) => e.2.joined.contains rank)
    && (let live := (s.otherLinks 16).map (·.1)
        !(s.jobLinks i (rank / 17) (rank % 17)).any live.contains)

/-- A cluster joins: the job's placement is relocated to it (R215). -/
def State.clusterJoin (s : State) (j rank : Nat) : State :=
  let b := s.jobs.getD j {}
  let i := b.img
  let at_ := fun (u : Nat) => UnitAddr.mk (rank / 17) (rank % 17) (UnitAddr.unit u)
  let w := jobWrites i (rank / 17) (rank % 17)
  let s := { s with regs := w s.regs, cfgOld := s.cfgOld.map (fun x => (x.1, w x.2))
                    jobs := s.jobs.put j { b with joined := b.joined ++ [rank] } }
  let s := i.passData.foldl (fun (s : State) (c : PassChunk) =>
    let a := sramOf (at_ c.unit) + c.off
    (s.wr a c.data).wordsGood (UnitAddr.steward (at_ c.unit)) (stackWords a c.data.length)) s
  let s := i.fawn.foldl (fun (s : State) (p : FawnProg) =>
    let u := at_ p.unit
    let a := progBase u + 4 * p.start
    let s := (s.wr a (p.words.flatMap (leBytes 4))).wr (unitSpace u) p.scratch
    let s := s.wordsGood (UnitAddr.steward u) (((List.range p.words.length).map fun k => a + 4 * k) ++ words4 (unitSpace u) (max 1 p.scratch.length))
    if s.reg .FAB_FC_CTRL_RUN u == 1 then s.coreStart u (s.epoch % 256) s.cycle else s) s
  s.setReg .NSL_JOB_STATE_CLUSTERS j (s.jobs.getD j {}).joined.length

/-- At a boundary, clusters whose leave has arrived join, in ascending region and cluster (R216). -/
def State.joinClusters (s : State) (j : Nat) : State :=
  (List.range 8).foldl (fun s r =>
    let got := (s.power.granted.filter fun g => g.cls == 4 && g.work == j && g.region == some r && decide (g.cyc ≤ s.cycle)).length
    (List.range 16).foldl (fun s c =>
      let b := s.jobs.getD j {}
      let rank := 17 * r + c
      if decide ((b.joined.filter (fun x => x / 17 == r)).length < got) && decide (b.joined.length < b.count) && s.clusterFree b.img rank
      then s.clusterJoin j rank else s) s) s |>.jobMembership j

/-! ### The starting point (R221, R224) -/

/-- The engines a layout names, in its order. -/
def layoutEngines (l : Layout) : List Nat := ((l.place.filter (·.role == 1)).map fun w => w.unit % 4096).eraseDups

/-- Row blocks of an engine's weights: tile and row. -/
def rowBlocks (c : EldCfg) : List (Nat × Nat) :=
  (List.range (c.nbIn * c.nbOut)).flatMap fun t => (List.range (if c.w4 then 128 else 64)).map fun r => (t, r)

/-- The channel of a tile's row. -/
def rowChannel (c : EldCfg) (t r : Nat) : Nat := (if c.w4 then 128 else 64) * (t % c.nbOut) + r

/-- The 64 weights of a row block in binary32, in units of the weights' own scale: difference × 2^XW, an escape its value × 2^XW. -/
def rowWeights (c : EldCfg) (rd : Nat → Nat → List Nat) (t r : Nat) : List Word :=
  let desc := leNat (rd (c.chan + 4 * rowChannel c t r) 4)
  let w := leNat (rd (c.side + 4 * t) 4)
  let list := wordsOf 8 (rd (sideEntries c + 8 * (w % 2 ^ 16)) (8 * bits w 16 11))
  let xw := sx 8 (bits desc 0 8)
  let codes := rowCodes c.w4 (rd (c.tile + 4096 * t) 4096) r
  (List.range 64).map fun e =>
    let code := nth 0 codes e
    if code == (if c.w4 then -8 else -128) then
      match list.find? (fun x => bits x 32 7 == r && bits x 39 6 == e) with
      | some x => (match escValue (BitVec.ofNat 32 x) with
        | some v => fRound (decide (v < 0)) v.natAbs (xw - 6)
        | none => 0)
      | none => 0
    else
      let d := code - sx 8 (bits desc 8 8)
      fRound (decide (d < 0)) d.natAbs xw

/-- A cluster's bytes as the golden area holds them. -/
def State.goldenRd (s : State) (u off n : Nat) : List Nat := s.rd (s.goldenAddr (UnitAddr.steward u) off) n

/-- The cores a layout names, in its order. -/
def layoutCores (l : Layout) : List Nat := ((l.place.filter (·.role == 0)).map fun w => w.unit % 4096).eraseDups

/-- Fields of the units of a list. -/
def unitRegs (us : List Nat) (m : RegMap) : RegMap :=
  m.filter fun (e : (Reg × Nat) × Nat) =>
    let f := e.1.1.info
    f.space != .block && us.contains (e.1.2 / (f.n1 * f.n2))

/-- The runs of cluster SRAM that a job starts from: its engines' pass data and its cores' windows. -/
def State.startRuns (s : State) (l : Layout) : List (Nat × Nat × Nat) :=
  ((layoutEngines l).flatMap fun u => (s.eldLayout s.regs u (s.goldenRd u)).map fun r => (u, r.1, r.2 - r.1))
    ++ (layoutCores l).flatMap fun u => (s.windowsIn s.regs u).map fun r => (u, r.1, r.2)

/-- The golden copy of the base bank is read in the REFINE class (R224): the data, and whether any of it reads poisoned. -/
def State.startData (s : State) (l : Layout) : List PassChunk × Bool × State :=
  (s.startRuns l).foldl (fun (acc : List PassChunk × Bool × State) (r : Nat × Nat × Nat) =>
    let (bs, bad, s) := acc.2.2.stackRead (s.goldenAddr (UnitAddr.steward r.1) r.2.1) r.2.2 5
    (acc.1 ++ [{ unit := r.1, off := r.2.1, data := bs }], acc.2.1 || !bad.isEmpty, s)) ([], false, s)

/-- Bytes of the data a job started from. -/
def baseRd (data : List PassChunk) (u off n : Nat) : List Nat :=
  match data.find? (fun c => c.unit == u && decide (c.off ≤ off) && decide (off + n ≤ c.off + c.data.length)) with
  | some c => bytesAt c.data (off - c.off) n
  | none => List.replicate n 0

/-- Free values in a row, from the counter on. [DESIGN CHOICE, log 71] -/
def freeAt (base k n : Nat) : Nat := Config.freeValue (base + k) % n

/-- The 64 codes of a group of a scale record. -/
def codeGroup (r : ScaleRec) (g : Nat) : List Nat := (r.codes.drop (64 * g)).take 64

/-- What the parameter blocks are at the job's first step (R224): the rows of the base bank's weights, then the scale codes of CAND. A
tensor's pass is the image's own numbering. [DESIGN CHOICE, log 71] -/
def State.firstParams (s : State) (digest : List Nat) (b : Job) (engines : List Nat) (rs : List ScaleRec) : List ParamBlock :=
  (engines.flatMap fun u =>
    let c := s.eldCfg b.baseRegs u
    let rd := baseRd b.baseData u
    (rowBlocks c).map fun x => ({ unit := u, tile := x.1, row := x.2, w4 := c.w4, w := rowWeights c rd x.1 x.2
                                  desc := leNat (rd (c.chan + 4 * rowChannel c x.1 x.2) 4) } : ParamBlock))
    ++ ((List.range rs.length).zip rs).flatMap fun x =>
      (List.range ((x.2.count + 63) / 64)).map fun g =>
        ({ unit := Config.tensorUnit digest x.2.tensor, tile := x.1, row := g, isScale := true
           w := (codeGroup x.2 g).map fun k => fRound false k 0 } : ParamBlock)

/-- The parameter blocks with their moments, whose first codes the manual does not give: free values. [DESIGN CHOICE, log 71] -/
def State.firstBlocks (s : State) (ps : List ParamBlock) : List ParamBlock × State :=
  let f := fun k n => freeAt s.freeIdx k n
  (((List.range ps.length).zip ps).map fun (x : Nat × ParamBlock) =>
    { x.2 with mCodes := (List.range 64).map fun e => (f (130 * x.1 + e) 255 : Int) - 127, mCode := f (130 * x.1 + 128) 256
               rCodes := (List.range 64).map fun e => (f (130 * x.1 + 64 + e) 128 : Int), rCode := f (130 * x.1 + 129) 256 },
   { s with freeIdx := s.freeIdx + 130 * ps.length })

/-! ### Arithmetic of a step (R219 to R223) -/

/-- A number's magnitude as m × 2^e; none for an infinity or NaN. -/
def fMag (w : Word) : Option (Nat × Int) := match fDec w with | .fin _ m e => some (m, e) | _ => none

/-- m × 2^e ≤ bound × 2^t. -/
def magLe (x : Nat × Int) (bound : Nat) (t : Int) : Bool :=
  if t ≤ x.2 then decide (x.1 * 2 ^ (x.2 - t).toNat ≤ bound) else decide (x.1 ≤ bound * 2 ^ (t - x.2).toNat)

/-- A gradient block's exponent (R219). -/
def gradExp (g : List Word) : Int :=
  let ok := fun (e : Int) => g.all fun w => match fMag w with | some x => magLe x 127 e | none => false
  match (List.range 40).find? (fun (k : Nat) => ok ((k : Int) - 24)) with
  | some k => (k : Int) - 24
  | none => 15

/-- round(w × 2^−e), ties away from zero; `fill` where w is no number; an infinity counts as beyond every bound. -/
def scaledInt (w : Word) (e fill : Int) : Int :=
  match fDec w with
  | .nan => fill
  | .inf neg => if neg then -(2 ^ 40) else 2 ^ 40
  | .fin neg m x => if 300 < x - e then (if neg then -(2 ^ 40) else 2 ^ 40) else roundShift (if neg then -(m : Int) else m) (x - e)

/-- A block's codes and how many were clipped (R219). -/
def gradCodes (g : List Word) (fill : Nat → Int) : List Int × Nat :=
  let e := gradExp g
  let raw := ((List.range g.length).zip g).map fun x => scaledInt x.2 e (fill x.1)
  (raw.map (clampI (-127) 127), (raw.filter fun c => decide (c < -127) || decide (127 < c)).length)

/-- A code times a power of two, in binary32. -/
def expand (code e : Int) : Word := fRound (decide (code < 0)) code.natAbs e

/-- The clusters' quantised gradients added in ascending rank (R220). -/
def sumGrads (parts : List (List Int × Int)) : List Word :=
  match parts with
  | [] => []
  | p :: rest => rest.foldl (fun (acc : List Word) (q : List Int × Int) =>
      (acc.zip (q.1.map (expand · q.2))).map fun x => fAdd x.1 x.2) (p.1.map (expand · p.2))

/-- The largest r below 2^k, from bit k down, whose 32nd power is at most n. -/
def root32 (n : Nat) : Nat → Nat → Nat
  | 0, r => r
  | k + 1, r => root32 n k (if (r + 2 ^ k) ^ 32 ≤ n then r + 2 ^ k else r)

/-- code × G × 2^(CODE/32) in binary32, G = 2^g, rounded once (R221). [DEDUCED, log 70] -/
def moment (code : Int) (scale : Nat) (g : Int) : Word :=
  let b := scale % 32
  let neg := decide (code < 0)
  if b == 0 then fRound neg code.natAbs (g + scale / 32)
  else if code == 0 then 0
  else fRound neg (2 * root32 (code.natAbs ^ 32 * 2 ^ (b + 960)) 42 0 + 1) (g + scale / 32 - 31)

/-- m × 2^e ≤ k × 2^g × 2^(scale/32), by 32nd powers. -/
def momentLe (x : Nat × Int) (k : Nat) (g : Int) (scale : Nat) : Bool := magLe (x.1 ^ 32, 32 * x.2) (k ^ 32 * 2 ^ scale) (32 * g)

/-- 2 m × 2^e < k × 2^g × 2^(scale/32). -/
def momentLt (x : Nat × Int) (k : Nat) (g : Int) (scale : Nat) : Bool :=
  let t := 32 * g
  let a := (2 * x.1) ^ 32
  let b := k ^ 32 * 2 ^ scale
  let e := 32 * x.2
  if t ≤ e then decide (a * 2 ^ (e - t).toNat < b) else decide (a < b * 2 ^ (t - e).toNat)

/-- CODE of a moment block (R222). -/
def momentScale (xs : List Word) (g : Int) : Nat :=
  ((List.range 256).find? fun c => xs.all fun w => match fMag w with | some x => momentLe x 127 g c | none => false).getD 255

/-- A moment's code: round(x / σ), clipped at 127; whether it was clipped (R222). [DEDUCED, log 70] -/
def momentCode (w : Word) (g : Int) (scale : Nat) (fill : Int) : Int × Bool :=
  let sgn := fun (n : Nat) => if bitAt w.toNat 31 then -(n : Int) else n
  if fIsNaN w then (fill, false)
  else match fMag w with
    | none => (sgn 127, true)
    | some x => match (List.range 128).find? (fun n => momentLt x (2 * n + 1) g scale) with
      | some n => (sgn n, false)
      | none => (sgn 127, true)

/-- One step of a block (R221, R222): the new block and the clips. [DEDUCED, log 70] -/
def stepBlock (lr b1 b2 eps : Word) (b : ParamBlock) (gs : List Word) (fill : Nat → Nat) : ParamBlock × Nat :=
  let one : Word := 0x3F800000
  let upd := (List.range 64).map fun k =>
    let g := nth 0 gs k
    let m := fAdd (fMul b1 (moment (nth 0 b.mCodes k) b.mCode (-12))) (fMul (fSub one b1) g)
    let r0 := moment (nth 0 b.rCodes k) b.rCode (-10)
    let r := fSqrt (fAdd (fMul (fMul b2 r0) r0) (fMul (fMul (fSub one b2) g) g))
    (m, r, fSub (nth 0 b.w k) (fDiv (fMul lr m) (fAdd r eps)))
  let ms := upd.map (·.1)
  let rs := upd.map (·.2.1)
  let mc := momentScale ms (-12)
  let rc := momentScale rs (-10)
  let mq := ((List.range 64).zip ms).map fun x => momentCode x.2 (-12) mc ((fill x.1 % 255 : Nat) - 127)
  let rq := ((List.range 64).zip rs).map fun x => momentCode x.2 (-10) rc (fill (64 + x.1) % 128 : Nat)
  ({ b with mCodes := mq.map (·.1), mCode := mc, rCodes := rq.map (·.1), rCode := rc, w := (upd.map (·.2.2)).take b.w.length },
   ((mq ++ rq).filter (·.2)).length)

/-- One weight in its channel's format (R223): the code, the escape's VALUE if it is one, and whether it was clipped; `room` while the
row block may take another escape. -/
def requant (w4 : Bool) (desc : Nat) (w : Word) (room : Bool) (fill : Int) : Int × Option Word × Bool :=
  let xw := sx 8 (bits desc 0 8)
  let zp := sx 8 (bits desc 8 8)
  let top : Int := if w4 then 7 else 127
  let code := scaledInt w xw (fill - zp) + zp
  let v := scaledInt w (xw - 6) 0
  if decide (-top ≤ code) && decide (code ≤ top) then (code, none, false)
  else if room && decide (v.natAbs < 2 ^ 21) then (-top - 1, some (fRound (decide (v < 0)) v.natAbs (-6)), false)
  else (clampI (-top) top code, none, true)

/-- A row block in its format: codes, escapes (element, VALUE), clips. -/
def requantRow (w4 : Bool) (desc : Nat) (ws : List Word) (fill : Nat → Int) : List Int × List (Nat × Word) × Nat :=
  ((List.range ws.length).zip ws).foldl (fun (acc : List Int × List (Nat × Word) × Nat) (x : Nat × Word) =>
    let (c, e, clipped) := requant w4 desc x.2 (decide (acc.2.1.length < 8)) (fill x.1)
    (acc.1 ++ [c], match e with | some v => acc.2.1 ++ [(x.1, v)] | none => acc.2.1, acc.2.2 + if clipped then 1 else 0)) ([], [], 0)

/-- The value of a requantised weight: its code's difference, or its escape, times the weights' power of two. -/
def quantWeight (desc : Nat) (code : Int) (esc : Option Word) : Word :=
  let xw := sx 8 (bits desc 0 8)
  match esc with
  | some v => (match escValue v with | some n => fRound (decide (n < 0)) n.natAbs (xw - 6) | none => 0)
  | none => expand (code - sx 8 (bits desc 8 8)) xw

/-- A row block after requantisation: what it holds now, and its clips (R223). The weights that the next step begins from are those
of the weight format. [DEDUCED, log 70] -/
def requantBlock (b : ParamBlock) (fill : Nat → Int) : ParamBlock × Nat :=
  let (codes, escs, clips) := requantRow b.w4 b.desc b.w fill
  ({ b with w := ((List.range codes.length).zip codes).map fun x =>
      quantWeight b.desc x.2 ((escs.find? (·.1 == x.1)).map (·.2)) }, clips)

/-! ### Learned scales in training (R140, R141, R223) -/

/-- SH of a decoded scale, G the record's binary32 bits (R141). -/
def splitShift (g code : Nat) : Int :=
  match fMag (BitVec.ofNat 32 g) with
  | some (m, x) =>
    let k := Nat.log2 m
    x + k + (code / 32 : Nat) + (if 2 ^ (32 * (k + 1)) ≤ m ^ 32 * 2 ^ (code % 32) then 1 else 0)
  | none => 0

/-- A scale code as trained: the parameter rounded, within its byte. [DEDUCED, log 70] -/
def trainedCode (w : Word) (fill : Nat) : Nat := (clampI 0 255 (scaledInt w 0 (fill % 256 : Nat))).toNat

/-- A block of scale codes after a step holds whole codes (R223). -/
def roundedCodes (b : ParamBlock) (fill : Nat → Nat) : ParamBlock :=
  { b with w := ((List.range b.w.length).zip b.w).map fun y => fRound false (trainedCode y.2 (fill y.1)) 0 }

/-- The codes of a record among the parameter blocks. -/
def blockCodes (bs : List ParamBlock) (k : Nat) : List Nat :=
  (bs.filter fun b => b.isScale && b.tile == k).flatMap fun b => b.w.map fun w => trainedCode w 0

/-- The factor by which f(j) changes when a code does: f does not depend on the record's G but for the split (R141). -/
def foldRatio (g old new : Nat) : Word :=
  let d : Int := (new : Int) - old
  moment 1 (d % 32).toNat (d / 32 - (splitShift g new - splitShift g old))

/-- Engines whose data input takes the output of an engine (R132). -/
def State.engineFeeds (s : State) (m : RegMap) (u : Nat) : List Nat :=
  ((s.steeredHits m 15 (s.walkUnit m [] u).hits).filterMap fun h =>
    if h.kind == 1 && h.input == 0 && h.stream == (s.eldCfg m u).dstream && UnitAddr.isEland h.place then some h.place else none).eraseDups

/-- The folds of new scale codes into the weights of a row block (R141): element by element of its input block, over the records whose
pass feeds its engine. [DEDUCED, log 70] -/
def State.foldInto (s : State) (m : RegMap) (rs : List ScaleRec) (old new : List ParamBlock) (b : ParamBlock) : ParamBlock :=
  let block := b.tile / (s.eldCfg m b.unit).nbOut
  ((List.range rs.length).zip rs).foldl (fun (b : ParamBlock) (r : Nat × ScaleRec) =>
    match new.find? (fun p => p.isScale && p.tile == r.1) with
    | none => b
    | some p =>
      if !(s.engineFeeds m p.unit).contains b.unit then b
      else
        let o := blockCodes old r.1
        let n := blockCodes new r.1
        { b with w := ((List.range b.w.length).zip b.w).map fun x =>
            let j := 64 * block + x.1
            if nth 0 o j == nth 0 n j then x.2 else fMul x.2 (foldRatio r.2.g (nth 0 o j) (nth 0 n j)) }) b

/-! ### Candidates (R224) -/

/-- A row's codes as bytes. -/
def rowBytes (w4 : Bool) (cs : List Int) : List Nat :=
  if w4 then (List.range 32).map fun k => ux 4 (nth 0 cs (2 * k)) + 16 * ux 4 (nth 0 cs (2 * k + 1)) else cs.map (ux 8)

/-- The channel descriptors of an engine with SH of the trained scales (R141). -/
def trainedDesc (desc : List Nat) (rs : List ScaleRec) (bs : List ParamBlock) (u : Nat) : List Nat :=
  match bs.find? (fun p => p.isScale && p.unit == u) with
  | none => desc
  | some p =>
    let codes := blockCodes bs p.tile
    let g := ((rs[p.tile]?).map (·.g)).getD 0
    ((List.range desc.length).zip desc).map fun x =>
      if x.1 % 4 == 2 then (match codes[x.1 / 4]? with | some k => ux 8 (splitShift g k) | none => x.2) else x.2

/-- An engine's trained pass data at the places of a configuration: tiles, side list, descriptors, table. -/
def trainedData (old new : EldCfg) (u : Nat) (rd : Nat → Nat → List Nat) (rs : List ScaleRec) (bs : List ParamBlock) : List PassChunk :=
  let rows := (bs.filter fun b => !b.isScale && b.unit == u).map fun b => (b.tile, b.row, requantRow b.w4 b.desc b.w (fun _ => 0))
  let tiles := (List.range (old.nbIn * old.nbOut)).map fun t => rows.filter (·.1 == t)
  let lists := tiles.map fun rs => rs.flatMap fun x => x.2.2.2.1.map fun (e : Nat × Word) => e.2.toNat + x.2.1 * 2 ^ 32 + e.1 * 2 ^ 39
  let firsts := (lists.foldl (fun (acc : List Nat × Nat) (l : List Nat) => (acc.1 ++ [acc.2], acc.2 + l.length)) ([], 0)).1
  let mk := fun (off : Nat) (data : List Nat) => ({ unit := u, off := off, data := data } : PassChunk)
  let tileChunks := ((List.range tiles.length).zip tiles).map fun x => mk (new.tile + 4096 * x.1) (x.2.flatMap fun r => rowBytes old.w4 r.2.2.1)
  let dir := (firsts.zip lists).flatMap fun x => leBytes 4 (x.1 % 2 ^ 16 + x.2.length % 2 ^ 11 * 2 ^ 16)
  let desc := (List.range (eldBlocks old)).flatMap fun b => rd (old.chan + 256 * b) 256
  tileChunks ++ [mk new.side dir, mk (sideEntries new) (lists.flatMap fun l => l.flatMap (leBytes 8)), mk new.chan (trainedDesc desc rs bs u)]
    ++ (if old.tableEn then [mk new.table (rd old.table 4096)] else [])

/-- A core's window bytes carried to the windows of a configuration. -/
def State.windowData (s : State) (b : Job) (m : RegMap) (u : Nat) : List PassChunk :=
  (List.range 8).filterMap fun w =>
    if s.regIn m .FAB_FC_WIN_VALID (ix u 8 w) == 1 then
      some { unit := u, off := s.regIn m .FAB_FC_WIN_BASE (ix u 8 w)
             data := baseRd b.baseData u (s.regIn b.baseRegs .FAB_FC_WIN_BASE (ix u 8 w)) (32 * (s.regIn m .FAB_FC_WIN_SIZE_M1 (ix u 8 w) + 1)) }
    else none

/-- The layout the live bank does not use: the second when every register of the first stands as it says. -/
def State.layoutUsed (s : State) (l : Layout) : Bool :=
  l.place.all fun w => w.writes.all fun x =>
    (recordWrite (w.unit % 4096) w.role x.1 x.2 []).all fun (e : (Reg × Nat) × Nat) => s.reg e.1.1 e.1.2 == e.2

/-- A register-write record's bytes. -/
def writesBytes (w : RegWrites) : List Nat :=
  leBytes 2 w.unit ++ [w.role, w.writes.length] ++ leBytes 4 0 ++ w.writes.flatMap fun x => leBytes 8 x.1 ++ leBytes 8 x.2

/-- A PASSDATA record's bytes. -/
def passBytes (c : PassChunk) : List Nat :=
  leBytes 2 c.unit ++ [0, 0] ++ leBytes 4 c.off ++ leBytes 4 c.data.length ++ leBytes 4 0 ++ bytesAt c.data 0 (pad8 c.data.length)

/-- A FAWN record's bytes. -/
def fawnBytes (p : FawnProg) : List Nat :=
  let body := leBytes 2 p.unit ++ [p.level, 0] ++ leBytes 2 p.start ++ leBytes 2 p.words.length ++ leBytes 2 p.entry ++ [0, 0]
    ++ leBytes 4 p.scratch.length ++ p.words.flatMap (leBytes 4) ++ p.scratch
  bytesAt body 0 (pad8 body.length)

/-- A scale record's bytes. -/
def scaleBytes (r : ScaleRec) : List Nat :=
  let body := leBytes 2 r.tensor ++ leBytes 2 r.count ++ leBytes 4 r.g ++ r.codes
  bytesAt body 0 (pad8 body.length)

/-- A bank image from its sections (R189, R224): the header takes its values from the base image; KEY_ID is 0. -/
def bankImage (live : Image) (id : Nat) (secs : List (Nat × List Nat)) : List Nat :=
  let n := secs.length + 1
  let start := 64 + 16 * n
  let (dirs, sigOff) := secs.foldl (fun (acc : List Nat × Nat) (x : Nat × List Nat) =>
    (acc.1 ++ leBytes 2 x.1 ++ [0, 0] ++ leBytes 4 acc.2 ++ leBytes 4 x.2.length ++ leBytes 4 (crc32c x.2), acc.2 + x.2.length)) ([], start)
  let head := leBytes 4 0x314E5654 ++ [0, 1, 3, live.arith] ++ leBytes 4 (sigOff + 72) ++ leBytes 4 id ++ leBytes 4 live.imageId
    ++ leBytes 2 live.lnet ++ leBytes 2 live.ii ++ leBytes 2 live.tagBase ++ leBytes 2 live.tagCount ++ leBytes 2 live.dflt
    ++ leBytes 2 live.leave ++ [live.step, n] ++ leBytes 2 live.finalArr ++ leBytes 2 live.maxBusy ++ leBytes 2 1 ++ leBytes 4 live.fudom
    ++ leBytes 2 live.vstream ++ List.replicate 18 0
  let sigDir := fun crc => leBytes 2 15 ++ [0, 0] ++ leBytes 4 sigOff ++ leBytes 4 72 ++ leBytes 4 crc
  let body := secs.flatMap (·.2)
  let sig := shake256 (head ++ dirs ++ sigDir 0 ++ body) 64 ++ List.replicate 8 0
  head ++ dirs ++ sigDir (crc32c sig) ++ body ++ sig

/-- A layout's FAWN record with the trained constants written into its scratch bytes (R224). -/
def trainedScratch (consts : KMap (Nat × Nat) Nat) (k : Nat) (p : FawnProg) : FawnProg :=
  { p with scratch := ((List.range p.scratch.length).zip p.scratch).map fun x => consts.getD (k, x.1) x.2 }

/-- The candidate's bytes (R224). [DESIGN CHOICE, log 71] -/
def State.candidate (s : State) (b : Job) (live : Image) (lay : Layout) (scales : List ScaleRec) : List Nat :=
  let m := lay.place.foldl (fun (m : RegMap) (w : RegWrites) =>
    w.writes.foldl (fun (m : RegMap) (x : Nat × Nat) => recordWrite (w.unit % 4096) w.role x.1 x.2 m) m) s.regs
  let chunks := ((layoutEngines lay).flatMap fun u =>
      trainedData (s.eldCfg b.baseRegs u) (s.eldCfg m u) u (baseRd b.baseData u) scales b.blocks)
    ++ (layoutCores lay).flatMap (s.windowData b m)
  let data := lay.heads.map fun c =>
    { c with data := (chunks.filter fun k => UnitAddr.steward k.unit == UnitAddr.steward (c.unit % 4096)).foldl (overlay c.off) c.data }
  let codes := ((List.range scales.length).zip scales).map fun x => { x.2 with codes := blockCodes b.blocks x.1 }
  let progs := ((List.range lay.fawn.length).zip lay.fawn).map fun x => trainedScratch b.consts x.1 x.2
  bankImage live b.img.imageId [(1, lay.place.flatMap writesBytes), (4, data.flatMap passBytes), (5, codes.flatMap scaleBytes),
    (6, progs.flatMap fawnBytes)]

/-- The job has made its last pass: it writes its candidate and enters DONE, or ends with CAND_SPACE (R224, R228). -/
def State.finishJob (s : State) (j : Nat) (live : Image) : State :=
  let b := s.jobs.getD j {}
  match readLayout (nth [] b.layouts 0), readLayout (nth [] b.layouts 1), readAll readScale b.scaleRecs with
  | some (l0, _), some (l1, _), some (rs, _, _) =>
    let bs := s.candidate b live (if s.layoutUsed l0 then l1 else l0) rs
    if b.candLen < bs.length then s.endJob j 5 0x3301
    else ((s.stackWrite b.cand bs 5).endJob j 4 0).setFlag .NSL_JOB_STATE_DET j (b.fixed && !b.hasV)
  | _, _, _ => s

/-! ### Steps -/

/-- The slot's network is still the one the job trains: it has been neither unloaded nor replaced (R226). -/
def State.jobBase (s : State) (b : Job) : Option Image :=
  match (s.netSlot b.slot).live with
  | some l => if l.img.imageId == b.baseId && !b.baseGone then some l.img else none
  | none => none

/-- Read a ring from a byte position, past its end from its base on: whether a word reads poisoned (R214, R260). -/
def State.ringRead (s : State) (base len pos n cls : Nat) : Bool × State :=
  let first := min n (len - pos)
  let (_, p, s) := s.stackRead (base + pos) first cls
  if first < n then
    let (_, q, s) := s.stackRead base (n - first) cls
    (!p.isEmpty || !q.isEmpty, s)
  else (!p.isEmpty, s)

/-- A step takes the next BATCH samples of its range from the ring, in sequence order and past the last from the first on: whether one
reads poisoned (R227, R260). -/
def State.takeSamples (s : State) (j : Nat) (b : Job) : Bool × State :=
  let base := s.reg .NSL_SMP_RING_BASE b.slot
  let cap := 64 * s.reg .NSL_SMP_RLEN_LEN b.slot
  let recs := (s.sampler b.slot).recs
  let count := (b.last + 2 ^ 32 - b.first % 2 ^ 32) % 2 ^ 32 + 1
  let at_ := (s.reg .NSL_JOB_POS_SEQ j + 2 ^ 32 - b.first % 2 ^ 32) % 2 ^ 32
  (List.range b.batch).foldl (fun (acc : Bool × State) k =>
    match recs.find? (fun r => r.seq == (b.first + (at_ + k) % count) % 2 ^ 32) with
    | some r =>
      let (bad, s) := acc.2.ringRead base cap r.pos r.len 5
      (acc.1 || bad, s)
    | none => acc) (false, s)

/-- The job's starting point, taken at its first step (R224): the base bank's data from the golden copy, and the scale codes of CAND;
whether some of it reads poisoned. -/
def State.takeStart (s : State) (b : Job) (live : Image) : Job × Bool × State :=
  match readLayout (nth [] b.layouts 0), readAll readScale b.scaleRecs with
  | some (l, _), some (rs, _, _) =>
    let (data, bad, s) := s.startData l
    let b := { b with baseRegs := unitRegs (layoutEngines l ++ layoutCores l) s.regs, baseData := data }
    let (blocks, s) := s.firstBlocks (s.firstParams live.digest b (layoutEngines l) rs)
    ({ b with blocks := blocks }, bad, s)
  | _, _ => (b, false, s)

/-- JOB_STEP_START (R216, R217, R224, R227): granted clusters join; with the required number joined the step starts and takes its
samples, the first one the job's starting point too; poisoned data end the job. -/
def jobStepStart (s : State) (j : Nat) : State :=
  match s.jobs.get? j with
  | none => s
  | some b =>
    if !([1, 2, 3].contains (s.reg .NSL_JOB_STATE_STATE j)) || b.stepStart.isSome || s.draining then s
    else match s.jobBase b with
      | none => s.endJob j 5 0x4301
      | some live =>
        let s := s.joinClusters j
        let b := s.jobs.getD j {}
        let n := b.joined.length
        if n == 0 || (b.fixed && n != b.count) then
          if s.reg .NSL_JOB_STATE_STATE j == 3 && n == 0 then s else s.setReg .NSL_JOB_STATE_STATE j 1
        else
          let s := s.setReg .NSL_JOB_STATE_STATE j 2
          let (b, bad, s) := if b.blocks.isEmpty then s.takeStart b live else (b, false, s)
          let (worse, s) := s.takeSamples j b
          let s := { s with jobs := s.jobs.put j { b with stepStart := some s.cycle, revoked := false } }
          if bad || worse then s.endJob j 5 0x5302 else s

/-- At a step's end, clusters that must go leave the job (R218). -/
def State.leaveAtBoundary (s : State) (j : Nat) : State :=
  let b := s.jobs.getD j {}
  let s := { s with jobs := s.jobs.put j { b with stepStart := none, leaving := [] } }
  let s := b.leaving.foldl (fun (s : State) c => s.clusterLeaves j c) s
  if (s.jobs.getD j {}).joined.isEmpty then s.setReg .NSL_JOB_STATE_STATE j (if b.revoked then 3 else 1) else s

/-- The quantised gradients of a step: summed blocks and the clips (R219, R220). -/
def stepGrads (n blocks : Nat) (grads : List (List (List Word))) (fill : Nat → Int) : List (List Word) × Nat :=
  let one : Nat → Nat → (List Int × Nat) × Int := fun k b =>
    let g := (List.range 64).map fun e => nth 0 (nth [] (nth [] grads k) b) e
    (gradCodes g (fun e => fill (64 * (k * blocks + b) + e)), gradExp g)
  let all : List (List ((List Int × Nat) × Int)) := (List.range blocks).map fun b => (List.range n).map fun k => one k b
  (all.map fun ps => sumGrads (ps.map fun p => (p.1.1, p.2)),
   (all.map fun ps => (ps.map fun p => p.1.2).foldl (· + ·) 0).foldl (· + ·) 0)

/-- The step's parameters are updated (R219 to R223): weights and scale codes take their step; the new codes are split and folded into
the weights they scale; the weights are requantised. -/
def State.trainStep (s : State) (j : Nat) (grads : List (List (List Word))) : State :=
  let b := s.jobs.getD j {}
  let n := b.joined.length
  let nb := b.blocks.length
  let base := s.freeIdx
  let rs := match readAll readScale b.scaleRecs with | some (rs, _, _) => rs | none => []
  let (gs, gclip) := stepGrads n nb grads (fun k => (freeAt base k 255 : Int) - 127)
  let w := fun (x : Nat) => BitVec.ofNat 32 x
  let free := fun i k => Config.freeValue (base + 64 * n * nb + 192 * i + k)
  let out : List (ParamBlock × Nat) := (((List.range nb).zip b.blocks).zip gs).map fun (x : (Nat × ParamBlock) × List Word) =>
    stepBlock (w b.lr) (w b.beta1) (w b.beta2) (w b.eps) x.1.2 x.2 (free x.1.1)
  let stepped := ((List.range nb).zip (out.map Prod.fst)).map fun x =>
    if x.2.isScale then roundedCodes x.2 (fun k => free x.1 (128 + k)) else x.2
  let rows : List (ParamBlock × Nat) := ((List.range nb).zip stepped).map fun x =>
    if x.2.isScale then (x.2, 0)
    else requantBlock (s.foldInto s.regs rs b.blocks stepped x.2) (fun k => (free x.1 (128 + k) % 255 : Nat) - 127)
  let s := { s with freeIdx := base + 64 * n * nb + 192 * nb, jobs := s.jobs.put j { b with blocks := rows.map Prod.fst } }
  let sum := fun (xs : List (ParamBlock × Nat)) => (xs.map Prod.snd).foldl (· + ·) 0
  ((s.bump .NSL_JOB_CNT_GCLIP j gclip).bump .NSL_JOB_CNT_SCLIP j (sum out)).bump .NSL_JOB_CNT_WCLIP j (sum rows)

/-- The position moves on by BATCH samples; a pass is counted at each wrap: whether the last pass is over. -/
def State.advanceJob (s : State) (j : Nat) : Bool × State :=
  let b := s.jobs.getD j {}
  let count := (b.last + 2 ^ 32 - b.first % 2 ^ 32) % 2 ^ 32 + 1
  let at_ := (s.reg .NSL_JOB_POS_SEQ j + 2 ^ 32 - b.first % 2 ^ 32) % 2 ^ 32 + b.batch
  let pass := s.reg .NSL_JOB_POS_PASS j + at_ / count
  (decide (b.passes ≤ pass),
   ((s.setReg .NSL_JOB_POS_SEQ j (b.first + at_ % count)).setReg .NSL_JOB_POS_PASS j (min pass b.passes)).bump .NSL_JOB_STATE_STEPS j)

/-- JOB_STEP_ABANDON (R218): a step longer than NSL_JOB_LIMIT.CYCLES is given up, its results discarded, and will be run again. -/
def jobStepAbandon (s : State) (j : Nat) : State :=
  match s.jobs.get? j with
  | none => s
  | some b => match b.stepStart with
    | none => s
    | some c =>
      if c + s.reg .NSL_JOB_LIMIT_CYCLES j < s.cycle then
        let s := s.bump .NSL_JOB_CNT_REVOKES j
        if (s.jobBase b).isNone then s.endJob j 5 0x4301 else s.leaveAtBoundary j
      else s

/-- Bytes that the job's programs write into the scratch of the layouts' FAWN records: record, offset, byte (R224). -/
def keepConsts (b : Job) (cs : List (Nat × Nat × Nat)) : Job :=
  let kept := cs.foldl (fun (m : KMap (Nat × Nat) Nat) (x : Nat × Nat × Nat) => m.put (x.1, x.2.1) (x.2.2 % 256)) b.consts
  { b with consts := kept }

/-- JOB_STEP_END (R218 to R224, R226): given the partial gradients of each cluster by rank and parameter block, and the constants its
programs have written, the parameters are updated; then the job finishes, ends for want of its base, or comes to a boundary. A step
that has run longer than its limit is abandoned instead. [DEDUCED, log 70] -/
def jobStepEnd (s : State) (j : Nat) (grads : List (List (List Word))) (consts : List (Nat × Nat × Nat)) : State :=
  match s.jobs.get? j with
  | none => s
  | some b => match b.stepStart with
    | none => s
    | some c =>
      if s.reg .NSL_JOB_STATE_STATE j != 2 then s
      else if c + s.reg .NSL_JOB_LIMIT_CYCLES j < s.cycle then jobStepAbandon s j
      else
        let s := { s with jobs := s.jobs.put j (keepConsts b consts) }
        let (done, s) := (s.trainStep j grads).advanceJob j
        match s.jobBase b with
        | none => s.endJob j 5 0x4301
        | some live => if done then s.finishJob j live else s.leaveAtBoundary j

/-- REF_START (R215). -/
def execRefStart (hs : Nat) (s : State) : Answer := awake s (s.runLoader hs 0x300 fun p s => s.refStartCmd p)
/-- REF_CANCEL (R338). -/
def execRefCancel (hs : Nat) (s : State) : Answer := awake s (s.runOrd hs 0x301 fun p s => s.refCancelCmd p)
/-- JOB_STEP_START (R217). -/
def execJobStepStart (job : Fin 8) (s : State) : Answer := awake s (jobStepStart s job.val)
/-- JOB_STEP_END (R218). -/
def execJobStepEnd (job : Fin 8) (grads : List (List (List Word))) (s : State) (consts : List (Nat × Nat × Nat) := []) : Answer :=
  awake s (jobStepEnd s job.val grads consts)
/-- JOB_STEP_ABANDON (R218). -/
def execJobStepAbandon (job : Fin 8) (s : State) : Answer := awake s (jobStepAbandon s job.val)

end Sys2Proof.Machine
end

