-- ==== Sys2Proof/Machine/Commit.lean ====
section
/-! DEFINITION. Epoch commits (R32 to R36), snapshot captures (R37), the control cores' mailboxes (R24), and the remap that takes
effect at a commit (R23, R391, R393). -/
namespace Sys2Proof.Machine
open Sys2Proof

/-! ### Snapshots (R37) -/

/-- A capture: the RS registers go to the buffer that is not served, and the buffers flip. -/
def State.snapshot (s : State) : State :=
  let s := s.bump .CHIP_SNAP_SEQ
  { s with snapOther := s.snap, snap := { seq := s.reg .CHIP_SNAP_SEQ, epoch := s.epoch, vals := s.captureRegs } }

/-- SNAPSHOT_TICK: a capture every 65,536 cycles. [DESIGN CHOICE, log 4] -/
def snapshotTick (s : State) : State := if s.cycle % 65536 == 0 then s.snapshot else s

/-! ### Mailboxes (R24) -/

/-- A message to control core 1 is a command to run: the loader's join its queue, the others run in their turn (R24, R194, R336). -/
def State.messageOne (s : State) (hs : Nat) : State :=
  match s.host.busy.get? hs with
  | some p =>
    if loaderOpcode (p.opcode % 4096) then { s with host := { s.host with loaderQ := s.host.loaderQ ++ [hs] } }
    else { s with host := { s.host with handed := s.host.handed ++ [hs] } }
  | none => s

/-- A message to control core 0 is the outcome of a command of core 1: its reply is written (R24, R335). -/
def State.messageZero (s : State) (hs : Nat) : State :=
  match s.host.busy.get? hs with
  | some p => match p.outcome with
    | some (st, result) => s.replyNow p st result
    | none => s
  | none => s

/-- MAILBOX_MESSAGE: a control core that is not frozen takes its oldest message. [DEDUCED, log 99] -/
def mailboxMessage (s : State) (core : Nat) : State :=
  let c := s.ctl.getD core {}
  match c.mbox with
  | [] => s
  | m :: rest =>
    if s.isFrozen core then s
    else
      let s := { s with ctl := s.ctl.put core { c with mbox := rest } }
      if core == 1 then s.messageOne m else s.messageZero m

/-! ### From COMMIT to the broadcast (R33, R35) -/

/-- Slots whose network the commit changes. -/
def State.changing (s : State) : List (Nat × SlotNet) :=
  s.nets.filter fun (e : Nat × SlotNet) => SlotNet_next e.2 != e.2.live

/-- Clusters that the commit addresses: of staged registers, of the networks it changes, of a remap (R33, R36). -/
def State.commitClusters (s : State) : List Nat :=
  let us := s.stagedUnits (fun _ => true)
    ++ s.changing.flatMap fun (e : Nat × SlotNet) =>
      (match e.2.live with | some n => Image_units n.img | none => []) ++ (match SlotNet_next e.2 with | some n => Image_units n.img | none => [])
  ((us.map fun u => 17 * UnitAddr.region u + UnitAddr.cluster u)
    ++ (match s.ints.remap with | some x => [17 * x.region + x.cluster, 17 * x.region + 16] | none => [])).eraseDups

/-- Regions of the placements that take part in a commit, slot by slot and lowest first: those of a slot, live or to be, of whose
clusters the commit addresses one (R25). -/
def State.commitSlots (s : State) : List (List Nat) :=
  let cs := s.commitClusters
  (s.nets.map fun (e : Nat × SlotNet) =>
    let us := (match e.2.live with | some n => Image_units n.img | none => []) ++ (match SlotNet_next e.2 with | some n => Image_units n.img | none => [])
    if us.any fun u => cs.contains (17 * UnitAddr.region u + UnitAddr.cluster u)
    then (List.range 8).filter fun r => us.any fun u => UnitAddr.region u == r else []).filter fun rs => !rs.isEmpty

/-- Regions whose managers a commit waits for: those that hold staged changes (R33), and every other region of a placement that takes
part, whose confirmation the placement's lead gathers (R25). [DEDUCED, log 26] -/
def State.commitRegions (s : State) : List Nat :=
  let cs := s.commitClusters
  let ss := s.commitSlots
  (List.range 8).filter fun r => cs.any (fun c => c / 17 == r) || ss.any (·.contains r)

/-- A region leads no placement of the commit some other region of which has not confirmed (R25). -/
def State.leadReady (s : State) (r : Nat) (confirmed : List Nat) : Bool :=
  s.commitSlots.all fun rs => rs.head? != some r || rs.all fun q => q == r || confirmed.contains q

/-- From the last confirmation of a commit that changes the channel table, both tables convert (R149). -/
def State.confirmed (s : State) : State := if s.cond.dirty then { s with cond := { s.cond with dual := true } } else s

/-- PREPARE goes out, or the commit is refused with the first rule that its staged state breaks (R33, R340). [DEDUCED, log 23] -/
def State.prepare (s : State) (p : Packet) : State :=
  match s.commitBreach with
  | some b => ({ s with commit := .idle } : State).reply p .commitRule (leBytes 8 b.addr ++ leBytes 2 b.status)
  | none =>
    let rs := s.commitRegions
    let s := { s with commit := .prepared p.slot s.cycle rs [] s.cycle }
    if rs.isEmpty then s.confirmed else s

/-- COMMIT: the command starts its commit, which is held while events of the epoch before the current one are in flight; it waits its
turn while another commit is in progress. [DESIGN CHOICE, log 25] -/
def State.commitCmd (s : State) (p : Packet) : State :=
  if s.commit != .idle || s.isFrozen 1 then s
  else
    let s := s.started p
    if s.cycle < s.oldUntil then { s with commit := .held p.slot } else s.prepare p

/-- HELD_COMMIT (R35): the events of the older epoch have drained. [DESIGN CHOICE, log 25] -/
def heldCommit (s : State) : State :=
  match s.commit with
  | .held slot => match s.host.busy.get? slot with
    | some p => if decide (s.oldUntil ≤ s.cycle) && !s.isFrozen 1 then s.prepare p else s
    | none => s
  | _ => s

/-- The latest cycle in which a confirmation can still come: 50 µs and the tolerance of 1 µs (R33). [DEDUCED, log 26] -/
def confirmMax : Nat := 61200
/-- The earliest cycle of the timeout. [DEDUCED, log 26] -/
def confirmMin : Nat := 58800

/-- CONFIRM (R25, R33): a region manager that PREPARE or a placement's lead asked confirms, a lead after the other regions of its
placement; a frozen one cannot (R31). [DEDUCED, log 26] -/
def confirm (s : State) (r : Nat) : State :=
  match s.commit with
  | .prepared slot since rs done_ _ =>
    if rs.contains r && !done_.contains r && !s.isFrozen (8 + r) && s.leadReady r done_ && decide (s.cycle ≤ since + confirmMax) then
      let s := { s with commit := .prepared slot since rs (r :: done_) s.cycle }
      if rs.all (fun q => (r :: done_).contains q) then s.confirmed else s
    else s
  | _ => s

/-- A commit without its confirmations is aborted: what is staged is kept, the epoch does not advance, and the reply names the regions
that failed to confirm (R33, R340). -/
def State.abortCommit (s : State) (slot : Nat) (missing : List Nat) : State :=
  let s := { s with commit := .idle, cond := { s.cond with dual := false } }
  match s.host.busy.get? slot with
  | some p => s.reply p .commitAborted [missing.foldl (fun a r => a + 2 ^ r) 0]
  | none => s

/-- COMMIT_ABORT (R33): the confirmation timeout. -/
def commitAbort (s : State) : State :=
  match s.commit with
  | .prepared slot since rs done_ _ =>
    let missing := rs.filter fun r => !done_.contains r
    if !missing.isEmpty && decide (since + confirmMin ≤ s.cycle) && !s.isFrozen 1 then s.abortCommit slot missing else s
  | _ => s

/-- An event in the deskew buffer holds a block that was converted under one table only (R33, R149). -/
def State.unconverted (s : State) : Bool :=
  s.dsk.any fun (e : Nat × DskSlot) => e.2.events.any fun ev => ev.blocks.any fun b => b.next.isNone

/-- The latest mark given to an event whose release has begun. -/
def State.lastMark (s : State) : Nat := (s.dsk.flatMap fun (e : Nat × DskSlot) => e.2.marks).foldl max 0

/-- A replay runs on the spare site that the commit would put into service (R393). -/
def State.replayOnRemap (s : State) : Bool :=
  match s.ints.remap with
  | some x => s.ints.active.any fun r => r.site == some x.region
  | none => false

/-- COMMIT_BROADCAST (R33): every confirmation has come, and, when the channel table changes, every event with a block converted
before has left the deskew buffer; C is chosen and broadcast with the new epoch, later than every mark given, as an event's mark has
fixed its epoch (R34). -/
def commitBroadcast (s : State) : State :=
  match s.commit with
  | .prepared _ _ rs done_ lastConf =>
    if !rs.all done_.contains || s.isFrozen 1 || (s.cond.dirty && s.unconverted) || s.replayOnRemap then s
    else
      let c := max (max (lastConf + 4096) (s.cycle + 1)) (s.lastMark + 1)
      { s with commit := .broadcast c (epochAfter s.epoch) }
  | _ => s

/-! ### Remaps (R23, R391, R393) -/

/-- A field instance of a unit space of a site. -/
def siteField (r c : Nat) (e : Reg × Nat) : Bool :=
  let f := e.1.info
  let u := e.2 / (f.n1 * f.n2)
  f.space != .block && UnitAddr.region u == r && UnitAddr.cluster u == c

/-- A unit address of a site moved to cluster number 16. -/
def toSpare (r c u : Nat) : Nat := if UnitAddr.region u == r && UnitAddr.cluster u == c then u + 16 * (16 - c) else u

/-- An internal address of a site's SRAM or unit spaces moved to cluster number 16. [DESIGN CHOICE, log 28] -/
def addrToSpare (r c a : Nat) : Nat :=
  let ram := sramBase r c
  let us := unitSpace (UnitAddr.mk r c 0)
  if ram ≤ a && a < ram + sramBytes then a - ram + sramBase r 16
  else if us ≤ a && a < us + 2 ^ 21 then a - us + unitSpace (UnitAddr.mk r 16 0) else a

/-- Registers with a site's copied to cluster number 16, which then names the site that failed. [DESIGN CHOICE, log 28] -/
def regsToSpare (r c : Nat) (m : RegMap) : RegMap :=
  let keep := m.filter fun (e : (Reg × Nat) × Nat) => !siteField r 16 e.1
  let moved := (m.filter fun (e : (Reg × Nat) × Nat) => siteField r c e.1).map fun (e : (Reg × Nat) × Nat) =>
    ((e.1.1, e.1.2 + 16 * (16 - c) * (e.1.1.info.n1 * e.1.1.info.n2)), e.2)
  moved ++ keep

/-- A core of the cluster: the failed site keeps it stopped; one in the middle of an event goes on under its address, one with RUN set
starts at its entry, any other is as after reset. -/
def State.remapCore (s : State) (r c epochLo : Nat) (u : Nat) : State :=
  let v := UnitAddr.mk r c u
  match s.cores.get? v with
  | none => s
  | some x =>
    let s := { s with cores := s.cores.put (toSpare r c v) { x with st := if x.st == .running then .stopped else x.st } }
    if x.st == .running && x.inEvent then s
    else if s.reg .FAB_FC_CTRL_RUN v == 1 then s.coreStart v epochLo s.cycle
    else { s with cores := s.cores.del v }

/-- SRAM of the spare site: the golden copy below SPAN, the cluster's bytes above it (R393). -/
def State.remapSram (s : State) (r c : Nat) : State :=
  let ram := sramBase r c
  let gold := s.goldenAddr (UnitAddr.mk r c 15) 0
  let s := s.copyBytes ram (sramBase r 16) sramBytes
  let s := s.copyBytes (unitSpace (UnitAddr.mk r c 0)) (unitSpace (UnitAddr.mk r 16 0)) (2 ^ 21)
  let s := s.copyBytes gold ram s.span
  let bad := (s.poison ++ s.ue).filter fun w => decide (gold ≤ w) && decide (w < gold + s.span)
  { s with ue := (s.ue.map (addrToSpare r c)) ++ (bad.map fun w => w - gold + ram).eraseDups, ce := s.ce.map (addrToSpare r c) }

/-- A suspect of cluster scope in service, or one of block scope, remains (R391). -/
def State.suspectsRemain (s : State) : Bool :=
  s.ints.suspects.any fun x => x.block || (!x.spare && decide (UnitAddr.cluster x.unit < 16))

/-- The remap takes effect: addresses swap, the spare site holds what R393 writes there, and the fault drain ends when no suspect is left in service (R391). [DESIGN CHOICE, log 28] -/
def State.remapCommit (s : State) (x : Remap) (c epoch : Nat) : State :=
  let s := { s with
    regs := regsToSpare x.region x.cluster s.regs
    cfgOld := s.cfgOld.map fun (o : Nat × RegMap) => (o.1, regsToSpare x.region x.cluster o.2)
    ints := { s.ints with
      spare := s.ints.spare.put x.region x.cluster, spareAt := s.ints.spareAt.put x.region epoch, remap := none
      suspects := s.ints.suspects.map fun (q : Suspect) => if q.block then q else { q with unit := toSpare x.region x.cluster q.unit } }
    frozen := s.frozen.map fun (f : Frozen) => if 0x10000 ≤ f.master then { f with master := 0x10000 + toSpare x.region x.cluster (f.master - 0x10000) } else f
    logs := { s.logs with frozenRecs := s.logs.frozenRecs.map fun (f : Nat × LogRec) =>
      (if 0x10000 ≤ f.1 then 0x10000 + toSpare x.region x.cluster (f.1 - 0x10000) else f.1, f.2) } }
  let s := s.remapSram x.region x.cluster
  let s := (List.range 15).foldl (State.remapCore · x.region x.cluster (epoch % 256)) s
  let st := UnitAddr.mk x.region x.cluster 15
  let s := { s with memS := { s.memS with restore := s.memS.restore.put st ((s.restoreList st).filter fun e => !e.failed) } }
  let s := s.setReg .CHIP_SPARE_USED 0 (s.reg .CHIP_SPARE_USED ||| 2 ^ x.region)
  let s := x.pads.foldl (fun (s : State) (w : Nat × Nat × Nat) => s.setReg .FAB_ROUTE_DELAY (ix w.1 8 w.2.1) w.2.2) s
  let s := x.waits.foldl (fun (s : State) (w : Nat × Nat) => s.setReg .FAB_STEER_CTRL_WAIT w.1 w.2) s
  let s := s.signature { kind := 5, unit := some st }
  if s.flag .INT_STATE_DRAIN && !s.suspectsRemain then
    { s.setReg .INT_STATE_DRAIN 0 0 with ints := { s.ints with drainEnd := some c } }
  else s

/-! ### Cycle C (R34) -/

/-- RUN bits that the commit changes: the core starts, or stops (R165); a frozen core stays frozen. -/
def State.runChange (s : State) (before : RegMap) (epoch : Nat) (u : Nat) : State :=
  let now := s.reg .FAB_FC_CTRL_RUN u
  let was := s.regIn before .FAB_FC_CTRL_RUN u
  if now == was || s.isFrozen (0x10000 + u) then s
  else if now == 1 then s.coreStart u (epoch % 256) s.cycle
  else
    let s := s.settleWait u
    { s with cores := s.cores.upd u {} fun x => { x with st := .stopped } }

/-- The jobs of a slot that is unloaded or replaced lose their base (R226). -/
def State.baseLost (s : State) (slot : Nat) : State :=
  { s with jobs := s.jobs.map fun (e : Nat × Job) => if e.2.slot == slot then (e.1, { e.2 with baseGone := true }) else e }

/-- A slot at C (Table "Slot transitions", R203, R205, R206). [DEDUCED, log 29] -/
def State.slotCommit (s : State) (c epoch slot : Nat) : State :=
  let n := s.netSlot slot
  let next := SlotNet_next n
  if n.unload then
    ((s.setSlot slot { n with live := none, old := n.live, unload := false, staged := none, drainC := some c }).dskUnload slot).baseLost slot
  else if next != n.live then
    let s := match n.staged with | some (.load _) => s.baseLost slot | _ => s
    s.setSlot slot { n with live := next.map fun l => { l with epoch := epoch }, old := n.live, staged := none }
  else
    let live := n.live.map fun l => if l.epoch == epoch then { l with epoch := 0 } else l
    if n.drainC.isSome then s
    else { s with nets := s.nets.put slot { n with live := live, old := none } }

/-- A sampler whose ring the commit moves begins it anew (R214). -/
def State.samplerCommit (s : State) (before : RegMap) (slot : Nat) : State :=
  let same := fun (r : Reg) => s.reg r slot == s.regIn before r slot
  if same .NSL_SMP_RING_BASE && same .NSL_SMP_RLEN_LEN then s
  else (s.setSampler slot { s.sampler slot with recs := [], nextPos := 0 }).setReg .NSL_SMP_SEQ_OLDEST slot (s.reg .NSL_SMP_SEQ_NEXT slot)

/-- The staged writes over the registers, each field once. [DESIGN CHOICE, log 24] -/
def mergeCfg (staged regs : RegMap) : RegMap := staged.foldr (fun (e : (Reg × Nat) × Nat) (m : RegMap) => m.put e.1 e.2) regs

/-- Cycles after C for which events of the old epoch may be in flight: the largest Lnet + 20 (R34). -/
def State.drainCycles (s : State) : Nat :=
  (s.nets.map fun (e : Nat × SlotNet) => match e.2.live with | some n => n.img.lnet + 20 | none => 0).foldl max 0

/-- The reply of the COMMIT command in progress (R340). -/
def State.commitReply (s : State) (epoch tb : Nat) : State :=
  match s.host.busy.find? (fun (e : Nat × Packet) => e.2.opcode % 4096 == 0x020 && e.2.outcome.isNone && !s.host.cmdQ.contains e.1) with
  | some e => s.reply e.2 .ok (leBytes 2 epoch ++ List.replicate 6 0 ++ leBytes 8 tb)
  | none => s

/-- Before the staged loads take part in a commit that puts a spare site into service, each is checked again with it (R200). -/
def State.recheckLoads (s : State) : State :=
  match s.ints.remap with
  | some x => (List.range 16).foldl (fun (s : State) k => s.recheckStaged (s.ints.spare.put x.region x.cluster) k) s
  | none => s

/-- What cycle C does. [DESIGN CHOICE, log 24] -/
def State.commitAt (s : State) (c epoch : Nat) : State :=
  let s := s.recheckLoads
  let before := s.regs
  let table := s.cond.committed
  let until_ := c + s.drainCycles
  let runs := (s.staged.filter fun (e : (Reg × Nat) × Nat) => e.1.1 == .FAB_FC_CTRL_RUN).map fun (e : (Reg × Nat) × Nat) => e.1.2
  let tb := (s.tbAt32 (32 * c)).1
  let s := { s with cfgOld := some (s.epoch, before), regs := mergeCfg s.staged before, staged := [], oldUntil := until_, commit := .idle }
  let s := (s.setReg .CHIP_EPOCH_CURRENT 0 epoch).setReg .CHIP_COMMIT_CYCLE_C 0 tb
  let s := runs.foldl (State.runChange · before epoch) s
  let touched := s.cond.touched
  let s := ((s.condCommit.settleWindows touched epoch).spbCommit before table).setReproKey
  let s := (List.range 16).foldl (State.slotCommit · c epoch) s
  let s := (List.range 16).foldl (State.samplerCommit · before) s
  let s := s.refreshHeld
  let s := match s.ints.remap with | some x => s.remapCommit x c epoch | none => s
  let s := s.revokeToFit.trace 1 .chip [epoch, tb]
  s.snapshot.commitReply epoch tb

/-- A restore wrote a word of a cluster that the commit addresses in a cycle (R36). -/
def State.restoredIn (s : State) (cyc : Nat) : Bool :=
  s.memS.restored.any fun x => x.2 == cyc && s.commitClusters.any fun k =>
    decide (sramBase (k / 17) (k % 17) ≤ x.1) && decide (x.1 < sramBase (k / 17) (k % 17) + sramBytes)

/-- COMMIT_CYCLE (R34, R36, R393): cycle C, unless a restore has written a word of an addressed cluster in it or a replay runs on a
site it would put into service; C then moves to the next cycle. -/
def commitCycle (s : State) : State :=
  match s.commit with
  | .broadcast c e =>
    if s.cycle < c then s
    else if s.replayOnRemap || s.restoredIn s.cycle then { s with commit := .broadcast (s.cycle + 1) e }
    else
      let c := (List.range (s.cycle - c + 1)).foldl (fun at_ _ => if s.restoredIn at_ then at_ + 1 else at_) c
      let ks := s.commitClusters
      let s := s.commitAt c e
      { s with memS := { s.memS with committed := some (s.cycle, ks) } }
  | _ => s

/-! ### Commands -/

/-- COMMIT (R33). -/
def execCommit (hs : Nat) (s : State) : Answer := awake s (s.runOrd hs 0x020 fun p s => s.commitCmd p)
/-- CONFIRM (R33). -/
def execConfirm (region : Fin 8) (s : State) : Answer := awake s (confirm s region.val)
/-- COMMIT_ABORT (R33). -/
def execCommitAbort (s : State) : Answer := awake s (commitAbort s)
/-- COMMIT_BROADCAST (R33). -/
def execCommitBroadcast (s : State) : Answer := awake s (commitBroadcast s)
/-- COMMIT_CYCLE (R34). -/
def execCommitCycle (s : State) : Answer := awake s (commitCycle s)
/-- HELD_COMMIT (R35). -/
def execHeldCommit (s : State) : Answer := awake s (heldCommit s)
/-- SNAPSHOT_TICK (R37). -/
def execSnapshotTick (s : State) : Answer := awake s (snapshotTick s)
/-- MAILBOX_MESSAGE (R24). -/
def execMailboxMessage (core : Fin 2) (s : State) : Answer := awake s (mailboxMessage s core.val)

end Sys2Proof.Machine
end

