-- ==== Sys2Proof/Machine/Timebase.lean ====
section
/-! DEFINITION. The timebase (R298 to R319): rate and steps, captures, TIME frames, the state that follows a master, and
scheduled actions. -/
namespace Sys2Proof.Machine
open Sys2Proof

/-! ### Rate and steps (R300, R301) -/

/-- TB_INC (R300): a rate outside ±500 ppm is refused and counted. -/
def tbInc (s : State) (value : Nat) : State :=
  if 0xD53A00000000 ≤ value ∧ value ≤ 0xD570FFFFFFFF then s.setReg .TB_INC_INC 0 value else s.bump .TB_CNT_MISC_INC_REFUSED

/-- REFCLK_LOSS (R300). -/
def refclkLoss (s : State) : State := (s.setReg .TB_STATE_REF_LOST 0 1).raise clsAlarm .tb 0x0010

/-- A step to a new time: counted and recorded with the old and the new TB (R301). [DEDUCED, log 83] -/
def State.stepTo (s : State) (full : Int) : State :=
  let old := s.tb.tb
  let s := s.setTbFull full
  let s := { s with tb := { s.tb with stepAt := some (s.cycle, old) } }
  (s.bump .TB_CNT_MISC_STEPS).raise clsWarn .tb 0x0011 0xFFFF [old, s.tb.tb]

/-- STEP_ADD (R301): GO with MODE 0; it replaces a pending step. [DEDUCED, log 83] -/
def stepAdd (s : State) : State :=
  (s.setReg .TB_STEPCTL_PENDING 0 0).stepTo ((s.tbFull : Int) + sx 64 (s.reg .TB_STEP_VALUE) * (2 ^ 32 : Nat))

/-- STEP_SET_PPS (R301): GO with MODE 1. -/
def stepSetPps (s : State) : State := s.setReg .TB_STEPCTL_PENDING 0 1

/-! ### Captures (R304, R305) -/

/-- A capture comes after another in the ring: by captured value, equal values by source (R302, R305). -/
def capAfter (a b : Nat × Nat × Nat) : Bool :=
  let d := sdiff 64 (a.2.2 % 2 ^ 64) (b.2.2 % 2 ^ 64)
  decide (0 < d) || (d == 0 && decide (b.2.1 < a.2.1))

/-- Write ring entries, newest first, downward from a place. -/
def State.putCaps (s : State) : Nat → List (Nat × Nat × Nat) → State
  | _, [] => s
  | n, c :: cs => (s.setReg .TB_CAP_ENTRY n c.2.2).putCaps ((n + 63) % 64) cs

/-- Enter a capture into the ring of 64 (Table "Capture entry", R305): among those of its own cycle and of later ones the captured
values order it. [DEDUCED, log 84] -/
def State.capture32 (s : State) (t32 src : Nat) : State :=
  let v := s.tbAt32 t32
  let c := (t32, src, v.1 + v.2 * 2 ^ 64 + src * 2 ^ 96)
  let later := s.tb.caps.takeWhile (fun x => decide (t32 / 32 ≤ x.1 / 32) && capAfter x c)
  let n := s.reg .TB_CAPIDX_NEXT
  let s := { s with tb := { s.tb with caps := (later ++ c :: s.tb.caps.drop later.length).take 64 } }
  ((s.putCaps n (later.take 63 ++ [c])).setReg .TB_CAPIDX_NEXT 0 (n + 1)).bump .TB_CAPIDX_TOTAL

/-- PPS_EDGE (R301, R304): a rising edge a number of 1/32 cycles ago. [DEDUCED, log 84] -/
def ppsEdge (s : State) (ago32 : Nat) : State :=
  let t := 32 * s.cycle - ago32
  if s.tb.ppsAt.any (fun p => decide (t < p + 32 * 600000000)) then s.bump .TB_CNT_MISC_PPS_GLITCH
  else
    let s := { s with tb := { s.tb with ppsAt := some t } }.setReg .TB_STATE_PPS_PRESENT 0 1
    let s := if s.flag .TB_CAPCTL_PPS then s.capture32 t 0 else s
    if s.flag .TB_STEPCTL_PENDING then
      let since := roundDiv ((ago32 * s.reg .TB_INC_INC : Nat) : Int) 32
      (s.setReg .TB_STEPCTL_PENDING 0 0).stepTo
        (((s.reg .TB_STEPCTL_EPOCH * 2 ^ 64 + s.reg .TB_STEP_VALUE) * 2 ^ 32 : Nat) + since)
    else s

/-- PPS_LOSS (R304): 1.1 s less 1 % at the earliest after the last accepted edge. [DEDUCED, log 84] -/
def ppsLoss (s : State) : State :=
  if s.tb.ppsAt.any (fun p => decide (p + 32 * 1306800000 ≤ 32 * s.cycle)) then s.setReg .TB_STATE_PPS_PRESENT 0 0 else s

/-- SOFT (R304). -/
def soft (s : State) : State := s.capture32 (32 * s.cycle) 9

/-- The compensated time of a line's edge has come: TB at it goes into the pulse that the edge made, and is captured if the source was
enabled (R239, R304). -/
def State.edgeTime (s : State) (e : Nat × Nat × Bool × Bool) : State :=
  let v := (s.tbAt32 e.1).1
  let mine := fun (p : Pulse) => p.term == 1056 + e.2.1 && p.cyc == linePulse e.1
  let stamped := s.spb.pulses.map fun (p : Pulse) => if mine p then { p with edgeTB := v } else p
  let s := if e.2.2.2 then { s with spb := { s.spb with pulses := stamped } } else s
  if e.2.2.1 then s.capture32 e.1 (1 + e.2.1) else s

/-- As a cycle ends, the compensated times that lie in it have come (R304). -/
def State.edgesDue (s : State) : State :=
  let due := s.tb.edges.filter fun e => decide (e.1 < 32 * (s.cycle + 1))
  due.foldl State.edgeTime { s with tb := { s.tb with edges := s.tb.edges.filter fun e => !decide (e.1 < 32 * (s.cycle + 1)) } }

/-- TRIG_EDGE (R239, R304): Springbok's term, and the capture at the compensated time, which may be yet to come. [DEDUCED, log 75] -/
def trigEdge (s : State) (l edge : Nat) : State :=
  let e := (edge + s.reg .SPB_LINE_DLY l, l, bitAt (s.reg .TB_CAPCTL_TRIG) l, !s.edgeClose l edge)
  let s := s.lineEdge l edge
  if e.1 < 32 * s.cycle then s.edgeTime e else { s with tb := { s.tb with edges := s.tb.edges ++ [e] } }

/-! ### TIME frames (R306 to R311) -/

/-- A TIME payload (Table "TIME payload"). -/
def timePayload (msg origin hops seqId wraps tx corr reqRx : Nat) : List Nat :=
  leBytes 4 (msg % 16 + origin % 64 * 2 ^ 4 + hops % 64 * 2 ^ 10 + seqId % 65536 * 2 ^ 16) ++ leBytes 4 wraps ++ leBytes 8 tx
    ++ leBytes 8 corr ++ leBytes 8 reqRx

/-- Fields of a received TIME payload: MSG, ORIGIN, HOPS, SEQ_ID, T_WRAPS, T_TX, CORRECTION, REQ_RX. -/
structure TimeMsg where
  msg : Nat
  origin : Nat
  hops : Nat
  seqId : Nat
  wraps : Nat
  tx : Nat
  corr : Nat
  reqRx : Nat
  deriving DecidableEq, Repr

/-- Read a TIME payload. -/
def timeOf (bs : List Nat) : TimeMsg :=
  let w := leAt bs 0 4
  { msg := bits w 0 4, origin := bits w 4 6, hops := bits w 10 6, seqId := bits w 16 16, wraps := leAt bs 4 4, tx := leAt bs 8 8
    corr := leAt bs 16 8, reqRx := leAt bs 24 8 }

/-- A TIME frame reaches a port and carries the message that the command names: its length and reserved fields are judged
(R273, R295, R306). A frame of another kind is not this event. -/
def timeFrame (s : State) (p : Nat) (f : Frame) (msg : Nat) (handle : TimeMsg → State → State) : State :=
  s.receiveFrame p 5 f fun s =>
    let m := timeOf f.payload
    if f.len ≠ 4 then s.violation p 3 5
    else if !([1, 2, 3].contains m.msg) then (if s.judgeReserved p then s.violation p 4 5 else s)
    else if m.msg ≠ msg then s
    else if s.judgeReserved p && (f.seq % 64 != 0 || (msg != 3 && m.reqRx != 0)) then s.violation p 4 5
    else handle m s

/-- A frame's receive stamp: TB and wraps at an instant in 1/32 cycles before the present one (R307). -/
def State.rxStamp (s : State) (ago32 : Nat) : Nat × Nat := s.tbAt32 (32 * s.cycle - ago32)

/-- Record a received frame in the ring of 64 (Table "TIME receive record", R310). -/
def State.timeRecord (s : State) (p : Nat) (f : Frame) (rx : Nat × Nat) : State :=
  let n := s.reg .TB_TRXIDX_NEXT
  let bs := bytesAt f.payload 0 32 ++ leBytes 8 rx.1 ++ leBytes 4 rx.2 ++ [p, s.reg .TB_STATE_STATE]
  ((s.setReg .TB_TRX_RECORD n (leNat bs)).setReg .TB_TRXIDX_NEXT 0 (n + 1)).bump .TB_TRXIDX_TOTAL

/-- A TIME frame's departure stamp, TB and its wraps: TB at the instant its NORMAL_FS slot begins at the connector, not before the
present one; the manual does not say how long the block, an express run or a resend holds it (R307). [DESIGN CHOICE, log 83] -/
def State.departStamp (s : State) (limit : Nat) : (Nat × Nat) × State :=
  let (d, s) := s.free limit
  let t := s.tb.tb + d
  ((t % 2 ^ 64, (s.reg .TB_EPOCH_COUNT + t / 2 ^ 64) % 2 ^ 32), s)

/-- Forward a SYNC to a port (R308): HOPS + 1, CORRECTION with the residence and the receiving port's link delay. -/
def State.forwardSync (s : State) (p q : Nat) (m : TimeMsg) (rx : Nat) : State :=
  if s.portUp q then
    let (tx, s) := s.departStamp (2 ^ 63)
    let corr := (m.corr + tx.1 + 2 ^ 64 - rx + s.reg .TB_PDELAY_DELAY p) % 2 ^ 64
    (s.sendPlain q 5 (timePayload 1 m.origin (m.hops + 1) m.seqId m.wraps m.tx corr 0)).bump .TB_CNT_TIME_SYNC_FWD
  else s.bump .TB_CNT_TIME2_DROPPED

/-- SYNC (R22, R308, R310 to R312): accepted and forwarded, a second master's, or recorded for discovery. -/
def sync (s : State) (p : Nat) (f : Frame) (ago32 : Nat) : State :=
  timeFrame s p f 1 fun m s =>
    let rx := s.rxStamp ago32
    if s.flag .TB_MASTER_SELF then
      if m.origin == s.reg .CHIP_SYSID_ID then s else s.violation p 7 5
    else if !s.flag .TB_MASTER_VALID then s.timeRecord p f rx
    else if m.origin ≠ s.reg .TB_MASTER_SYS then s.violation p 7 5
    else
      let s := s.timeRecord p f rx
      let s := (s.bump .TB_CNT_TIME_SYNC_RX).setReg .TB_STATE_STATE 0 2
      let s := (s.setReg .TB_STATE_SYNC_PORT 0 p).setReg .TB_STATE_SYNC_SEQ 0 m.seqId
      let s := { s with tb := { s.tb with syncAt := some s.cycle } }
      if m.hops < 63 then
        (List.range 16).foldl (fun s q =>
          if q != p && bitAt (s.reg .TB_FWD_MASK) q then s.forwardSync p q m rx.1 else s) s
      else s

/-- PDELAY_REQ (R309): answered on the same port, within 1,200 cycles, which are 65,536,000 TB units. -/
def pdelayReq (s : State) (p : Nat) (f : Frame) (ago32 : Nat) : State :=
  timeFrame s p f 2 fun m s =>
    let rx := s.rxStamp ago32
    let (tx, s) := s.departStamp 65536000
    (s.sendPlain p 5 (timePayload 3 (s.reg .CHIP_SYSID_ID) 0 m.seqId tx.2 tx.1 m.tx rx.1)).bump .TB_CNT_TIME2_RESP_SENT

/-- PDELAY_RESP (R310). -/
def pdelayResp (s : State) (p : Nat) (f : Frame) (ago32 : Nat) : State :=
  timeFrame s p f 3 fun _ s => s.timeRecord p f (s.rxStamp ago32)

/-! ### Following a master (R312) -/

/-- TB_MASTER (R312). -/
def tbMaster (s : State) (value : Nat) : State :=
  let s := (s.setReg .TB_MASTER_SELF 0 (bits value 0 1)).setReg .TB_MASTER_VALID 0 (bits value 1 1)
  let s := (s.setReg .TB_MASTER_SYS 0 (bits value 2 6)).setReg .TB_MASTER_TIMEOUT 0 (bits value 16 16)
  s.setReg .TB_STATE_STATE 0 (if bitAt value 0 then 1 else if bitAt value 1 then 3 else 0)

/-- HOLDOVER (R312): TIMEOUT ms less 1 % at the earliest after the last accepted SYNC. [DEDUCED, log 84] -/
def holdover (s : State) : State :=
  if s.reg .TB_STATE_STATE == 2
      && decide (s.tb.syncAt.getD 0 + max 1 (s.reg .TB_MASTER_TIMEOUT) * 1188000 ≤ s.cycle) then
    ((s.setReg .TB_STATE_STATE 0 3).bump .TB_CNT_MISC_HOLDOVERS).raise clsWarn .tb 0x0012
  else s

/-! ### Scheduled actions (R313 to R317) -/

/-- Disarm a slot. -/
def State.disarm (s : State) (n : Nat) : State :=
  let s := (s.setReg .TB_ACTCTL_ARM n 0).setReg .TB_ACTSTAT_ARMED n 0
  { s with tb := { s.tb with fireNext := s.tb.fireNext.filter fun x => x.1 != n } }

/-- PERIOD's lower limit (Status BAD_PERIOD). -/
def State.minPeriod (s : State) (n : Nat) : Nat :=
  max 873814 (match s.reg .TB_ACTCTL_KIND n with
    | 0 => (max 1 (s.reg .TB_ACTCTL_WIDTH n) + 2) * 54614
    | 2 => 65536000
    | _ => 0)

/-- The checks of a slot being armed, in the order of Table "Action statuses", and the signed distance to its target. [DEDUCED, log 85] -/
def State.armStatus (s : State) (n : Nat) : Nat :=
  let kind := s.reg .TB_ACTCTL_KIND n
  let msg := s.reg .TB_ACTCTL_MSG n
  let d := sdiff 64 (s.reg .TB_ACT_TIME n) s.tb.tb
  if (kind == 0 && decide (3 < s.reg .TB_ACTCTL_INDEX n)) || (kind == 2 && msg != 1 && msg != 2) then 0x1401
  else if kind == 2 && msg == 1 && !s.flag .TB_MASTER_SELF then 0x2401
  else if s.flag .TB_ACTCTL_PERIODIC n && decide (s.reg .TB_ACTP_PERIOD n < s.minPeriod n) then 0x2402
  else if d < 0 ∧ d ≤ -((s.reg .TB_LATE_WINDOW * 65536 : Nat) : Int) then 0x2403
  else 0

/-- A write of ARM = 1 (R313): armed, to fire late in the next cycle, or left disarmed with the status. -/
def State.armSlot (s : State) (n : Nat) : State :=
  let st := s.armStatus n
  let s := (s.disarm n).setReg .TB_ACTSTAT_STATUS n st
  if st ≠ 0 then s
  else
    let t := s.reg .TB_ACT_TIME n
    let s := ((s.setReg .TB_ACTCTL_ARM n 1).setReg .TB_ACTSTAT_ARMED n 1).setReg .TB_ACTNEXT_NEXT n t
    if sdiff 64 t s.tb.tb < 0 then { s with tb := { s.tb with fireNext := (n, s.cycle + 1) :: s.tb.fireNext } } else s

/-- A field other than ARM written while the slot is armed: the write is ignored (Status BUSY). -/
def State.slotBusy (s : State) (n : Nat) : State := s.setReg .TB_ACTSTAT_STATUS n 0x4401

/-- The fields of TB_ACTCTLn beside ARM, with place and width. -/
def actFields : List (Reg × Nat) :=
  [(.TB_ACTCTL_KIND, 1), (.TB_ACTCTL_PERIODIC, 3), (.TB_ACTCTL_INDEX, 4), (.TB_ACTCTL_WIDTH, 8), (.TB_ACTCTL_MSG, 24),
   (.TB_ACTCTL_PORTS, 32)]

/-- A masked write of TB_ACTCTLn (R313, R319). -/
def State.actCtlWrite (s : State) (n mask value : Nat) : State :=
  if s.flag .TB_ACTSTAT_ARMED n && actFields.any (fun (f : Reg × Nat) => bits mask f.2 f.1.width != 0) then s.slotBusy n
  else
    let s := actFields.foldl (fun (s : State) (f : Reg × Nat) =>
      s.setReg f.1 n (maskInto f.1.width (s.reg f.1 n) (bits mask f.2 f.1.width) (bits value f.2 f.1.width))) s
    if bitAt mask 0 then (if bitAt value 0 then s.armSlot n else s.disarm n) else s

/-- A masked write of TB_ACTn.TIME or TB_ACTPn.PERIOD (R313, R319). -/
def State.actTimeWrite (s : State) (r : Reg) (n mask value : Nat) : State :=
  if s.flag .TB_ACTSTAT_ARMED n then s.slotBusy n else s.setReg r n (maskInto 64 (s.reg r n) mask value)

/-- ACTION_ARM (R313): a write of the whole of TB_ACTCTLn with ARM = 1; on an armed slot only ARM itself may be written. [DEDUCED, log 85] -/
def actionArm (s : State) (n value : Nat) : State := s.actCtlWrite n (2 ^ 64 - 1) (setBits (value % 2 ^ 64) 0 1 1)

/-- ACTION_DISARM (R316). -/
def actionDisarm (s : State) (n : Nat) : State := s.disarm n

/-- A pulse on a pin begins at a time in 1/32 cycles (R316, R317): pulses on one pin are ORed. -/
def State.startPulse (s : State) (pin start32 width : Nat) : State :=
  let d : PulseDrive := { pin := pin, start32 := start32, end32 := start32 + 32 * width }
  let covered := s.tb.pulses.any fun x => x.pin == pin && decide (x.start32 ≤ start32) && decide (start32 ≤ x.end32)
  let s := { s with tb := { s.tb with pulses := s.tb.pulses ++ [d] } }
  if covered then s else s.emit (.pin 3 pin (b2n (!bitAt (s.reg .TB_PULSECFG_POLARITY) pin)) (start32 / 32))

/-- The time in 1/32 cycles, to the nearest, at which TB reads a value not before the present one (R317). -/
def State.timeOfTb (s : State) (t : Nat) : Nat :=
  let d : Int := sdiff 64 t s.tb.tb * (2 ^ 32 : Nat) - (s.tb.frac : Nat)
  (((32 * s.cycle : Nat) : Int) + roundDiv (d * 32) (s.reg .TB_INC_INC)).toNat

/-- The frames of a SEND_TIME action (R307, R316). -/
def State.sendTimes (s : State) (n : Nat) : State :=
  (List.range 16).foldl (fun s p =>
    if !bitAt (s.reg .TB_ACTCTL_PORTS n) p then s
    else if !s.portUp p then s.bump .TB_CNT_TIME2_DROPPED
    else
      let (q, s) := s.free 65536
      let (tx, s) := s.departStamp (2 ^ 63)
      s.sendPlain p 5 (timePayload (s.reg .TB_ACTCTL_MSG n) (s.reg .CHIP_SYSID_ID) 0 q tx.2 tx.1 0 0)) s

/-- A firing slot's action (Table "Action kinds"). -/
def State.act (s : State) (n target : Nat) (late : Bool) : State :=
  let i := s.reg .TB_ACTCTL_INDEX n
  match s.reg .TB_ACTCTL_KIND n with
  | 0 => s.startPulse i (s.timeOfTb (((if late then s.tb.tb else target) + 524288) % 2 ^ 64)) (max 1 (s.reg .TB_ACTCTL_WIDTH n))
  | 1 =>
    if s.spb.pulses.any (fun p => p.term == 1064 + i && p.cyc == s.cycle + 1) then s
    else s.addPulse { term := 1064 + i, cyc := s.cycle + 1 }
  | 2 => s.sendTimes n
  | _ => s.raise clsInfo .tb 0x0013 0xFFFF [n, target, (sdiff 64 s.tb.tb target).toNat]

/-- An armed slot's target has come: TB has reached it, and a late arming's cycle has passed (R313, R314). -/
def State.slotDue (s : State) (n : Nat) : Bool :=
  s.flag .TB_ACTSTAT_ARMED n && decide (0 ≤ sdiff 64 s.tb.tb (s.reg .TB_ACTNEXT_NEXT n))
    && !s.tb.fireNext.any fun x => x.1 == n && decide (s.cycle < x.2)

/-- A slot fires if it is due (R313 to R317). [DEDUCED, log 85] -/
def State.fireSlot (s : State) (n : Nat) : State :=
  let t := s.reg .TB_ACTNEXT_NEXT n
  let d := sdiff 64 s.tb.tb t
  if !s.slotDue n then s
  else
    let within := s.tb.fireNext.any fun x => x.1 == n
    let stepped := !within && s.tb.stepAt.any fun x => x.1 == s.cycle && decide (sdiff 64 x.2 t < 0)
    let late := within || stepped || decide (((s.reg .TB_INC_INC : Nat) : Int) ≤ d * (2 ^ 32 : Nat))
    let s := { s with tb := { s.tb with fireNext := s.tb.fireNext.filter fun x => x.1 != n } }
    let s := ((s.setFlag .TB_ACTSTAT_LATE n late).setFlag .TB_ACTSTAT_STEPPED n stepped).bump .TB_ACTSTAT_FIRES n
    let s := if late then s.setReg .TB_ACTLATE_LATENESS n (satN 48 d.toNat) else s
    let s := s.act n t late
    if s.flag .TB_ACTCTL_PERIODIC n then
      let k := d.toNat / max 1 (s.reg .TB_ACTP_PERIOD n) + 1
      (s.setReg .TB_ACTNEXT_NEXT n (t + k * s.reg .TB_ACTP_PERIOD n)).setReg .TB_ACTLATE_SKIPPED n (satN 16 (k - 1))
    else (s.setReg .TB_ACTLATE_SKIPPED n 0).disarm n

/-- ACTION_FIRE (R316): an armed slot whose target TB has reached; lower slots due in the same cycle act before it. [DEDUCED, log 85] -/
def actionFire (s : State) (n : Nat) : State :=
  if s.slotDue n then (List.range (n + 1)).foldl State.fireSlot s else s

/-- PULSE_END (R317): pulses whose WIDTH has passed end; the pin returns inactive when none is left on it. -/
def pulseEnd (s : State) (pin : Nat) : State :=
  let isOver := fun (x : PulseDrive) => x.pin == pin && decide (x.end32 ≤ 32 * s.cycle)
  let done := s.tb.pulses.filter isOver
  let s := { s with tb := { s.tb with pulses := s.tb.pulses.filter fun x => !isOver x } }
  if done.isEmpty || s.tb.pulses.any (fun x => x.pin == pin && decide (x.start32 ≤ 32 * s.cycle)) then s
  else
    let at_ := (done.map (fun (x : PulseDrive) => x.end32)).foldl max 0
    s.emit (.pin 3 pin (b2n (bitAt (s.reg .TB_PULSECFG_POLARITY) pin)) (at_ / 32))

/-- TB_REF_LOST_CLEAR (R318). -/
def tbRefLostClear (s : State) : State := s.setReg .TB_STATE_REF_LOST 0 0

/-- TRIG_EDGE (R239). -/
def execTrigEdge (line : Fin 8) (edge : Nat) (s : State) : Answer := awake s (trigEdge s line.val edge)
/-- TB_INC (R300). -/
def execTbInc (value : Nat) (s : State) : Answer := awake s (tbInc s value)
/-- REFCLK_LOSS (R300). -/
def execRefclkLoss (s : State) : Answer := awake s (refclkLoss s)
/-- STEP_ADD (R301). -/
def execStepAdd (s : State) : Answer := awake s (stepAdd s)
/-- STEP_SET_PPS (R301). -/
def execStepSetPps (s : State) : Answer := awake s (stepSetPps s)
/-- PPS_EDGE (R304). -/
def execPpsEdge (ago32 : Nat) (s : State) : Answer := awake s (ppsEdge s ago32)
/-- PPS_LOSS (R304). -/
def execPpsLoss (s : State) : Answer := awake s (ppsLoss s)
/-- SOFT (R304). -/
def execSoft (s : State) : Answer := awake s (soft s)
/-- SYNC (R311). -/
def execSync (port : Fin 16) (f : Frame) (ago32 : Nat) (s : State) : Answer := awake s (sync s port.val f ago32)
/-- PDELAY_REQ (R309). -/
def execPdelayReq (port : Fin 16) (f : Frame) (ago32 : Nat) (s : State) : Answer := awake s (pdelayReq s port.val f ago32)
/-- PDELAY_RESP (R310). -/
def execPdelayResp (port : Fin 16) (f : Frame) (ago32 : Nat) (s : State) : Answer := awake s (pdelayResp s port.val f ago32)
/-- TB_MASTER (R312). -/
def execTbMaster (value : Nat) (s : State) : Answer := awake s (tbMaster s value)
/-- HOLDOVER (R312). -/
def execHoldover (s : State) : Answer := awake s (holdover s)
/-- ACTION_ARM (R313). -/
def execActionArm (slot : Fin 128) (value : Nat) (s : State) : Answer := awake s (actionArm s slot.val value)
/-- ACTION_DISARM (R316). -/
def execActionDisarm (slot : Fin 128) (s : State) : Answer := awake s (actionDisarm s slot.val)
/-- ACTION_FIRE (R314). -/
def execActionFire (slot : Fin 128) (s : State) : Answer := awake s (actionFire s slot.val)
/-- PULSE_END (R317). -/
def execPulseEnd (pin : Fin 4) (s : State) : Answer := awake s (pulseEnd s pin.val)
/-- TB_REF_LOST_CLEAR (R318). -/
def execTbRefLostClear (s : State) : Answer := awake s (tbRefLostClear s)

end Sys2Proof.Machine
end

