-- ==== Sys2Proof/Machine/Writes.lean ====
section
/-! DEFINITION. Masked writes of register words (R5, R6, R7, R32, R340): a staged field waits for the next commit, a field that
takes effect immediately does what its chapter states, write-one and write-only fields act. -/
namespace Sys2Proof.Machine
open Sys2Proof

/-- CHIP_SYSID (R21, R40): refused while a peer port is neither DARK nor disabled. -/
def chipSysid (s : State) (value : Nat) : State :=
  let busy := (List.range 16).any fun p =>
    s.reg .OPX_PCTRL_ROLE p == 1 && s.portSt p != 0 && s.portSt p != 4
  if busy then s else s.setReg .CHIP_SYSID_ID 0 value

/-- Acknowledge ALARM records (R437): a count above TOTAL acts as TOTAL, one below ACK is ignored. -/
def State.alarmAck (s : State) (value : Nat) : State :=
  let v := min value (s.logs.total.getD 0 0)
  if v < s.reg .LOG_ALARM_ACK then s else s.setReg .LOG_ALARM_ACK 0 v

/-- Part of a masked write: a field, its instance, the place in the field, mask bits and value bits. -/
abbrev WritePart := Piece × Nat × Nat

/-- The mask and the value of a write over a whole register, of the parts that fall on some of its fields. -/
def groupMask (xs : List WritePart) (rs : List Reg) (inst : Nat) : Nat × Nat :=
  (xs.filter fun x => rs.contains x.1.reg && x.1.inst == inst).foldl (fun (a : Nat × Nat) x =>
    let at_ := 2 ^ (x.1.reg.info.lo + x.1.flo)
    (a.1 + x.2.1 * at_, a.2 + x.2.2 * at_)) (0, 0)

/-- Fields of OPX_LCTRLl (R296, R297). -/
def lctrlFields : List Reg :=
  [.OPX_LCTRL_PATTERN, .OPX_LCTRL_CHECK, .OPX_LCTRL_LOOP, .OPX_LCTRL_INJ, .OPX_LCTRL_DFE_FREEZE, .OPX_LCTRL_INJ_INTERVAL]

/-- Fields of TB_MASTER. -/
def masterFields : List Reg := [.TB_MASTER_SELF, .TB_MASTER_VALID, .TB_MASTER_SYS, .TB_MASTER_TIMEOUT]

/-- Fields of TB_ACTCTLn. -/
def actCtlFields : List Reg := .TB_ACTCTL_ARM :: actFields.map (·.1)

/-- Registers whose fields are written together: each with its fields and what a masked write of it does. [DEDUCED, log 19] -/
def wholeWrites : List (List Reg × ((inst mask value : Nat) → State → State)) :=
  [(lctrlFields, fun i m v s => opxLctrl s (i / 8) (i % 8) m v),
   (masterFields, fun _ m v s =>
      let old := s.reg .TB_MASTER_SELF + s.reg .TB_MASTER_VALID * 2 + s.reg .TB_MASTER_SYS * 4 + s.reg .TB_MASTER_TIMEOUT * 65536
      tbMaster s (maskInto 32 old m v)),
   (actCtlFields, fun i m v s => s.actCtlWrite i m v)]

/-- A write of one to a W1C field, or to a WO field, acts (R5). [DEDUCED, log 18, 19] -/
def State.writeOne (s : State) (r : Reg) (i value : Nat) : State :=
  match r with
  | .SPB_FORCE_TERM => spbForce s value
  | .SPB_GCMD_ARM => if value == 1 then arm s i else s
  | .SPB_GCMD_STOP => if value == 1 then stop s i else s
  | .TB_STEPCTL_GO => if value == 0 then s else if s.flag .TB_STEPCTL_MODE then stepSetPps s else stepAdd s
  | .TB_CAPCTL_SOFT => if value == 1 then soft s else s
  | .THM_PEAK_TJ => if bitAt value 0 then s.setReg .THM_PEAK_TJ 0 0 else s
  | r => if value == 1 then s.setReg r i 0 else s

/-- A new value of a field that takes effect immediately. -/
def State.writeNow (s : State) (r : Reg) (i value mask : Nat) : State :=
  match r with
  | .CHIP_SYSID_ID => chipSysid s value
  | .CND_TBL_LO_DATA => cndTblLo s value
  | .CND_TBL_HI_DATA => cndTblHi s value
  | .SPB_ENV_LO_DATA => spbEnvLo s value
  | .SPB_ENV_HI_DATA => spbEnvHi s value
  | .SPB_SEG_RD => segmentRelease s value
  | .NSL_CTRL_SIG_REQUIRED => if s.flag .NSL_CTRL_SIG_REQUIRED then s else s.setReg .NSL_CTRL_SIG_REQUIRED 0 value
  | .OPX_PCTRL_EN => opxPctrlEn s i (value == 1)
  | .OPX_PCTRL_DEEP => deep s i (value == 1)
  | .TB_INC_INC => tbInc s value
  | .TB_ACT_TIME => s.actTimeWrite .TB_ACT_TIME i mask value
  | .TB_ACTP_PERIOD => s.actTimeWrite .TB_ACTP_PERIOD i mask value
  | .LOG_ALARM_ACK => s.alarmAck value
  | r => s.setReg r i value

/-- The value that a masked write of a field starts from: what is staged for a staged field; the staged copy of an indirect table,
whichever copy COPY shows; else the value in force. -/
def State.writeBase (s : State) (r : Reg) (i : Nat) : Nat :=
  match r with
  | .CND_TBL_LO_DATA => (tblEntry s.cond.staged (s.reg .CND_TBL_INDEX_INDEX)).1
  | .CND_TBL_HI_DATA => (tblEntry s.cond.staged (s.reg .CND_TBL_INDEX_INDEX)).2
  | .SPB_ENV_LO_DATA => (s.spb.envStaged.getD (s.reg .SPB_ENV_INDEX_INDEX) (0, 0)).1
  | .SPB_ENV_HI_DATA => (s.spb.envStaged.getD (s.reg .SPB_ENV_INDEX_INDEX) (0, 0)).2
  | r => if r.info.imm then s.reg r i else s.stagedReg r i

/-- The part of a masked write that falls on one field. -/
def State.writePart (s : State) (x : WritePart) : State :=
  let r := x.1.reg
  let i := x.1.inst
  match r.info.acc with
  | .ro | .rs => s
  | .w1c | .wo => s.writeOne r i (x.2.1 &&& x.2.2)
  | .rw =>
    let v := pieceNew (s.writeBase r i) x
    if r.info.imm then s.writeNow r i v (x.2.1 * 2 ^ x.1.flo) else s.stageReg r i v

/-- A masked write of a 64-bit register word (R6, R7, R340): fields in ascending place, those that act last. [DEDUCED, log 18] -/
def State.writeReg (s : State) (a mask value : Nat) : State :=
  let xs := maskedPieces a mask value
  let s := wholeWrites.foldl (fun (s : State) (g : List Reg × (Nat → Nat → Nat → State → State)) =>
    match xs.find? (fun x => g.1.contains x.1.reg) with
    | some x => let mv := groupMask xs g.1 x.1.inst; g.2 x.1.inst mv.1 mv.2 s
    | none => s) s
  let rest := xs.filter fun x => !wholeWrites.any fun g => g.1.contains x.1.reg
  let acts := fun (x : WritePart) => x.1.reg.info.acc == .wo || x.1.reg.info.acc == .w1c
  let s := (rest.filter fun x => !acts x).foldl State.writePart s
  (rest.filter acts).foldl State.writePart s

/-- A unit address is in a region manager's or a steward's ownership set, or in a control core's (Table "Ownership sets"). -/
def unitOwned (master u : Nat) : Bool :=
  if master < 2 then true
  else if decide (8 ≤ master) && decide (master < 16) then UnitAddr.region u == master - 8
  else decide (0x10000 ≤ master) && UnitAddr.steward u == master - 0x10000

/-- A register word of a network slot with units in a region. -/
def State.slotOwned (s : State) (r a : Nat) : Bool :=
  (List.range 16).any fun k =>
    bitAt (s.reg .NSL_REGIONS_MASK k) r && (regPieces a).any fun p => p.reg.info.n1 == 16 && p.inst == k && decide (0x60400000 ≤ a) && decide (a < 0x60500000)

/-- An address is in the ownership set of a master that writes registers (Table "Ownership sets"); no set holds a reserved address
(R29). Memory-stack ranges granted by firmware are not in the model. [DEDUCED, log 100] -/
def State.owned (s : State) (master a : Nat) : Bool :=
  match addrKind a with
  | .sram st _ => unitOwned master st
  | .unit u off => unitOwned master u && (if off < 0x14000 then UnitAddr.isFawn u else isRegWord a)
  | .block => isRegWord a && !secKey a && (if master < 2 then true else decide (8 ≤ master) && decide (master < 16) && s.slotOwned (master - 8) a)
  | .control core => core == master
  | .stack => decide (master < 2)
  | .reserved => false

/-- What a frozen master keeps for inspection: a control core its program counter and registers (R30, R443). -/
def State.keptOf (s : State) (master : Nat) : List Nat :=
  if master < 2 then (s.ctl.getD master {}).pc :: (s.ctl.getD master {}).regs else []

/-- The mask of another master's write of a register word, without the bits that a POKE has written in this cycle: the POKE
applies last (R442). [DEDUCED, log 92] -/
def State.unpoked (s : State) (a mask : Nat) : Nat :=
  s.logs.pokes.foldl (fun m (e : Nat × Nat) =>
    if decide (s.logs.pokedAt = s.cycle) && e.1 == a then m &&& (2 ^ 64 - 1 - e.2 % 2 ^ 64) else m) mask

/-- A register word that POKE has written in this cycle. -/
def State.poked (s : State) (a mask : Nat) : State :=
  let old := if s.logs.pokedAt = s.cycle then s.logs.pokes else []
  { s with logs := { s.logs with pokes := old ++ [(a, mask)], pokedAt := s.cycle } }

/-- REGISTER_WRITE (R6, R7, R29, R30, R32) by a control core, a region manager (8 to 15) or a steward (0x10000 and its address): an
address outside its ownership set freezes it and is not written; RO and RS fields ignore the write, which is counted (R5).
[DEDUCED, log 18, 100] -/
def registerWrite (s : State) (master a mask value : Nat) : State :=
  let a := a / 8 * 8
  if s.isFrozen master then s
  else if !s.owned master a then s.freeze master a (s.keptOf master)
  else (if maskRo a mask then s.bump .HST_CNT_ACCESS_WRITE_RO else s).writeReg a (s.unpoked a mask) value

/-- REGISTER_WRITE (R6). -/
def execRegisterWrite (addr mask value : Nat) (s : State) (master : Nat := 0) : Answer := awake s (registerWrite s master addr mask value)
/-- CHIP_SYSID (R21). -/
def execChipSysid (value : Nat) (s : State) : Answer := awake s (chipSysid s value)
/-- LOG_ALARM (R437). -/
def execLogAlarm (value : Nat) (s : State) : Answer := awake s (s.alarmAck value)
/-- THM_PEAK_CLEAR (R429). -/
def execThmPeakClear (s : State) : Answer := awake s (s.writeOne .THM_PEAK_TJ 0 1)
/-- BOOT_REVERTED_CLEAR (R362). -/
def execBootRevertedClear (s : State) : Answer := awake s (s.writeOne .BOOT_FWSTAT_REVERTED 0 1)

end Sys2Proof.Machine
end

