-- ==== Sys2Proof/Machine/Window.lean ====
section
/-! DEFINITION. The host window (R325 to R330, R348, R430, R431, R435): its regions, what they hold, and what a host's write to them
does. -/
namespace Sys2Proof.Machine
open Sys2Proof

/-! ### Log rings (R430, R431, R435) -/

/-- Window address of a class's ring (Table "Log classes"). -/
def ringBase (c : Nat) : Nat := nth 0 [0x100000, 0x110000, 0x210000, 0x410000, 0x810000] c

/-- Entries of a class's ring. -/
def ringLen (c : Nat) : Nat := nth 1 [256, 16384, 32768, 65536, 130048] c

/-- The ring index page (R431): five entries, then the host-writable word of R437, which reads the count in force. -/
def State.indexPage (s : State) : List Nat :=
  ((List.range 5).map fun c =>
    let t := s.logs.total.getD c 0
    leBytes 4 (t % ringLen c) ++ leBytes 4 0 ++ leBytes 8 t ++ leBytes 8 (if c == 0 then s.logs.alarmLost else 0)
      ++ leBytes 8 0).foldr (· ++ ·) [] ++ leBytes 8 (s.reg .LOG_ALARM_ACK)

/-- The counter page (R435). -/
def State.counterPage (s : State) : List Nat :=
  ((List.range 85).map fun i =>
    leBytes 8 (s.logs.raised.getD (i / 17, i % 17) 0) ++ leBytes 8 (s.logs.suppressed.getD (i / 17, i % 17) 0)).foldr (· ++ ·) []

/-! ### The identity block (R348) -/

/-- The STRAPS byte. -/
def State.straps (s : State) : Nat := s.boot.bootSrc % 4 + b2n s.boot.devMode * 4

/-- KEM_FP (SEC_KEMFPk). -/
def State.kemFp (s : State) : List Nat := ((List.range 4).map fun k => leBytes 8 (s.reg .SEC_KEMFP_VALUE k)).foldr (· ++ ·) []

/-- The identity block (Table "Identity block"). -/
def State.identityBlock (s : State) : List Nat :=
  leBytes 4 (s.reg .CHIP_ID_PART) ++ [s.reg .CHIP_STEP_STEP, s.reg .CHIP_STEP_ARITH] ++ leBytes 2 (s.reg .BOOT_STATE_STATE)
    ++ leBytes 4 (s.reg .BOOT_STATE_ROM_VERSION) ++ [s.straps, s.reg .SEC_STATUS_PUF_STATE]
    ++ leBytes 2 (s.reg .BOOT_STATE_LAST_STATUS) ++ s.idFp ++ s.kemFp ++ leBytes 4 (s.reg .BOOT_FWVER_VERSION)
    ++ leBytes 4 (s.reg .BOOT_FWVER_ID) ++ List.replicate 40 0 ++ bytesAt s.boot.falconPk 0 1793 ++ List.replicate 7 0
    ++ bytesAt s.boot.kemPk 0 1568 ++ List.replicate 600 0

/-! ### Snapshot pages (R37, R328) -/

/-- A 64-bit word of registers as the served capture holds it. -/
def State.snapWord (s : State) (a : Nat) : Nat :=
  (regPieces a).foldl (fun v p =>
    v + (if p.reg.info.acc == .wo then 0 else bits (s.snapField p.reg p.inst) p.flo p.w) * 2 ^ p.wlo) 0

/-- The capture word of the served buffer. -/
def State.captureWord (s : State) : Nat := s.snap.seq % 2 ^ 48 + s.snap.epoch % 65536 * 2 ^ 48

/-- The directory's bytes (Table "Snapshot directory entry"). [DESIGN CHOICE, log 37] -/
def snapDirBytes (d : List (Nat × Nat × Nat)) : List Nat :=
  (d.map fun e => leBytes 8 (e.1 % 2 ^ 40) ++ leBytes 2 e.2.1 ++ leBytes 2 e.2.2 ++ leBytes 4 0).foldr (· ++ ·) []

/-- Data byte `i` of a snapshot page. [DESIGN CHOICE, log 37] -/
def State.snapData (s : State) (page i : Nat) : Nat :=
  if page == 0 then nth 0 (snapDirBytes (s.host.snapDir.takeWhile (fun e => e.2.1 != 0))) i
  else match (s.host.snapDir.takeWhile (fun e => e.2.1 != 0)).find? (fun e => e.2.1 == page) with
    | some e => if i < e.2.2 then s.snapWord ((e.1 + i) / 8 * 8) / 256 ^ ((e.1 + i) % 8) % 256 else 0
    | none => 0

/-- Byte `o` of a snapshot page: capture words at both ends, data between. -/
def State.snapByte (s : State) (page o : Nat) : Nat :=
  if o < 8 || 0xFF8 ≤ o then s.captureWord / 256 ^ (o % 8) % 256 else s.snapData page (o - 8)

/-! ### Regions (Tables "Window map" and "Boot region") -/

/-- What a window address reaches. -/
inductive WinRegion where
  | identity | bootSlot | bootReply | helper | half | cmd | reply | snap | ring | index | counters | stage | reserved
  deriving DecidableEq, Repr

/-- The region of a window address. -/
def winRegion (a : Nat) : WinRegion :=
  if a < 0x1000 then .identity
  else if a < 0x1100 then .bootSlot
  else if a < 0x1200 then .bootReply
  else if a < 0x2000 then .reserved
  else if a < 0x4000 then .helper
  else if a < 0x8000 then .reserved
  else if a < 0x10000 then .half
  else if a < 0x14000 then .cmd
  else if a < 0x18000 then .reply
  else if a < 0x20000 then .reserved
  else if a < 0x100000 then .snap
  else if a < 0x104000 then .ring
  else if a < 0x105000 then .index
  else if a < 0x106000 then .counters
  else if a < 0x110000 then .reserved
  else if a < 0x1000000 then .ring
  else if a < 0x10000000 then .reserved
  else if a < 0x20000000 then .stage
  else .reserved

/-- Firmware runs (Table "Boot states"). -/
def State.fwRunning (s : State) : Bool := s.reg .BOOT_STATE_STATE == 5

/-- A staging page's state; none when ABSENT (R329). -/
def State.pageSt (s : State) (page : Nat) : Option PageState := s.host.pages.get? page

/-- A page that the host reaches: RESIDENT or DIRTY (R329). -/
def State.pageHeld (s : State) (page : Nat) : Bool := s.pageSt page == some .resident || s.pageSt page == some .dirty

/-- Bytes of a window region at an address. [DESIGN CHOICE, log 37] -/
def State.winBytes (s : State) (a n : Nat) : List Nat :=
  match winRegion a with
  | .identity => bytesAt s.identityBlock a n
  | .helper => if s.fwRunning then List.replicate n 0 else s.winRd a n
  | .snap => (List.range n).map fun k => s.snapByte ((a - 0x20000 + k) / 4096) ((a - 0x20000 + k) % 4096)
  | .index => bytesAt s.indexPage (a - 0x104000) n
  | .counters => bytesAt s.counterPage (a - 0x105000) n
  | .stage => (List.range n).map fun k => s.frameByte (a - 0x10000000 + k)
  | .reserved => List.replicate n 0
  | _ => s.winRd a n

/-! ### Violations (R325, R326) -/

/-- Codes of Table "Return-pattern codes". -/
def patReserved : Nat := 1
/-- NOT_STAGED. -/
def patNotStaged : Nat := 2
/-- TIMING. -/
def patTiming : Nat := 3
/-- NO_ROW. -/
def patNoRow : Nat := 4
/-- WCK. -/
def patWck : Nat := 5
/-- FROZEN. -/
def patFrozen : Nat := 6

/-- Count a violation and note it in HST_LAST_VIOL; code 0 for one without a pattern (R325). [DEDUCED, log 34] -/
def State.hostViol (s : State) (r : Reg) (code ch a : Nat) : State :=
  (((s.bump r).setReg .HST_LAST_VIOL_CODE 0 code).setReg .HST_LAST_VIOL_CH 0 ch).setReg .HST_LAST_VIOL_ADDR 0 a

/-- One 64-bit word of a return pattern (R326). -/
def patternWord (code a : Nat) : Nat := 0x5AD5 * 2 ^ 48 + code * 2 ^ 40 + a % 2 ^ 32

/-- The words of a burst that a return pattern fills. -/
def patternWords (code a n : Nat) : List Nat := (List.range (n / 8)).map fun k => patternWord code (a + 8 * k)

/-- The words of a byte string. -/
def dqWords (bs : List Nat) : List Nat := (List.range (bs.length / 8)).map fun k => leAt bs (8 * k) 8

/-- A read of `n` bytes of the window: its words (R322, R325); a unit that the device writes in the same cycle reads as it was
before (R337). -/
def State.winRead (s : State) (ch a n : Nat) : List Nat × State :=
  let reg := winRegion a
  if reg == .reserved then (patternWords patReserved a n, s.hostViol .HST_CNT_ACCESS_RESERVED patReserved ch a)
  else if (reg == .snap || reg == .stage) && s.isFrozen 16 then
    (patternWords patFrozen a n, s.hostViol .HST_CNT_ACCESS_RESERVED patFrozen ch a)
  else if reg == .stage && !s.pageHeld ((a - 0x10000000) / 4096) then
    (patternWords patNotStaged a n, s.hostViol .HST_CNT_STAGE_MISS patNotStaged ch a)
  else
    let bs := s.winBytes a n
    (dqWords ((List.range n).map fun k => (s.beforeDevice (a + k)).getD (nth 0 bs k)), s)

/-- The bytes of a masked write with their addresses. -/
def maskedBytes (a mask : Nat) : List Nat → List (Nat × Nat)
  | [] => []
  | b :: bs => (if mask % 2 == 1 then [(a, b % 256)] else []) ++ maskedBytes (a + 1) (mask / 2) bs

/-- Store masked bytes in the window's SRAM. -/
def State.winPut (s : State) (xs : List (Nat × Nat)) : State := xs.foldl (fun s x => s.winWr x.1 [x.2]) s

/-- A write of bytes to the window (R325, R327, R329, R348, R437); bit k of the mask lets byte k be written. What the device writes
to a cached page in the same cycle stands over it (R337). -/
def State.winWrite (s : State) (ch a mask : Nat) (bs : List Nat) : State :=
  let xs := maskedBytes a mask bs
  let ro := s.hostViol .HST_CNT_ACCESS_WRITE_RO 0 ch a
  match winRegion a with
  | .reserved => s.hostViol .HST_CNT_ACCESS_RESERVED patReserved ch a
  | .bootSlot | .helper | .half => if s.fwRunning then ro else s.winPut xs
  | .cmd => s.winPut xs
  | .stage =>
    let page := (a - 0x10000000) / 4096
    if s.isFrozen 16 then s.hostViol .HST_CNT_ACCESS_RESERVED patFrozen ch a
    else if !s.pageHeld page then s.hostViol .HST_CNT_STAGE_WRITE_DROP patNotStaged ch a
    else
      let stage := (xs.filter fun x => (s.beforeDevice x.1).isNone).foldl
        (fun (m : KMap Nat (BitVec 8)) (x : Nat × Nat) => m.put (x.1 - 0x10000000) (BitVec.ofNat 8 x.2)) s.host.stage
      { s with host := { s.host with stage := stage, pages := s.host.pages.put page .dirty } }
  | .snap => if s.isFrozen 16 then s.hostViol .HST_CNT_ACCESS_RESERVED patFrozen ch a else ro
  | .index =>
    let word := xs.filter fun x => decide (0x1040A0 ≤ x.1) && decide (x.1 < 0x1040A8)
    if word.isEmpty then ro
    else s.alarmAck (word.foldl (fun v x => setBits v (8 * (x.1 - 0x1040A0)) 8 x.2) (s.reg .LOG_ALARM_ACK))
  | _ => ro

end Sys2Proof.Machine
end

