-- ==== Sys2Proof/Machine/HostPort.lean ====
section
/-! DEFINITION. Command slots, the register commands, THAW, ACT_ARM, memory movers and the staging cache (R31, R182, R329 to R343). -/
namespace Sys2Proof.Machine
open Sys2Proof

/-! ### Scanning the slots (R333 to R336) -/

/-- Queue a packet that has passed its checks: what control core 1 handles goes to it by its mailbox, MOVE and staging commands wait
for a mover, and all but these and the loader's run in the order taken (R24, R194, R336). -/
def State.enqueue (s : State) (p : Packet) : State :=
  let op := p.opcode % 4096
  let s := { s with host := { s.host with busy := s.host.busy.put p.slot p } }
  let s := if coreOneOpcode op && p.slot != 64 then { s with ctl := s.ctl.upd 1 {} (fun c => { c with mbox := c.mbox ++ [p.slot] }) }
    else s
  if p.slot == 64 || loaderOpcode op then s
  else if moverOpcode op then { s with host := { s.host with moverQ := s.host.moverQ ++ [p.slot] } }
  else { s with host := { s.host with cmdQ := s.host.cmdQ ++ [p.slot] } }

/-- Take a packet (R333, R335): its SEQ is kept, and it is answered at once when a check fails. -/
def State.takePacket (s : State) (p : Packet) : State :=
  let s := { s with host := { s.host with lastSeq := s.host.lastSeq.put p.slot p.seq, crcFails := s.host.crcFails.del p.slot } }
  let s := s.bump .HST_CNT_CMD_TAKEN
  match packetCheck p with
  | some st => s.reply p st
  | none => s.enqueue p

/-- A slot whose CRC fails: its third scan in a row with one SEQ is answered with CRC (R334). -/
def State.crcFail (s : State) (p : Packet) : State :=
  let n := match s.host.crcFails.get? p.slot with | some (q, k) => if q == p.seq then min 4 (k + 1) else 1 | none => 1
  let s := { s with host := { s.host with crcFails := s.host.crcFails.put p.slot (p.seq, n) } }
  if n == 3 then (s.bump .HST_CNT_CMD2_CRC_BAD).replyRaw p.slot p.seq p.opcode p.tag Status.crc.val [] else s

/-- Core 1's mailbox has no entry free for a command that it would have to take (R24). -/
def State.mailboxFull (s : State) (op : Nat) : Bool := coreOneOpcode op && decide (64 ≤ (s.ctl.getD 1 {}).mbox.length)

/-- Examine one slot (R333); a command for core 1 waits while its mailbox is full (R24). [DEDUCED, log 30] -/
def State.scanSlot (s : State) (hs : Nat) : State :=
  let s := { s with host := { s.host with scanAt := hs } }
  if (s.host.busy.get? hs).isSome then s
  else
    let bs := s.winRd (cmdSlot hs) 256
    let p := packetOf hs s.cycle bs
    if leAt bs 252 4 ≠ 2 ^ 32 - 1 - p.seq then { s with host := { s.host with crcFails := s.host.crcFails.del hs } }
    else if leAt bs 248 4 ≠ crc32c (bytesAt bs 0 248) then s.crcFail p
    else if s.host.lastSeq.get? hs == some p.seq then { s with host := { s.host with crcFails := s.host.crcFails.del hs } }
    else if s.mailboxFull (p.opcode % 4096) then s
    else s.takePacket p

/-- SLOT_SCAN (R333, R348): firmware scans the 64 command slots; before it runs the ROM scans the boot slot, but not in SERIAL
boot. A frozen control core 0 scans nothing. [DEDUCED, log 30] -/
def slotScan (s : State) : State :=
  if s.isFrozen 0 then s
  else if s.fwRunning then (List.range 64).foldl State.scanSlot s
  else if s.boot.bootSrc != 0 then s
  else s.scanSlot 64

/-! ### Register commands (R340) -/

/-- REG_READ. [DEDUCED, log 30] -/
def State.regReadCmd (s : State) (p : Packet) : State :=
  let a := pU64 p 0
  let as := (List.range (pU8 p 8)).map fun i => a + 8 * i
  if a % 8 ≠ 0 then s.reply p .field
  else if as.any (fun x => secKey x || !isRegWord x) then s.reply p .ownership
  else s.reply p .ok (leBytes 8 s.captureWord ++ as.flatMap fun x => leBytes 8 (s.wordRead x))

/-- The entries of a REG_WRITE: address, mask, value. [DESIGN CHOICE, log 31] -/
def regEntries (p : Packet) : List (Nat × Nat × Nat) :=
  (List.range (pU8 p 0)).map fun i => (pU64 p (8 + 24 * i), pU64 p (16 + 24 * i), pU64 p (24 + 24 * i))

/-- The status of the first check that an entry fails. [DEDUCED, log 38] -/
def entryCheck (e : Nat × Nat × Nat) : Option Status :=
  if e.1 % 8 ≠ 0 then some .field
  else if secKey e.1 || !isRegWord e.1 then some .ownership
  else if maskRo e.1 e.2.1 then some .regRo
  else none

/-- REG_WRITE: every entry is checked before any is applied. [DEDUCED, log 38] -/
def State.regWriteCmd (s : State) (p : Packet) : State :=
  let es := regEntries p
  match es.filterMap entryCheck with
  | st :: _ => (if st == .regRo then s.bump .HST_CNT_ACCESS_WRITE_RO else s).reply p st
  | [] => (es.foldl (fun (s : State) (e : Nat × Nat × Nat) => s.writeReg e.1 (s.unpoked e.1 e.2.1) e.2.2) s).reply p .ok

/-! ### THAW (R23, R31, R185) -/

/-- Thaw a master: a fawn core is left stopped with RUN 0 in both copies (R185). -/
def State.thawMaster (s : State) (m : Nat) : Option State :=
  match s.unfreeze m with
  | none => none
  | some s =>
    if m < 0x10000 || !UnitAddr.isFawn (m - 0x10000) then some s
    else
      let u := m - 0x10000
      let s := { s with cores := s.cores.map fun (e : Nat × FawnCore) => if e.1 == u then (e.1, { e.2 with st := .stopped }) else e }
      let s := s.setReg .FAB_FC_CTRL_RUN u 0
      some (if (s.staged.get? (.FAB_FC_CTRL_RUN, u)).isSome then s.stageReg .FAB_FC_CTRL_RUN u 0 else s)

/-- The master that THAW's parameter names, or the status that refuses it: a unit address, or 0xFF00 + a bit of
CHIP_FROZEN_CORES.MASK. A switch port is no master. -/
def thawTarget (v : Nat) : Except Status Nat :=
  if 0xFF00 ≤ v then (if (coreBit (v - 0xFF00)).isSome then .ok (v - 0xFF00) else .error .field)
  else if !UnitAddr.legal v then .error .ownership
  else if UnitAddr.port v == 1 then .error .notFrozen
  else .ok (0x10000 + v)

/-- Thaw what a parameter names: the status and the state. -/
def State.thawBy (s : State) (v : Nat) : Status × State :=
  match thawTarget v with
  | .error st => (st, s)
  | .ok m => match s.thawMaster m with
    | some s => (.ok, s)
    | none => (.notFrozen, s)

/-- ACT_ARM (R338): TIME, PERIOD and TB_ACTCTLn with ARM = 1, in that order; the status is the slot's. -/
def State.actArmCmd (s : State) (p : Packet) : State :=
  let n := pU8 p 0
  let s := s.actTimeWrite .TB_ACT_TIME n (2 ^ 64 - 1) (pU64 p 8)
  let s := s.actTimeWrite .TB_ACTP_PERIOD n (2 ^ 64 - 1) (pU64 p 16)
  let s := actionArm s n (pU64 p 24)
  s.replyP p (s.reg .TB_ACTSTAT_STATUS n)

/-! ### Memory movers (R336, R341, R342) -/

/-- A packet that a mover runs. -/
def State.moverPacket (s : State) (n : Nat) : Option Packet :=
  (s.host.busy.find? fun (e : Nat × Packet) => e.2.mover == some n).map (·.2)

/-- The lowest mover that runs nothing and is not frozen. -/
def State.freeMover (s : State) : Option Nat := (List.range 4).find? fun n => (s.moverPacket n).isNone && !s.isFrozen (32 + n)

/-- MOVER_DISPATCH (R336): the oldest waiting command starts on a mover. [DESIGN CHOICE, log 32] -/
def moverDispatch (s : State) : State :=
  match s.host.moverQ, s.freeMover with
  | hs :: rest, some n =>
    match s.host.busy.get? hs with
    | some p => { s with host := { s.host with moverQ := rest, busy := s.host.busy.put hs { p with mover := some n } } }
    | none => { s with host := { s.host with moverQ := rest } }
  | _, _ => s

/-- A mover's command runs when it has been dispatched and has not come to an outcome; the oldest waiting one is dispatched first
when a mover is free. [DESIGN CHOICE, log 32] -/
def State.runMover (s : State) (hs op : Nat) (f : Packet → Nat → State → State) : State :=
  let s := if s.host.moverQ.head? == some hs then moverDispatch s else s
  match s.packetIn hs op with
  | some p => match p.mover, p.outcome with
    | some n, none => f p n s
    | _, _ => s
  | none => s

/-- A mover's command comes to its outcome, to be answered by MOVER_DONE. -/
def State.moverEnd (s : State) (p : Packet) (st : Status) (result : List Nat) (fills : List Nat := [])
    (waits : List Nat := []) : State :=
  { s with host := { s.host with
      busy := s.host.busy.put p.slot { p with outcome := some (st.val, result), fills := fills, waits := waits } } }

/-- MOVER_DONE (R336, R341): the reply is written; pages being filled are RESIDENT; a READOUT grant is released (R421). A command
whose range another mover is still filling is not done (R341, R343), and a frozen control core 0 writes no reply. [DESIGN CHOICE, log 32] -/
def moverDone (s : State) (n : Nat) : State :=
  match s.moverPacket n with
  | none => s
  | some p =>
    match p.outcome with
    | none => s
    | some (st, result) =>
     if s.isFrozen 0 || p.waits.any (fun q => s.pageSt q == some .filling) then s
     else
      let pages := p.fills.foldl (fun (m : KMap Nat PageState) q => if m.get? q == some .filling then m.put q .resident else m) s.host.pages
      let s := { s with host := { s.host with pages := pages } }
      let s := if s.power.granted.any (fun g => g.cls == 3 && g.req == 0x2000 + n) then s.releaseLeave 3 (0x2000 + n) else s
      s.replyP p st result

/-- Pages of the staging area that a range of staging offsets touches. -/
def pagesOf (off n : Nat) : List Nat := if n == 0 then [] else (List.range ((off + n - 1) / 4096 - off / 4096 + 1)).map fun k => off / 4096 + k

/-- Frames of the staging cache that hold no page (R329). -/
def State.freeFrames (s : State) : Nat := 1024 - s.host.pages.length

/-- Pages that no frame holds. -/
def State.absentOf (s : State) (ps : List Nat) : List Nat := ps.filter fun q => (s.pageSt q).isNone

/-- Pages become FILLING. -/
def State.fill (s : State) (ps : List Nat) : State :=
  { s with host := { s.host with pages := ps.foldl (fun (m : KMap Nat PageState) q => m.put q .filling) s.host.pages } }

/-- A range lies wholly in cluster SRAM of existing sites (Table "Internal address map"). -/
def inSram (a n : Nat) : Bool :=
  decide (a + n ≤ 0x40000000) && (List.range ((a % sramBytes + n + sramBytes - 1) / sramBytes)).all fun k =>
    decide ((a / sramBytes + k) % 32 ≤ 16)

/-- Staging pages that a stack range touches. -/
def State.stackPages (s : State) (a n : Nat) : List Nat :=
  let base := s.reg .MEM_STAGE_BASE
  let lo := max a base
  let hi := min (a + n) (base + stageBytes)
  if lo < hi then pagesOf (lo - base) (hi - lo) else []

/-- Bytes of a MOVE's source with the words that read poisoned: the stack in the HOST class, or cluster SRAM (R16, R264, R341). -/
def State.moveRead (s : State) (a n : Nat) : List Nat × List Nat × State :=
  if inStack a n then s.stackRead a n 7
  else
    let r := (stackWords a n).foldl (fun (acc : List Nat × State) w =>
      let x := acc.2.sramWord (UnitAddr.mk (w / 2 ^ 27) (w / 2 ^ 22 % 32) 15) w
      (if x.1 then acc.1 ++ [w] else acc.1, x.2.2)) ([], s)
    (s.rd a n, r.1, r.2)

/-- Fields of the move descriptor: SRC, DST, LENGTH. -/
def moveRange (p : Packet) : Nat × Nat × Nat := (pU64 p 0, pU64 p 8, pU32 p 16)

/-- A range is not allowed (R342). -/
def State.moveBad (s : State) (p : Packet) : Bool :=
  let (src, dst, n) := moveRange p
  let toPort := bitAt (pU8 p 20) 0
  !(inStack src n || inSram src n)
    || (!toPort && (!inStack dst n || overlaps dst n (s.reg .MEM_GOLD_BASE) (136 * s.span)
      || overlaps dst n (s.reg .MEM_RET_BASE) (s.reg .MEM_RET_LEN) || overlaps src n dst n))

/-- The port does not take a MOVE (Status MOVE_PORT). -/
def State.movePortBad (s : State) (p : Packet) : Bool :=
  let q := pU8 p 21
  bitAt (pU8 p 20) 0 && (!s.portUp q || !(s.reg .OPX_PCTRL_ROLE q == 1 || s.reg .OPX_PCTRL_ROLE q == 2))

/-- The head of a TOKEN frame (Table "TOKEN head"). -/
def tokenHead (addr count poison : Nat) : List Nat := leBytes 16 (addr % 2 ^ 40 + count * 2 ^ 40 + poison * 2 ^ 48)

/-- Send units as TOKEN frames of up to 31 (R288, R341). -/
def State.sendUnits (s : State) (port at_ src : Nat) (bad : List Nat) : Nat → List Nat → State
  | 0, _ => s
  | k + 1, bs =>
    if bs.isEmpty then s
    else
      let n := min 31 (bs.length / 32)
      let poison := (List.range n).foldl (fun a i => if bad.contains (src + 32 * i) then a + 2 ^ i else a) 0
      let s := s.sendNormal port 2 (tokenHead at_ n poison ++ bs.take (32 * n))
      s.sendUnits port (at_ + 32 * n) (src + 32 * n) bad k (bs.drop (32 * n))

/-- The result of a MOVE: UNITS, POISON_UNITS and the first poisoned source address. [DESIGN CHOICE, log 31] -/
def moveResult (n : Nat) (bad : List Nat) : List Nat := leBytes 4 (n / 32) ++ leBytes 4 bad.length ++ leBytes 8 (bad.headD 0)

/-- Pages that are being filled. -/
def State.fillingOf (s : State) (ps : List Nat) : List Nat := ps.filter fun q => s.pageSt q == some .filling

/-- A MOVE that its checks allow. -/
def State.moveRun (s : State) (p : Packet) (fills waits : List Nat) : State :=
  let (src, dst, n) := moveRange p
  let r := s.moveRead src n
  let bad := r.2.1
  let s := r.2.2
  let s :=
    if bitAt (pU8 p 20) 0 then
      s.sendUnits (pU8 p 21) (if s.reg .OPX_PCTRL_ROLE (pU8 p 21) == 2 then src else dst) src bad (n / 32 + 1) r.1
    else
      let s := (s.fill fills).stackWrite dst r.1 7
      bad.foldl (fun (s : State) w => s.poisonWord (dst + (w - src))) s
  s.moverEnd p (if bad.isEmpty then .ok else .poisoned) (moveResult n bad) fills waits

/-- MOVE (R330, R341, R342, R421): refused, waiting for READOUT leave, or done. -/
def State.moveCmd (s : State) (p : Packet) (mover : Nat) : State :=
  let (src, dst, n) := moveRange p
  let toPort := bitAt (pU8 p 20) 0
  let mapped := if bitAt (pU8 p 20) 1 && !toPort then s.stackPages dst n else []
  let fills := s.absentOf mapped
  if s.moveBad p then s.moverEnd p .moveRange []
  else if s.movePortBad p then s.moverEnd p .movePort []
  else if (s.stackPages src n).any (fun q => s.pageSt q == some .dirty) then s.moverEnd p .stageDirty []
  else if s.freeFrames < fills.length then s.moverEnd p .stageFull []
  else if toPort && !s.leaveGranted 3 (0x2000 + mover) then
    let asked := fun (g : Leave) => g.cls == 3 && g.req == 0x2000 + mover
    if s.power.pending.any asked || s.power.granted.any asked then s
    else s.askLeave { cls := 3, req := 0x2000 + mover, units := s.leaveSize 3 0 }
  else s.moveRun p fills (s.fillingOf mapped)

/-! ### Staging commands (R329, R337, R343) -/

/-- Write one DIRTY page to the stack: words that the host has not written whole keep their poison (R260, R343). [DEDUCED, log 33] -/
def State.flushPage (s : State) (q : Nat) : State :=
  if s.pageSt q ≠ some .dirty then s
  else
    let base := s.reg .MEM_STAGE_BASE + 4096 * q
    let poisoned := (stackWords base 4096).filter fun w =>
      s.poison.contains w && !((List.range 32).all fun k => (s.host.stage.get? (w - s.reg .MEM_STAGE_BASE + k)).isSome)
    let bs := (List.range 4096).map fun k => s.frameByte (4096 * q + k)
    let s := poisoned.foldl State.poisonWord (s.stackWrite base bs 7)
    { s with host := { s.host with pages := s.host.pages.put q .resident } }

/-- Pages of a staging command's range, or none past the staging area. -/
def stagingPages (p : Packet) : Option (List Nat) :=
  if stageBytes < pU32 p 0 + pU32 p 4 then none else some (pagesOf (pU32 p 0) (pU32 p 4))

/-- STAGE_MAP: pages are filled from the stack, or zeroed with it. -/
def State.stageMapCmd (s : State) (p : Packet) : State :=
  match stagingPages p with
  | none => s.moverEnd p .field []
  | some ps =>
    let new := s.absentOf ps
    let waits := s.fillingOf ps
    if s.freeFrames < new.length then s.moverEnd p .stageFull []
    else
      let s := new.foldl (fun (s : State) q =>
        let a := s.reg .MEM_STAGE_BASE + 4096 * q
        if pU8 p 8 == 1 then s.stackWrite a (List.replicate 4096 0) 7 else (s.stackRead a 4096 7).2.2) (s.fill new)
      s.moverEnd p .ok (leBytes 4 new.length) new waits

/-- STAGE_FLUSH. -/
def State.stageFlushCmd (s : State) (p : Packet) : State :=
  match stagingPages p with
  | none => s.moverEnd p .field []
  | some ps =>
    let dirty := ps.filter fun q => s.pageSt q == some .dirty
    (dirty.foldl State.flushPage s).moverEnd p .ok (leBytes 4 dirty.length)

/-- STAGE_RELEASE. -/
def State.stageReleaseCmd (s : State) (p : Packet) : State :=
  match stagingPages p with
  | none => s.moverEnd p .field []
  | some ps =>
    let held := ps.filter fun q => (s.pageSt q).isSome
    let s := held.foldl State.flushPage s
    let s := { s with host := { s.host with pages := held.foldl KMap.del s.host.pages } }
    s.moverEnd p .ok (leBytes 4 held.length)

/-! ### Commands -/

/-- SLOT_SCAN (R333). -/
def execSlotScan (s : State) : Answer := awake s (slotScan s)
/-- NOP (R338): the parameters come back. -/
def execNop (hs : Nat) (s : State) : Answer := awake s (s.runOrd hs 0x001 fun p s => s.reply p .ok (bytesAt p.params 0 p.plen))
/-- REG_READ (R340). -/
def execRegRead (hs : Nat) (s : State) : Answer := awake s (s.runOrd hs 0x010 fun p s => s.regReadCmd p)
/-- REG_WRITE (R340). -/
def execRegWrite (hs : Nat) (s : State) : Answer := awake s (s.runOrd hs 0x011 fun p s => s.regWriteCmd p)
/-- THAW (R31). -/
def execThaw (hs : Nat) (s : State) : Answer :=
  awake s (s.runOrd hs 0x030 fun p s => let r := s.thawBy (pU16 p 0); r.2.reply p r.1)
/-- MOVE (R341). -/
def execMove (hs : Nat) (s : State) : Answer := awake s (s.runMover hs 0x100 fun p n s => s.moveCmd p n)
/-- MOVER_DISPATCH (R336). -/
def execMoverDispatch (s : State) : Answer := awake s (moverDispatch s)
/-- MOVER_DONE (R336). -/
def execMoverDone (mover : Fin 4) (s : State) : Answer := awake s (moverDone s mover.val)
/-- STAGE_MAP (R343). -/
def execStageMap (hs : Nat) (s : State) : Answer := awake s (s.runMover hs 0x101 fun p _ s => s.stageMapCmd p)
/-- STAGE_FLUSH (R343). -/
def execStageFlush (hs : Nat) (s : State) : Answer := awake s (s.runMover hs 0x102 fun p _ s => s.stageFlushCmd p)
/-- STAGE_RELEASE (R343). -/
def execStageRelease (hs : Nat) (s : State) : Answer := awake s (s.runMover hs 0x103 fun p _ s => s.stageReleaseCmd p)
/-- ACT_ARM (R338). -/
def execActArm (hs : Nat) (s : State) : Answer := awake s (s.runOrd hs 0x400 fun p s => s.actArmCmd p)

end Sys2Proof.Machine
end

