-- ==== Sys2Proof/Machine/Boot.lean ====
section
/-! DEFINITION. Start-up, firmware and identity (R345 to R363): the identity, verification of firmware images, cold start, live
replacement, reverts and attestation. -/
namespace Sys2Proof.Machine
open Sys2Proof

/-! ### Identity (R349, R350) -/

/-- The identity that a seed gives: key pairs and fingerprints. -/
def State.setIdentity (s : State) (seed : List Nat) (puf : Nat) : State :=
  let fpk := Config.falconPublic seed
  let kpk := Config.kemPublic seed
  let fp := shake256 fpk 32
  let kfp := shake256 kpk 32
  let s := { s with boot := { s.boot with seed := seed, falconPk := fpk, kemPk := kpk } }
  let s := (List.range 4).foldl (fun (s : State) k =>
    (s.setReg .SEC_IDFP_VALUE k (leAt fp (8 * k) 8)).setReg .SEC_KEMFP_VALUE k (leAt kfp (8 * k) 8)) s
  ((s.setReg .SEC_STATUS_PUF_STATE 0 puf).setReg .SEC_STATUS_IDENTITY 0 1).setReg .BOOT_STATE_STATE 0 2

/-- The identity could not be restored. -/
def State.pufFailed (s : State) : State := (s.setReg .SEC_STATUS_PUF_STATE 0 2).setReg .BOOT_STATE_STATE 0 6

/-- The states in which an identity may be restored or enrolled; a SERIAL boot waits in MONITOR (R347, R350). [DEDUCED, log 86] -/
def State.waitsIdentity (s : State) : Bool := [1, 6, 7].contains (s.reg .BOOT_STATE_STATE)

/-- BOOT_HELPER on helper data (R349): the status, and the state with the identity or the failure. -/
def State.helperWith (s : State) (h : List Nat) : Status × State :=
  if !s.waitsIdentity then (.fwStageState, s)
  else if leAt h 0 4 != 0x31485654 || leAt h 5 1 != 1 || leAt h 6 2 != 4096 || bytesAt h 4032 64 != shake256 (bytesAt h 0 4032) 64 then
    (.helperFormat, s)
  else match Config.pufRestore (bytesAt h 64 3968) with
    | none => (.pufFail, s.pufFailed)
    | some seed =>
      if shake256 (Config.falconPublic seed) 32 == bytesAt h 8 32 then (.ok, s.setIdentity seed 1) else (.pufFail, s.pufFailed)

/-- Helper data of a seed (Table "Helper data"). -/
def helperBytes (seed : List Nat) : List Nat :=
  let b := leBytes 4 0x31485654 ++ [0, 1] ++ leBytes 2 4096 ++ shake256 (Config.falconPublic seed) 32 ++ List.replicate 24 0
    ++ bytesAt (Config.pufOffset seed) 0 3968
  b ++ shake256 b 64

/-- BOOT_ENROL (R350): a new seed, its helper data at 0x0000_2000, its identity; the helper data. -/
def State.enrolWith (s : State) : Status × List Nat × State :=
  if !s.waitsIdentity then (.fwStageState, [], s)
  else
    let seed := Config.pufSeed s.freeIdx
    let h := helperBytes seed
    let s := { s with freeIdx := s.freeIdx + 1 }
    (.ok, h, (s.winWr 0x2000 h).setIdentity seed 3)

/-- BOOT_DEVKEY (R361): a development key, in development mode, once the ROM has an identity. [DEDUCED, log 86] -/
def State.devkeyWith (s : State) (key : List Nat) : Status × State :=
  if !s.boot.devMode then (.devOnly, s)
  else if s.waitsIdentity then (.fwStageState, s)
  else (.ok, { s with boot := { s.boot with devKey := key } }.setReg .SEC_STATUS_DEV_KEY 0 1)

/-! ### Verification (R351 to R353) -/

/-- A check that fails with a status. -/
def refuseUnless (ok : Bool) (st : Status) : Option Status := if ok then none else some st

/-- The header digest H. -/
def fwH (img : List Nat) : List Nat := shake256 (bytesAt img 0 512) 64

/-- BODY_LEN. -/
def fwBodyLen (img : List Nat) : Nat := leAt img 16 4

/-- Bytes of a whole image. -/
def fwTotal (img : List Nat) : Nat := 4096 + fwBodyLen img + 1288

/-- The ciphertext. -/
def fwCipher (img : List Nat) : List Nat := bytesAt img 4096 (fwBodyLen img)

/-- The key that SIGNER names (step 2). -/
def State.fwKey (s : State) (img : List Nat) : List Nat :=
  if leAt img 7 1 == 0 then (Config.romKey 0).getD [] else s.boot.devKey

/-- A signature field: LEN at an offset, up to 1,280 bytes after it, zeros beyond LEN. -/
def sigOk (key msg b : List Nat) (lenAt sigAt : Nat) : Bool :=
  let n := leAt b lenAt 2
  decide (1 ≤ n) && decide (n ≤ 1280) && (bytesAt b (sigAt + n) (1280 - n)).all (· == 0) && Config.falconVerify key msg (bytesAt b sigAt n)

/-- The content key (step 6). -/
def State.fwCek (s : State) (img : List Nat) : Option (List Nat) :=
  Config.keyUnwrap (shake256 (Config.kemDecaps s.boot.seed (bytesAt img 2080 1568) ++ fwH img) 32) (bytesAt img 3648 40)

/-- Step 1; at MINOR above 0 reserved fields are ignored (R8). -/
def fwStep1 (img : List Nat) : Option Status :=
  refuseUnless (leAt img 0 4 == 0x31465654 && leAt img 6 1 == 3 && fwBodyLen img % 16 == 0 && decide (80 ≤ fwBodyLen img)
      && decide (fwBodyLen img ≤ 786496) && (decide (0 < leAt img 4 1) || (bytesAt img 52 460).all (· == 0))) .fwFormat
    <|> refuseUnless (decide (leAt img 5 1 ≤ 1)) .fwVersion

/-- Steps 2 to 6. -/
def State.fwStep26 (s : State) (img : List Nat) : Option Status :=
  refuseUnless (leAt img 7 1 == 0 || (leAt img 7 1 == 1 && s.boot.devMode && s.flag .SEC_STATUS_DEV_KEY)) .fwSigner
    <|> refuseUnless (sigOk (s.fwKey img) (fwH img) img 512 516) .fwHdrSig
    <|> refuseUnless (decide (leAt img 8 4 ≤ s.reg .BOOT_STATE_ROM_VERSION)) .fwRomOld
    <|> refuseUnless (bytesAt img 2048 32 == s.kemFp) .fwWrongDevice
    <|> refuseUnless (s.fwCek img).isSome .fwUnseal

/-- Round up to 16. -/
def pad16 (n : Nat) : Nat := (n + 15) / 16 * 16

/-- The plaintext body's image, when the body is well-formed (R352, step 9). -/
def fwBody (img pt : List Nat) : Option FwImage :=
  let u := fun o => leAt pt o 4
  let (c0, c1, d0, d1) := (u 8, u 12, u 16, u 20)
  let a1 := 64 + pad16 c0
  let a2 := a1 + pad16 c1
  let a3 := a2 + pad16 d0
  if u 0 == 0x31505654 && leAt pt 6 2 == 0 && (bytesAt pt 32 32).all (· == 0) && c0 % 4 == 0 && c1 % 4 == 0
      && [c0, c1, d0, d1].all (fun n => decide (n ≤ 196608)) && decide (u 24 < c0) && decide (u 28 < c1)
      && decide (a3 + pad16 d1 ≤ fwBodyLen img) then
    some { version := leAt img 12 4, id := leAt img 48 4, signer := leAt img 7 1, abi := leAt pt 4 2
           digest := shake256 (fwH img ++ fwCipher img) 64
           code0 := bytesAt pt 64 c0, code1 := bytesAt pt a1 c1, entry0 := u 24, entry1 := u 28
           data0 := bytesAt pt a2 d0, data1 := bytesAt pt a3 d1 }
  else none

/-- Steps 7 to 9 of a whole image: the firmware, or the status; an ABI to equal in a live replacement. -/
def State.fwStep79 (s : State) (img : List Nat) (abi : Option Nat) : Except Status FwImage :=
  let h := fwH img
  if !sigOk (s.fwKey img) (shake256 (h ++ fwCipher img) 64) (bytesAt img (4096 + fwBodyLen img) 1288) 0 8 then .error .fwBodySig
  else match Config.aesGcmOpen ((s.fwCek img).getD []) (bytesAt img 20 12) h (fwCipher img) (bytesAt img 32 16) with
    | none => .error .fwTag
    | some pt => match fwBody img pt with
      | none => .error .fwBodyFormat
      | some f => if abi.all (· == f.abi) then .ok f else .error .fwAbi

/-- Count a refused image; the intake SRAM and the target banks are cleared (R353, R362, R363). -/
def State.fwRefused (s : State) : State :=
  let s := { s with boot := { s.boot with intake := [], cand := none } }
  (s.bump .BOOT_CNT_REFUSED).bump .SEC_CNT_FAILED

/-! ### Cold start (R347, R354) -/

/-- Both control cores take their instruction banks from an image and start at its entries. -/
def State.coresAt (s : State) (f : FwImage) : State :=
  let s := { s with
    ctl := (s.ctl.upd 0 {} (fun (c : CtlCore) => { c with pc := f.entry0 })).upd 1 {} (fun (c : CtlCore) => { c with pc := f.entry1 })
    boot := { s.boot with running := some f }
    host := { s.host with snapDir := Config.snapDirectory f.id } }
  (s.setReg .BOOT_FWVER_VERSION 0 f.version).setReg .BOOT_FWVER_ID 0 f.id

/-- The verified image starts: data at offset 0 of each core's local memory, zeros after it (R354). -/
def State.fwStart (s : State) (f : FwImage) : State :=
  let s := { s with mem := cellsClear s.mem 0x70000000 0x80000, boot := { s.boot with intake := [] } }
  let s := (s.wr 0x70000000 f.data0).wr 0x70040000 f.data1
  ((s.coresAt f).setReg .BOOT_STATE_STATE 0 5).bump .SEC_CNT_VERIFIED

/-- Bytes of the image have arrived (R354): the header is judged with the first of them, the body when the last has come. -/
def State.chunkWith (s : State) (bs : List Nat) : Status × State :=
  let img := s.boot.intake ++ bs
  let refused := fun (st : Status) => (st, (s.fwRefused).setReg .BOOT_STATE_STATE 0 2)
  let header := if s.boot.intake.isEmpty then fwStep1 img <|> s.fwStep26 img else none
  match header with
  | some st => refused st
  | none =>
    if fwTotal img < img.length then refused .fwFormat
    else
      let s := { s with boot := { s.boot with intake := img } }.setReg .BOOT_STATE_STATE 0 3
      if img.length < fwTotal img then (.ok, s)
      else match s.fwStep79 img none with
        | .error st => refused st
        | .ok f => (.ok, s.fwStart f)

/-- BOOT_CHUNK (R354). -/
def State.chunkCmd (s : State) (p : Packet) : State :=
  let st := s.reg .BOOT_STATE_STATE
  let n := pU32 p 8
  if !s.flag .SEC_STATUS_IDENTITY then s.reply p .noIdentity
  else if st != 2 && st != 3 then s.reply p .fwStageState
  else if n == 0 || 16384 < n then s.reply p .field
  else if pU32 p 4 != s.boot.intake.length || (s.boot.intake.isEmpty && n < 4096) then s.reply p .bootSeq
  else
    let r := s.chunkWith (s.winRd (0x8000 + 0x4000 * pU8 p 0) n)
    r.2.reply p r.1

/-! ### Live replacement (R356 to R358) -/

/-- BOOT_FWSTAT.STAGE. -/
def State.fwStage (s : State) : Nat := s.reg .BOOT_FWSTAT_STAGE

/-- Set the stage; in IDLE no candidate is named and no nonce stands. -/
def State.setStage (s : State) (n : Nat) : State :=
  let s := s.setReg .BOOT_FWSTAT_STAGE 0 n
  if n == 0 then ((s.setReg .BOOT_FWSTAGED_VERSION 0 0).setReg .BOOT_FWSTAGED_ID 0 0).setReg .BOOT_FWSTAT_CONFIRM_NONCE 0 0 else s

/-- Answer a firmware stage command (LAST_STATUS). -/
def State.stageReply (s : State) (p : Packet) (st : Status) (result : List Nat := []) : State :=
  (s.setReg .BOOT_STATE_LAST_STATUS 0 st.val).reply p st result

/-- An activation or a revert waits for its switch. -/
def State.switching (s : State) : Bool := s.boot.activating.isSome || s.boot.revertAt.isSome

/-- A failed or discarded candidate: the stage is IDLE, intake and spare banks are clear. -/
def State.dropCandidate (s : State) : State := { s with boot := { s.boot with intake := [], cand := none } }.setStage 0

/-- FW_STAGE (R330, R356). [DEDUCED, log 87] -/
def State.fwStageCmd (s : State) (p : Packet) : State :=
  let off := pU32 p 0
  let n := pU32 p 4
  let a := s.reg .MEM_STAGE_BASE + off
  let fail := fun (st : Status) (s : State) => (s.dropCandidate.fwRefused).stageReply p st
  if s.switching || 2 ≤ s.fwStage then s.stageReply p .fwStageState
  else if s.stageDirty off n then s.dropCandidate.stageReply p .stageDirty
  else if n < 4096 || stageBytes < off + n || !inStack a n then fail .fwFormat s
  else
    let (img, bad, s) := s.stackRead a n 7
    let st := refuseUnless bad.isEmpty .fwFormat <|> fwStep1 img <|> refuseUnless (n == fwTotal img) .fwFormat <|> s.fwStep26 img
    match st with
    | some st => fail st s
    | none =>
      let s := { s with boot := { s.boot with intake := img, cand := none } }.setStage 1
      ((s.setReg .BOOT_FWSTAGED_VERSION 0 (leAt img 12 4)).setReg .BOOT_FWSTAGED_ID 0 (leAt img 48 4)).stageReply p .ok

/-- FW_VERIFY (R356). -/
def State.fwVerifyCmd (s : State) (p : Packet) : State :=
  if s.switching || s.fwStage != 1 then s.stageReply p .fwStageState
  else match s.fwStep79 s.boot.intake (some ((s.boot.running.getD {}).abi)) with
    | .error st => (s.dropCandidate.fwRefused).stageReply p st
    | .ok f => ({ s with boot := { s.boot with cand := some f } }.setStage 2 |>.bump .SEC_CNT_VERIFIED).stageReply p .ok

/-- FW_ACTIVATE (R356): the command waits for a quiescent point. [DEDUCED, log 87] -/
def State.fwActivateCmd (s : State) (p : Packet) : State :=
  if s.switching || s.fwStage != 2 then s.stageReply p .fwStageState
  else
    let s := s.started p
    { s with boot := { s.boot with activating := some (s.cycle, p.slot) } }

/-- A quiescent point (R357): neither core executes a command or stands frozen, no commit lies between PREPARE and its broadcast, the
loader holds no command. -/
def State.quiescent (s : State) : Bool :=
  s.host.cmdQ.isEmpty && s.host.loaderQ.isEmpty && (s.ctl.getD 1 {}).mbox.isEmpty && (s.ctl.getD 0 {}).mbox.isEmpty && !s.isFrozen 0 && !s.isFrozen 1
    && (match s.commit with | .prepared _ _ _ _ _ => false | _ => true)

/-- QUIESCE_MS in force: 1 to 1,000 ms (R362). -/
def State.quiesceMs (s : State) : Nat := min 1000 (max 1 (s.reg .BOOT_FWCTL_QUIESCE_MS))

/-- BANK_SWITCH (R356, R357): at a quiescent point within QUIESCE_MS both cores run the candidate, which awaits confirmation. [DEDUCED, log 87] -/
def bankSwitch (s : State) : State :=
  match s.boot.activating, s.boot.cand with
  | some (since, slot), some f =>
    if s.quiescent && decide (s.cycle ≤ since + s.quiesceMs * 1200000) then
      let (nonce, s) := s.free (2 ^ 32)
      let s := { s with boot := { s.boot with
        activating := none, cand := none, intake := [], prev := s.boot.running, activatedAt := some s.cycle } }
      let s := ((s.coresAt f).setStage 3).setReg .BOOT_FWSTAT_CONFIRM_NONCE 0 nonce
      let s := s.bump .BOOT_CNT_ACTIVATIONS
      match s.host.busy.get? slot with
      | some p => s.stageReply p .ok (leBytes 4 nonce)
      | none => s
    else s
  | _, _ => s

/-- QUIESCE_TIMEOUT (R356). -/
def quiesceTimeout (s : State) : State :=
  match s.boot.activating with
  | some (since, slot) =>
    if since + s.quiesceMs * 1200000 ≤ s.cycle then
      let s := { s with boot := { s.boot with activating := none } }
      match s.host.busy.get? slot with
      | some p => s.stageReply p .fwBusy
      | none => s
    else s
  | none => s

/-- FW_CONFIRM (R356). -/
def State.fwConfirmCmd (s : State) (p : Packet) : State :=
  if s.switching || s.fwStage != 3 then s.stageReply p .fwStageState
  else if pU32 p 0 != s.reg .BOOT_FWSTAT_CONFIRM_NONCE then s.stageReply p .confirmNonce
  else ({ s with boot := { s.boot with prev := none, activatedAt := none } }.setStage 0).stageReply p .ok

/-- FW_ABORT (R356): a candidate is discarded; an activation is reverted, and the command waits for the revert. -/
def State.fwAbortCmd (s : State) (p : Packet) : State :=
  if s.switching || s.fwStage == 0 then s.stageReply p .fwStageState
  else if s.fwStage == 3 then
    let s := s.started p
    { s with boot := { s.boot with revertAt := some (s.cycle, p.slot) } }
  else s.dropCandidate.stageReply p .ok

/-- CONFIRM_TIMEOUT (R356): the confirmation timer has run out. -/
def confirmTimeout (s : State) : State :=
  match s.boot.activatedAt with
  | some c =>
    if s.fwStage == 3 && s.boot.revertAt.isNone && decide (c + s.confirmMs * 1200000 ≤ s.cycle) then
      { s with boot := { s.boot with revertAt := some (s.cycle, 64) } }
    else s
  | none => s

/-- Both cores run the previous image again (R358). -/
def State.revertNow (s : State) (slot : Nat) : State :=
  let f := s.boot.prev.getD {}
  let v := s.reg .BOOT_FWVER_VERSION
  let s := { s with boot := { s.boot with prev := none, activatedAt := none, revertAt := none, revertedSince := true } }
  let s := (((s.coresAt f).setStage 0).setReg .BOOT_FWSTAT_REVERTED 0 1).bump .BOOT_CNT_REVERTS
  let s := s.raise clsFault .boot 0x0015 0xFFFF [v, f.version]
  match s.host.busy.get? slot with
  | some p => if p.opcode % 4096 == 0x514 then s.stageReply p .ok else s
  | none => s

/-- REVERT (R358): at a quiescent point. -/
def revert (s : State) : State :=
  match s.boot.revertAt with
  | some (_, slot) => if s.quiescent then s.revertNow slot else s
  | none => s

/-- A command in progress ends with FW_REVERTED: the loader, movers and queues let go of it (R358). -/
def State.endCommand (s : State) (p : Packet) : State :=
  let s := match p.mover with
    | some n => (s.releaseLeave 3 (0x2000 + n)).withdrawLeave 3 (0x2000 + n)
    | none => s
  let pages := p.fills.foldl (fun (m : KMap Nat PageState) q => if m.get? q == some .filling then m.del q else m) s.host.pages
  ({ s with host := { s.host with pages := pages } } : State).replyNow p Status.fwReverted.val

/-- Outcomes that control core 1 had reported are still replies of theirs (R24, R335). -/
def State.repliesDue (s : State) : State :=
  s.host.busy.foldl (fun (s : State) (e : Nat × Packet) =>
    match e.2.mover, e.2.outcome with
    | none, some (st, result) => s.replyNow e.2 st result
    | _, _ => s) s

/-- A commit between PREPARE and C ends as one whose confirmations are missing (R358). -/
def State.commitReverted (s : State) : State :=
  match s.commit with
  | .prepared slot _ rs done_ _ => s.abortCommit slot (rs.filter fun r => !done_.contains r)
  | .broadcast _ _ =>
    let slot := ((s.host.busy.find? fun (e : Nat × Packet) => e.2.opcode % 4096 == 0x020 && e.2.outcome.isNone && !s.host.cmdQ.contains e.1).map
      fun (e : Nat × Packet) => e.1).getD 64
    s.abortCommit slot []
  | .held _ => { s with commit := .idle }
  | .idle => s

/-- FORCED_REVERT (R358): no quiescent point for 10 ms. -/
def forcedRevert (s : State) : State :=
  match s.boot.revertAt with
  | some (since, slot) =>
    if since + 12000000 ≤ s.cycle then
      let s := (s.commitReverted.revertNow slot).repliesDue
      let s := s.host.busy.foldl (fun (s : State) (e : Nat × Packet) => s.endCommand e.2) s
      { s with
        ctl := (s.ctl.upd 0 {} (fun (c : CtlCore) => { c with mbox := [] })).upd 1 {} (fun (c : CtlCore) => { c with mbox := [] })
        nets := s.nets.map fun (e : Nat × SlotNet) => (e.1, { e.2 with loading := none }) }
    else s
  | none => s

/-! ### Attestation (R360) -/

/-- FW_STATE of a report. -/
def State.fwState (s : State) : Nat :=
  if !s.fwRunning then 0 else if s.fwStage == 3 then 2 else if s.boot.revertedSince then 3 else 1

/-- One slot's entry of a report; zeros in the ROM. -/
def State.attestSlot (s : State) (k : Nat) : List Nat :=
  if !s.fwRunning then List.replicate 144 0
  else
    [s.reg .NSL_STATE_STATE k, s.reg .NSL_STATE_BANK k, 0, 0] ++ leBytes 4 (s.reg .NSL_IMAGE_ID k) ++ List.replicate 8 0
      ++ (List.range 8).flatMap (fun d => leBytes 8 (s.reg .NSL_DIGEST_VALUE (8 * k + d)))
      ++ (List.range 8).flatMap fun d => leBytes 8 (s.reg .NSL_BDIGEST_VALUE (8 * k + d))

/-- The signed bytes of a report (Table "Attestation report"). [DEDUCED, log 88] -/
def State.attestBody (s : State) (nonce : List Nat) : List Nat :=
  let run := s.boot.running.getD {}
  leBytes 4 0x31415654 ++ [0, 1] ++ leBytes 2 4096 ++ leBytes 4 (s.reg .BOOT_STATE_ROM_VERSION)
    ++ [s.straps, if s.fwRunning then run.signer else 0xFF, s.reg .SEC_STATUS_PUF_STATE, s.fwState]
    ++ leBytes 4 (s.reg .BOOT_FWVER_VERSION) ++ leBytes 4 (s.reg .BOOT_FWVER_ID) ++ leBytes 4 s.reproKey
    ++ leBytes 4 (s.reg .SEC_ATTEST_SEQ) ++ bytesAt nonce 0 32 ++ bytesAt run.digest 0 64 ++ bytesAt s.idFp 0 32
    ++ leBytes 8 s.tb.tb ++ leBytes 2 s.epoch ++ List.replicate 6 0 ++ bytesAt (s.boot.prev.getD {}).digest 0 64
    ++ List.replicate 16 0 ++ (List.range 16).flatMap s.attestSlot

/-- The report: its number is that of the reports signed, itself included. [DEDUCED, log 88] -/
def State.attestReport (s : State) (nonce : List Nat) : List Nat × State :=
  let s := s.bump .SEC_ATTEST_SEQ
  let b := s.attestBody nonce
  let sig := Config.falconSign s.boot.seed (shake256 b 64)
  let n := min 1280 (max 1 sig.length)
  (b ++ leBytes 2 n ++ [0, 0] ++ bytesAt (sig.take n) 0 1280 ++ List.replicate 252 0, { s with boot := { s.boot with revertedSince := false } })

/-- ATTEST while firmware runs: the report goes to the staging area. -/
def State.attestCmd (s : State) (p : Packet) : State :=
  let off := pU32 p 32
  if off % 4096 != 0 || stageBytes < off + 4096 then s.reply p .field
  else
    let r := s.attestReport (bytesAt p.params 0 32)
    (r.2.stackWrite (s.reg .MEM_STAGE_BASE + off) r.1 7).reply p .ok (leBytes 4 off)

/-- ATTEST in the ROM: the report goes to transfer half A. [DEDUCED, log 88] -/
def State.attestRom (s : State) (p : Packet) : State :=
  if !s.flag .SEC_STATUS_IDENTITY then s.reply p .noIdentity
  else
    let r := s.attestReport (bytesAt p.params 0 32)
    (r.2.winWr 0x8000 r.1).reply p .ok

/-! ### Commands -/

/-- BOOT_HELPER (R349). -/
def execBootHelper (s : State) : Answer :=
  awake s (s.runRom 0x500 fun p s => let r := s.helperWith (s.winRd 0x2000 4096); r.2.reply p r.1)
/-- BOOT_ENROL (R350). -/
def execBootEnrol (s : State) : Answer :=
  awake s (s.runRom 0x501 fun p s => let r := s.enrolWith; r.2.2.reply p r.1 (if r.1 == .ok then leBytes 2 r.2.1.length else []))
/-- BOOT_DEVKEY (R361). -/
def execBootDevkey (s : State) : Answer :=
  awake s (s.runRom 0x502 fun p s => let r := s.devkeyWith (s.winRd (0x8000 + 0x4000 * pU8 p 0) 1793); r.2.reply p r.1)
/-- BOOT_CHUNK (R354). -/
def execBootChunk (s : State) : Answer := awake s (s.runRom 0x503 fun p s => s.chunkCmd p)
/-- FW_STAGE (R356). -/
def execFwStage (hs : Nat) (s : State) : Answer := awake s (s.runOrd hs 0x510 fun p s => s.fwStageCmd p)
/-- FW_VERIFY (R356). -/
def execFwVerify (hs : Nat) (s : State) : Answer := awake s (s.runOrd hs 0x511 fun p s => s.fwVerifyCmd p)
/-- FW_ACTIVATE (R356). -/
def execFwActivate (hs : Nat) (s : State) : Answer := awake s (s.runOrd hs 0x512 fun p s => s.fwActivateCmd p)
/-- BANK_SWITCH (R357). -/
def execBankSwitch (s : State) : Answer := awake s (bankSwitch s)
/-- QUIESCE_TIMEOUT (R356). -/
def execQuiesceTimeout (s : State) : Answer := awake s (quiesceTimeout s)
/-- FW_CONFIRM (R356). -/
def execFwConfirm (hs : Nat) (s : State) : Answer := awake s (s.runOrd hs 0x513 fun p s => s.fwConfirmCmd p)
/-- FW_ABORT (R356). -/
def execFwAbort (hs : Nat) (s : State) : Answer := awake s (s.runOrd hs 0x514 fun p s => s.fwAbortCmd p)
/-- CONFIRM_TIMEOUT (R356). -/
def execConfirmTimeout (s : State) : Answer := awake s (confirmTimeout s)
/-- REVERT (R358). -/
def execRevert (s : State) : Answer := awake s (revert s)
/-- FORCED_REVERT (R358). -/
def execForcedRevert (s : State) : Answer := awake s (forcedRevert s)
/-- ATTEST (R360). -/
def execAttest (hs : Nat) (s : State) : Answer :=
  awake s (if s.fwRunning then s.runOrd hs 0x520 fun p s => s.attestCmd p
    else if hs == 64 then s.runRom 0x520 fun p s => s.attestRom p else s)

end Sys2Proof.Machine
end

