-- ==== Sys2Proof/Machine/Dram.lean ====
section
/-! DEFINITION. The LPDDR5 face of the host port (R320 to R326): its commands on two channels of banks and rows. Bit places within
mode registers are those of JESD209-5, which R320 names. -/
namespace Sys2Proof.Machine
open Sys2Proof

/-- A channel. -/
def State.dram (s : State) (ch : Nat) : DramCh := s.host.ch.getD ch {}

/-- Replace a channel. -/
def State.setDram (s : State) (ch : Nat) (c : DramCh) : State := { s with host := { s.host with ch := s.host.ch.put ch c } }

/-- The window address of a place (R321). -/
def winAddr (ch bank row col : Nat) : Nat := row % 65536 * 65536 + bank % 16 * 4096 + ch % 2 * 2048 + col % 2048

/-- Less than a time, in tenths of a nanosecond, has passed since a command (1.2 GHz cycles). -/
def State.early (s : State) (since : Option Nat) (tenths : Nat) : Bool := since.any fun c => decide (50 * (s.cycle - c) < 6 * tenths)

/-- A bank is still unavailable after a refresh or the exit from self refresh (tRFCab, tRFCpb, tXSR). -/
def State.bankBusy (s : State) (c : DramCh) (bank : Nat) : Bool :=
  s.early c.refAllAt 2800 || s.early (c.refAt.get? bank) 1400 || s.early c.exitAt 2875

/-- A command comes sooner than a checked time allows: discarded and counted (R325). -/
def State.timingViol (s : State) (ch a : Nat) : State := s.hostViol .HST_CNT_VIOL_TIMING patTiming ch a

/-- A command or a setting that is not supported: ignored and counted (R320). -/
def State.unsupported (s : State) : State := s.bump .HST_CNT_VIOL2_UNSUPPORTED

/-! ### Rows (R325) -/

/-- ACT: opens a row; on a bank with an active row it is a violation and replaces the row. [DEDUCED, log 36] -/
def dramAct (s : State) (ch bank row : Nat) : State :=
  let c := s.dram ch
  let a := winAddr ch bank row 0
  let early := s.bankBusy c bank || s.early (c.preAt.get? bank) 180 || s.early c.preAllAt 210
  let open_ := fun (s : State) => s.setDram ch { c with rows := c.rows.put bank row, actAt := c.actAt.put bank s.cycle }
  if (c.rows.get? bank).isSome then open_ (s.hostViol .HST_CNT_VIOL_STATE 0 ch a)
  else if early then s.timingViol ch a
  else open_ s

/-- PREpb. [DEDUCED, log 36] -/
def dramPre (s : State) (ch bank : Nat) : State :=
  let c := s.dram ch
  if s.bankBusy c bank || ((c.rows.get? bank).isSome && s.early (c.actAt.get? bank) 420) then
    s.timingViol ch (winAddr ch bank (c.rows.getD bank 0) 0)
  else s.setDram ch { c with rows := c.rows.del bank, preAt := c.preAt.put bank s.cycle }

/-- PREab. -/
def dramPreAll (s : State) (ch : Nat) : State :=
  let c := s.dram ch
  let bad := (List.range 16).any fun b => s.bankBusy c b || ((c.rows.get? b).isSome && s.early (c.actAt.get? b) 420)
  if bad then s.timingViol ch (winAddr ch 0 0 0) else s.setDram ch { c with rows := [], preAllAt := some s.cycle }

/-- REFab (R324). [DEDUCED, log 36] -/
def dramRefAll (s : State) (ch : Nat) : State :=
  let c := s.dram ch
  let bad := s.early c.preAllAt 210 || (List.range 16).any fun b => s.bankBusy c b || s.early (c.preAt.get? b) 180
  if bad then s.timingViol ch (winAddr ch 0 0 0)
  else (s.setDram ch { c with refAllAt := some s.cycle }).bump .HST_CNT_REF_REFAB

/-- REFpb (R324). -/
def dramRef (s : State) (ch bank : Nat) : State :=
  let c := s.dram ch
  if s.bankBusy c bank || s.early (c.preAt.get? bank) 180 || s.early c.preAllAt 210 then s.timingViol ch (winAddr ch bank 0 0)
  else (s.setDram ch { c with refAt := c.refAt.put bank s.cycle }).bump .HST_CNT_REF_REFPB

/-! ### Bursts (R321, R322, R325) -/

/-- What stands in the way of a burst: its counter and its pattern code, in the order WCK, row, timing. [DEDUCED, log 34] -/
def State.burstViol (s : State) (ch bank : Nat) : Option (Reg × Nat) :=
  let c := s.dram ch
  if !c.wck then some (.HST_CNT_VIOL2_WCK, patWck)
  else if (c.rows.get? bank).isNone then some (.HST_CNT_VIOL_STATE, patNoRow)
  else if s.bankBusy c bank || s.early (c.actAt.get? bank) 180 then some (.HST_CNT_VIOL_TIMING, patTiming)
  else none

/-- Count a burst on its channel. [DEDUCED, log 34] -/
def State.burst (s : State) (ch : Nat) : State := s.bump (if ch == 0 then .HST_CNT_BURST_CH0 else .HST_CNT_BURST_CH1)

/-- The window address of a burst of `n` bytes. -/
def State.burstAddr (s : State) (ch bank col n : Nat) : Nat := winAddr ch bank ((s.dram ch).rows.getD bank 0) (col / n * n)

/-- RD16 and RD32: `n` bytes; every read returns data (R322). -/
def dramRead (s : State) (ch bank col n : Nat) : State :=
  let a := s.burstAddr ch bank col n
  let s := s.burst ch
  match s.burstViol ch bank with
  | some v => (s.hostViol v.1 v.2 ch a).emit (.dq ch (patternWords v.2 a n))
  | none => let r := s.winRead ch a n; r.2.emit (.dq ch r.1)

/-- WR16, WR32 and MWR: `n` bytes, those whose mask bit is set. -/
def dramWrite (s : State) (ch bank col n mask : Nat) (data : List Nat) : State :=
  let a := s.burstAddr ch bank col n
  let s := s.burst ch
  match s.burstViol ch bank with
  | some v => s.hostViol v.1 v.2 ch a
  | none => s.winWrite ch a mask (bytesAt data 0 n)

/-! ### WCK, mode registers, calibration, power (R320, R323, R324) -/

/-- CAS: WCK is synchronised, or its synchronisation ends; with Write X or data copy it is not supported (R320). -/
def dramCas (s : State) (ch : Nat) (op : CasOp) : State :=
  match op with
  | .writeX | .dataCopy => s.unsupported
  | .wsOff => s.setDram ch { s.dram ch with wck := false }
  | .wsRd | .wsWr | .wsFs => s.setDram ch { s.dram ch with wck := true }

/-- Mode registers that take what is written (Table "Mode registers"). [PRESUMED, log 35] -/
def mrWritable (mr : Nat) : Bool := decide (1 ≤ mr ∧ mr ≤ 3) || decide (10 ≤ mr ∧ mr ≤ 18) || mr == 20 || mr == 22

/-- An MRW selects a feature that is not supported: 8B mode and DBI in MR3, a third set point in MR16, WCK:CK 2:1 in MR18, link
ECC in MR22. -/
def mrUnsupported (mr v : Nat) : Bool :=
  (mr == 3 && (bitAt v 3 || bits v 6 2 != 0)) || (mr == 16 && (bitAt v 1 || bitAt v 3)) || (mr == 18 && bitAt v 7)
    || (mr == 22 && bits v 4 4 != 0)

/-- The set point under which a mode register is kept: MR1 and MR2 by the one selected for writing. [PRESUMED, log 35] -/
def DramCh_mrKey (c : DramCh) (mr : Nat) : Nat × Nat := (if mr == 1 || mr == 2 then c.fspWr else 0, mr)

/-- MRW (R320, R323): the channel is initialised from its first mode-register write on. -/
def dramMrw (s : State) (ch mr v : Nat) : State :=
  let c := { s.dram ch with initDone := true }
  let s := s.setDram ch c
  if decide (4 ≤ mr ∧ mr ≤ 8) then s
  else if !mrWritable mr || mrUnsupported mr v then s.unsupported
  else
    let c := { c with mrs := c.mrs.put (DramCh_mrKey c mr) v }
    if mr == 3 then
      (s.setDram ch c).setReg .HST_STATUS_BG_MODE 0 (setBits (s.reg .HST_STATUS_BG_MODE) ch 1 (b2n (bits v 3 2 == 0)))
    else if mr == 16 then
      (s.setDram ch { c with fspWr := bits v 0 1, fspOp := bits v 2 1 }).setReg .HST_STATUS_FSP_OP 0 (bits v 2 1)
    else s.setDram ch c

/-- What a mode register reads (R323): MR4 the nominal refresh rate, MR8 type LPDDR5, 16 Gbit, x16. [PRESUMED, log 35] -/
def State.mrValue (s : State) (ch mr : Nat) : Nat :=
  let c := s.dram ch
  match mr with
  | 4 => 0x09
  | 5 => s.reg .HST_IDENT_MR5
  | 6 => s.reg .CHIP_STEP_STEP
  | 7 => s.reg .CHIP_STEP_ARITH
  | 8 => 0x18
  | _ => if mrWritable mr then c.mrs.getD (DramCh_mrKey c mr) 0 else 0

/-- MRR. -/
def dramMrr (s : State) (ch mr : Nat) : State := s.emit (.mrr ch mr (s.mrValue ch mr))

/-- MPC: calibration and the training FIFO of eight bursts. -/
def dramMpc (s : State) (ch : Nat) (op : MpcOp) : State :=
  let c := s.dram ch
  match op with
  | .zqStart | .zqLatch => s
  | .writeFifo d => s.setDram ch { c with fifo := lastN 8 (c.fifo ++ [bytesAt d 0 32]) }
  | .readFifo =>
    match c.fifo with
    | d :: ds => (s.setDram ch { c with fifo := ds ++ [d] }).emit (.dq ch (dqWords d))
    | [] => let (v, s) := s.free (2 ^ 256); s.emit (.dq ch (dqWords (leBytes 32 v)))
  | .readDqCal => let (v, s) := s.free (2 ^ 256); s.emit (.dq ch (dqWords (leBytes 32 v)))
  | .other _ => s.unsupported

/-- Self refresh comes too soon after a precharge, a refresh or the last exit (R325). [DEDUCED, log 36] -/
def State.sleepEarly (s : State) (c : DramCh) : Bool :=
  s.early c.preAllAt 210 || (List.range 16).any fun b => s.bankBusy c b || s.early (c.preAt.get? b) 180

/-- SRE: WCK stops; with deep sleep it is not supported (R320), and too soon it is discarded (R325). -/
def dramSre (s : State) (ch : Nat) (deep : Bool) : State :=
  let c := s.dram ch
  if deep then s.unsupported
  else if s.sleepEarly c then s.timingViol ch (winAddr ch 0 0 0)
  else s.setDram ch { c with selfRefresh := true, wck := false }

/-- PDE: WCK stops. -/
def dramPde (s : State) (ch : Nat) : State := s.setDram ch { s.dram ch with powerDown := true, wck := false }

/-- RFM: costs only its timing; too soon after a precharge, a refresh or the exit from self refresh it is discarded (R324, R325).
[DEDUCED, log 36] -/
def dramRfm (s : State) (ch bank : Nat) : State :=
  let c := s.dram ch
  if s.bankBusy c bank || s.early (c.preAt.get? bank) 180 || s.early c.preAllAt 210 then s.timingViol ch (winAddr ch bank 0 0) else s

/-- SRX: tXSR runs. -/
def dramSrx (s : State) (ch : Nat) : State :=
  let c := s.dram ch
  if c.selfRefresh then s.setDram ch { c with selfRefresh := false, exitAt := some s.cycle } else s

/-- PDX. -/
def dramPdx (s : State) (ch : Nat) : State := s.setDram ch { s.dram ch with powerDown := false }

/-! ### Commands -/

/-- ACT (R320). -/
def execAct (ch : Fin 2) (bank : Fin 16) (row : Nat) (s : State) : Answer := awake s (dramAct s ch.val bank.val row)
/-- RD16 (R322). -/
def execRd16 (ch : Fin 2) (bank : Fin 16) (col : Nat) (s : State) : Answer := awake s (dramRead s ch.val bank.val col 32)
/-- RD32 (R322). -/
def execRd32 (ch : Fin 2) (bank : Fin 16) (col : Nat) (s : State) : Answer := awake s (dramRead s ch.val bank.val col 64)
/-- WR16 (R320). -/
def execWr16 (ch : Fin 2) (bank : Fin 16) (col : Nat) (data : List Nat) (s : State) : Answer :=
  awake s (dramWrite s ch.val bank.val col 32 (2 ^ 32 - 1) data)
/-- WR32 (R320). -/
def execWr32 (ch : Fin 2) (bank : Fin 16) (col : Nat) (data : List Nat) (s : State) : Answer :=
  awake s (dramWrite s ch.val bank.val col 64 (2 ^ 64 - 1) data)
/-- MWR (R320): bit k of the mask lets byte k be written. -/
def execMwr (ch : Fin 2) (bank : Fin 16) (col : Nat) (data : List Nat) (mask : Nat) (s : State) : Answer :=
  awake s (dramWrite s ch.val bank.val col 32 mask data)
/-- PREPB (R320). -/
def execPrepb (ch : Fin 2) (bank : Fin 16) (s : State) : Answer := awake s (dramPre s ch.val bank.val)
/-- PREAB (R320). -/
def execPreab (ch : Fin 2) (s : State) : Answer := awake s (dramPreAll s ch.val)
/-- REFAB (R324). -/
def execRefab (ch : Fin 2) (s : State) : Answer := awake s (dramRefAll s ch.val)
/-- REFPB (R324). -/
def execRefpb (ch : Fin 2) (bank : Fin 16) (s : State) : Answer := awake s (dramRef s ch.val bank.val)
/-- RFM (R320, R324). -/
def execRfm (ch : Fin 2) (bank : Fin 16) (s : State) : Answer := awake s (dramRfm s ch.val bank.val)
/-- CAS (R320). -/
def execCas (ch : Fin 2) (op : CasOp) (s : State) : Answer := awake s (dramCas s ch.val op)
/-- MRW (R323). -/
def execMrw (ch : Fin 2) (mr value : Nat) (s : State) : Answer := awake s (dramMrw s ch.val mr value)
/-- MRR (R323). -/
def execMrr (ch : Fin 2) (mr : Nat) (s : State) : Answer := awake s (dramMrr s ch.val mr)
/-- MPC (R320). -/
def execMpc (ch : Fin 2) (op : MpcOp) (s : State) : Answer := awake s (dramMpc s ch.val op)
/-- SRE (R324). -/
def execSre (ch : Fin 2) (s : State) (deep : Bool := false) : Answer := awake s (dramSre s ch.val deep)
/-- SRX (R324). -/
def execSrx (ch : Fin 2) (s : State) : Answer := awake s (dramSrx s ch.val)
/-- PDE (R324). -/
def execPde (ch : Fin 2) (s : State) : Answer := awake s (dramPde s ch.val)
/-- PDX (R324). -/
def execPdx (ch : Fin 2) (s : State) : Answer := awake s (dramPdx s ch.val)

end Sys2Proof.Machine
end

