-- ==== Sys2Proof/Machine/Logs.lean ====
section
/-! DEFINITION. The log collector and the host's log commands (R430 to R439): from the intakes to the rings, summaries, acknowledgement
and marks. -/
namespace Sys2Proof.Machine
open Sys2Proof

/-! ### From the intakes to the rings (R431 to R433) -/

/-- The record that is written next: the alarm intake is served ahead of the intake queue (R433). -/
def logNext (l : LogState) : Option (LogRec × LogState) :=
  match l.alarm with
  | r :: rest => some (r, { l with alarm := rest })
  | [] => match l.intake with
    | r :: rest => some (r, { l with intake := rest })
    | [] => none

/-- The ALARM record that the next one overwrites has not been acknowledged (R437). -/
def State.alarmOverwrite (s : State) (r : LogRec) : Bool :=
  let t := s.logs.total.getD 0 0
  r.cls == clsAlarm && decide (256 ≤ t) && decide (s.reg .LOG_ALARM_ACK ≤ t - 256)

/-- Write one record at its ring's next slot with the next SEQ. -/
def State.logStore (s : State) (r : LogRec) : State :=
  let t := s.logs.total.getD r.cls 0
  let lost := if s.alarmOverwrite r then s.logs.alarmLost + 1 else s.logs.alarmLost
  let s := s.devWr (ringBase r.cls + 64 * (t % ringLen r.cls)) (logBytes r s.logs.seq)
  let s := { s with logs := { s.logs with
    seq := (s.logs.seq + 1) % 2 ^ 32, total := s.logs.total.put r.cls (t + 1), alarmLost := lost } }
  let s := s.bump .LOG_CNT_WRITTEN
  if r.summary then s.bump .LOG_CNT_SUMMARIES else s

/-- LOG_WRITE (R432): every 16 cycles one record reaches its ring. -/
def logWrite (s : State) : State :=
  if s.cycle % 16 ≠ 0 then s
  else match logNext s.logs with
    | some (r, l) => ({ s with logs := l } : State).logStore r
    | none => s

/-- SUMMARY (R436): the class's oldest unreported suppression is 1 ms old and the intake has room. -/
def summary (s : State) (cls : Nat) : State :=
  match s.logs.unreported.get? cls with
  | some u =>
    if s.logs.intake.length < 60 && decide (u.since + 1200000 ≤ s.cycle) then
      { s with logs := { s.logs with
        intake := s.logs.intake ++ [logSummaryRec cls u s.cycle s.epoch], unreported := s.logs.unreported.del cls } }
    else s
  | none => s

/-! ### Host commands (R439) -/

/-- LOG_ALARM_ACK: the result is the count in force. -/
def State.logAlarmAckCmd (s : State) (p : Packet) : State :=
  let s := s.alarmAck (pU64 p 0)
  s.reply p .ok (leBytes 8 (s.reg .LOG_ALARM_ACK))

/-- LOG_MARK: the parameters become the ARGS of an INFO record. -/
def State.logMarkCmd (s : State) (p : Packet) : State :=
  (s.raise clsInfo .log 0x001E 0xFFFF ((List.range 5).map fun k => pU64 p (8 * k))).reply p .ok

/-- LOG_WRITE (R432). -/
def execLogWrite (s : State) : Answer := awake s (logWrite s)
/-- SUMMARY (R436). -/
def execSummary (cls : Nat) (s : State) : Answer := awake s (summary s cls)
/-- LOG_ALARM_ACK (R439). -/
def execLogAlarmAck (hs : Nat) (s : State) : Answer := awake s (s.runOrd hs 0x800 fun p s => s.logAlarmAckCmd p)
/-- LOG_MARK (R439). -/
def execLogMark (hs : Nat) (s : State) : Answer := awake s (s.runOrd hs 0x801 fun p s => s.logMarkCmd p)

end Sys2Proof.Machine
end

