-- ==== Sys2Proof/Machine/Monitor.lean ====
section
/-! DEFINITION. The Choef monitor (R440 to R444): its commands and their answers, as data words and a status. -/
namespace Sys2Proof.Machine
open Sys2Proof

/-- Answer a command (R441): it is counted; one that is valid keeps a new rate in force (R440). [DESIGN CHOICE, log 93] -/
def State.monAnswer (s : State) (st : Status) (data : List Nat := []) : State :=
  let s := s.bump .LOG_CNT2_MON_CMDS
  let s := if st == .monSyntax then s else { s with logs := { s.logs with baudSince := none } }
  s.emit (.monitor data st.val)

/-- The answer of a boot command is its last status too (Table "Identity block"). -/
def State.monBoot (s : State) (st : Status) (data : List Nat := []) : State :=
  (s.setReg .BOOT_STATE_LAST_STATUS 0 st.val).monAnswer st data

/-! ### The rate (R440) -/

/-- The rates, in the order of LOG_MON.BAUD. -/
def baudRates : List Nat := [115200, 230400, 460800, 921600, 1500000, 3000000]

/-- BAUD: the new rate applies after the reply. -/
def baud (s : State) (rate : Nat) : State :=
  if baudRates.contains rate then
    let s := (s.monAnswer .ok).setReg .LOG_MON_BAUD 0 (baudRates.findIdx (· == rate))
    { s with logs := { s.logs with baudSince := some s.cycle } }
  else s.monAnswer .monSyntax

/-- BAUD_TIMEOUT: 5 s without a valid command. -/
def baudTimeout (s : State) : State :=
  match s.logs.baudSince with
  | some c =>
    if c + 6000000000 ≤ s.cycle then
      { s with logs := { s.logs with baudSince := none } }.setReg .LOG_MON_BAUD 0 0
    else s
  | none => s

/-! ### PEEK and POKE (R442) -/

/-- An address of the window that PEEK reaches in production mode: the boot, snapshot and log regions. -/
def peekWindow (a : Nat) : Bool :=
  match winRegion a with
  | .identity | .bootSlot | .bootReply | .helper | .half | .snap | .ring | .index | .counters => true
  | .cmd | .reply | .stage | .reserved => false

/-- A register word that the monitor reaches: no reserved address, no key register. [DEDUCED, log 92] -/
def monReg (a : Nat) : Bool := isRegWord a && !secKey a

/-- A 64-bit word as PEEK reads it in production mode. An address below the stack's and the registers' names a byte of the
window. -/
def State.peekRestricted (s : State) (a : Nat) : Option (Nat × State) :=
  if a < 0x20000000 then (if peekWindow a then some (leNat (s.winBytes a 8), s) else none)
  else match addrKind a with
    | .block => if monReg a then some (s.wordLive a, s) else none
    | .unit _ off => if decide (0x18000 ≤ off) && monReg a then some (s.wordLive a, s) else none
    | _ => none

/-- A 64-bit word as PEEK reads it in development mode. -/
def State.peekFull (s : State) (a : Nat) : Option (Nat × State) :=
  match addrKind a with
  | .sram st _ => let r := s.sramWord st (a / 32 * 32); some (r.2.2.rdLe a 8, r.2.2)
  | .unit u off =>
    if off < 0x14000 then
      if UnitAddr.isFawn u then some (s.rdLe a 8, s) else if UnitAddr.isEland u then some (0, s) else none
    else if monReg a then some (s.wordLive a, s) else none
  | .block => if monReg a then some (s.wordLive a, s) else none
  | .control _ => some (s.rdLe a 8, s)
  | .stack => let r := s.stackRead a 8 7; some (leNat r.1, r.2.2)
  | .reserved => none

/-- Words from an address: all of them, or none when one is out of range. -/
def State.peekWords (a : Nat) : Nat → State → Option (List Nat × State)
  | 0, s => some ([], s)
  | n + 1, s =>
    match (if s.boot.devMode then s.peekFull a else s.peekRestricted a) with
    | none => none
    | some (v, s) => match State.peekWords (a + 8) n s with
      | none => none
      | some (vs, s) => some (v :: vs, s)

/-- PEEK. [DEDUCED, log 92] -/
def peek (s : State) (a n : Nat) : State :=
  if a % 8 != 0 || n == 0 || 256 < n then s.monAnswer .monSyntax
  else match State.peekWords a n s with
    | some (vs, s) => s.monAnswer .ok vs
    | none => s.monAnswer .monRange

/-- A masked write of eight bytes of memory; to the stack it goes as a write of the HOST class, which clears POISON of its word
(R260, R270). [DEDUCED, log 92] -/
def State.pokeMem (s : State) (a mask value : Nat) : State :=
  if mask % 2 ^ 64 == 0 then s
  else
    let bs := leBytes 8 (maskInto 64 (s.rdLe a 8) mask value)
    if inStack a 8 then s.stackWrite a bs 7 else s.wr a bs

/-- Memory that POKE reaches. -/
def pokeMemory (a : Nat) : Bool :=
  match addrKind a with
  | .sram _ _ | .control _ | .stack => true
  | .unit u off => decide (off < 0x14000) && UnitAddr.isFawn u
  | .block | .reserved => false

/-- POKE (R442): registers as REG_WRITE (R340), memory under the mask. [DEDUCED, log 92] -/
def poke (s : State) (a mask value : Nat) : State :=
  if !s.boot.devMode then s.monAnswer .monDevOnly
  else if a % 8 != 0 then s.monAnswer .monSyntax
  else if pokeMemory a then (s.pokeMem a mask value).monAnswer .ok
  else if !monReg a then s.monAnswer .monRange
  else if maskRo a mask then (s.bump .HST_CNT_ACCESS_WRITE_RO).monAnswer .regRo
  else ((s.writeReg a mask value).poked a mask).monAnswer .ok

/-! ### Records and masters (R441, R443) -/

/-- The newest `n` records of a class, newest first, as words. -/
def State.newestRecords (s : State) (cls n : Nat) : List Nat :=
  let t := s.logs.total.getD cls 0
  (List.range (min n (min t (ringLen cls)))).flatMap fun k =>
    dqWords (s.winRd (ringBase cls + 64 * ((t - 1 - k) % ringLen cls)) 64)

/-- LOG. [DESIGN CHOICE, log 93] -/
def monLog (s : State) (cls n : Nat) : State :=
  if 4 < cls || n == 0 || 256 < n then s.monAnswer .monSyntax else s.monAnswer .ok (s.newestRecords cls n)

/-- FROZEN: of each frozen or halted master, its number, whether it is halted, and its fault record as words. -/
def State.frozenList (s : State) : List Nat :=
  s.frozen.flatMap fun (f : Frozen) => [f.master, b2n f.halted] ++ dqWords (logBytes (s.logs.frozenRecs.getD f.master {}) 0)

/-- Every fawn-core register field of a core (R443). [DESIGN CHOICE, log 96] -/
def State.coreRegisters (s : State) (u : Nat) : List Nat :=
  (Reg.all.filter fun r => r.info.space == .fawn).flatMap fun r =>
    (List.range (regCount r)).map fun k => s.view r (u % 4096 * regCount r + k)

/-- The commit or remap that a region manager was serving: 0 none, 1 a commit, 2 a remap. -/
def State.managerServes (s : State) : Nat := if s.ints.remap.isSome then 2 else if s.commit == .idle then 0 else 1

/-- The descriptor and the progress of a mover. -/
def State.moverWords (s : State) (n : Nat) : List Nat :=
  match s.moverPacket n with
  | some p => dqWords (bytesAt p.params 0 24) ++ [b2n p.outcome.isSome]
  | none => []

/-- A master is a region manager: its sequencer counter is a free value (R443). [DESIGN CHOICE, log 12, 93] -/
def isManager (m : Nat) : Bool := decide (2 ≤ m) && decide (m < 16)

/-- The kept state of a frozen or halted master (R443). [DESIGN CHOICE, log 93, 96] -/
def State.inspectData (s : State) (f : Frozen) : List Nat :=
  if f.master < 2 then f.kept ++ [((s.ctl.getD f.master {}).mbox).length, f.addr]
  else if f.master < 16 then [(s.free (2 ^ 32)).1, s.managerServes]
  else if f.master == 16 then f.kept ++ [f.addr]
  else if f.master < 0x10000 then s.moverWords (f.master - 32)
  else if UnitAddr.isFawn (f.master - 0x10000) then s.coreRegisters (f.master - 0x10000)
  else f.kept ++ [f.addr]

/-- The master that INSPECT names: as THAW's parameter, or 0xFF20 + n for mover n. -/
def inspectTarget (v : Nat) : Except Status Nat :=
  if decide (0xFF20 ≤ v) && decide (v < 0xFF24) then .ok (32 + (v - 0xFF20)) else thawTarget v

/-- INSPECT. -/
def inspect (s : State) (v : Nat) : State :=
  match inspectTarget v with
  | .error st => s.monAnswer st
  | .ok m => match s.frozen.find? (·.master == m) with
    | some f => (if isManager m then (s.free (2 ^ 32)).2 else s).monAnswer .ok (s.inspectData f)
    | none => s.monAnswer .notFrozen

/-- THAW. -/
def monThaw (s : State) (v : Nat) : State := let r := s.thawBy v; r.2.monAnswer r.1

/-! ### SERIAL boot (R347, R355, R444) -/

/-- BOOT_SRC is SERIAL; its reserved values act as SERIAL (Table "Strap values"). [DEDUCED, log 86] -/
def State.serial (s : State) : Bool := s.boot.bootSrc != 0

/-- HELPER and ENROL are available. -/
def State.monIdentity (s : State) : Bool := s.serial && s.waitsIdentity

/-- HELPER. -/
def monHelper (s : State) (bs : List Nat) (crc : Nat) : State :=
  if !s.monIdentity then s.monAnswer .monState
  else if crc32c bs != crc then s.monAnswer .monCrc
  else let r := s.helperWith bs; r.2.monBoot r.1

/-- ENROL. -/
def monEnrol (s : State) : State :=
  if !s.monIdentity then s.monAnswer .monState else let r := s.enrolWith; r.2.2.monBoot r.1 r.2.1

/-- The ROM waits for an image. -/
def State.monReady (s : State) : Bool := s.serial && s.reg .BOOT_STATE_STATE == 2

/-- DEVKEY: outside its boot source and state MON_STATE, else without development mode DEV_ONLY (Table "Monitor statuses").
[DESIGN CHOICE, log 93] -/
def monDevkey (s : State) (bs : List Nat) (crc : Nat) : State :=
  if !s.monReady then s.monAnswer .monState
  else if !s.boot.devMode then s.monAnswer .monDevOnly
  else if crc32c bs != crc then s.monAnswer .monCrc
  else let r := s.devkeyWith bs; r.2.monBoot r.1

/-- IMAGE (R444): the header is judged when it has arrived, with the declared length; then the transfer, then the body. -/
def monImage (s : State) (n : Nat) (bs : List Nat) (crc : Nat) : State :=
  if !s.monReady then s.monAnswer .monState
  else
    let header := if n < 4096 then some Status.fwFormat else fwStep1 bs <|> refuseUnless (n == fwTotal bs) .fwFormat <|> s.fwStep26 bs
    match header with
    | some st => s.fwRefused.monBoot st
    | none =>
      if crc32c bs != crc then s.monAnswer .monCrc
      else match s.fwStep79 bs none with
        | .error st => s.fwRefused.monBoot st
        | .ok f => (s.fwStart f).monBoot .ok

/-! ### Commands -/

/-- ID (R441). -/
def execId (s : State) : Answer := awake s (s.monAnswer .ok (dqWords (bytesAt s.identityBlock 0 128)))
/-- BAUD (R440). -/
def execBaud (rate : Nat) (s : State) : Answer := awake s (baud s rate)
/-- BAUD_TIMEOUT (R440). -/
def execBaudTimeout (s : State) : Answer := awake s (baudTimeout s)
/-- PEEK (R442). -/
def execPeek (addr count : Nat) (s : State) : Answer := awake s (peek s addr count)
/-- POKE (R442). -/
def execPoke (addr mask value : Nat) (s : State) : Answer := awake s (poke s addr mask value)
/-- LOG (R441). -/
def execLog (cls n : Nat) (s : State) : Answer := awake s (monLog s cls n)
/-- FAULTS (R441). -/
def execFaults (s : State) : Answer := awake s (monLog s 1 256)
/-- FROZEN (R441). -/
def execFrozen (s : State) : Answer := awake s (s.monAnswer .ok s.frozenList)
/-- INSPECT (R443). -/
def execInspect (master : Nat) (s : State) : Answer := awake s (inspect s master)
/-- MON_THAW (R441). -/
def execMonThaw (master : Nat) (s : State) : Answer := awake s (monThaw s master)
/-- HELPER (R355, R441). -/
def execHelper (bytes : List Nat) (crc : Nat) (s : State) : Answer := awake s (monHelper s bytes crc)
/-- ENROL (R355, R441). -/
def execEnrol (s : State) : Answer := awake s (monEnrol s)
/-- DEVKEY (R441). -/
def execDevkey (bytes : List Nat) (crc : Nat) (s : State) : Answer := awake s (monDevkey s bytes crc)
/-- IMAGE (R444). -/
def execImage (length : Nat) (bytes : List Nat) (crc : Nat) (s : State) : Answer := awake s (monImage s length bytes crc)

end Sys2Proof.Machine
end

