-- ==== Sys2Proof/Machine/Pins.lean ====
section
/-! DEFINITION. Reset, the straps, undervoltage, the analogue trip and cold (R2, R346, R347, R452 to R462). -/
namespace Sys2Proof.Machine
open Sys2Proof

/-- Internal reset for a reason: every SRAM and register content is lost and nothing drives a pin (R2, R454, R459). The queue of
commands, the journal and the count of free values are the model's own and stay. [DEDUCED, log 6, 8] -/
def State.inReset (s : State) (why : ResetPhase) : State :=
  { stepping := s.stepping, pending := s.pending, out := s.out, freeIdx := s.freeIdx, cycle := s.cycle, phase := why }

/-- RESET_ASSERT (R459): RESETn falls. The trip goes on holding the device, and RESETn's time low counts for it (R460). [DEDUCED, log 94] -/
def resetAssert (s : State) : State :=
  match s.phase with
  | .running | .undervolt | .cold => s.inReset (.resetn s.cycle)
  | .tripped none => { s with phase := .tripped (some s.cycle) }
  | .tripped (some _) | .resetn _ => s

/-- RESET_RELEASE (R346, R347, R452): internal reset ends, the straps are sampled and the ROM starts on control core 0; cycles count from
here. [DEDUCED, log 94] -/
def resetRelease (s : State) (bootSrc : Nat) (devMode : Bool) : State :=
  match s.phase with
  | .running | .tripped _ => s
  | .resetn _ | .undervolt | .cold =>
    let s := { s.inReset .running with cycle := 0, boot := { bootSrc := bootSrc % 4, devMode := devMode } }
    if bootSrc % 4 == 0 then s else s.setReg .BOOT_STATE_STATE 0 7

/-- UNDERVOLTAGE (R454): a monitored rail stayed below its minimum for 2 µs. [DEDUCED, log 94] -/
def undervoltage (s : State) : State := if s.phase = .running then s.inReset .undervolt else s

/-- JUNCTION_COLD (R462): the junction is below 0 °C. -/
def junctionCold (s : State) : State := if s.phase = .running then s.inReset .cold else s

/-- THERMAL_TRIP (R460): the trip reads 130 °C; it acts in every state. -/
def thermalTrip (s : State) : State :=
  match s.phase with
  | .tripped _ => s
  | .resetn c => s.inReset (.tripped (some c))
  | .running | .undervolt | .cold => s.inReset (.tripped none)

/-- TRIP_RELEASE (R460): the trip reads below 120 °C and RESETn has been low for 10 µs. -/
def tripRelease (s : State) : State :=
  match s.phase with
  | .tripped (some c) => if c + 12000 ≤ s.cycle then { s with phase := .resetn c } else s
  | _ => s

/-- RESET_ASSERT (R459). -/
def execResetAssert (s : State) : Answer := .next (resetAssert s)
/-- RESET_RELEASE (R452). -/
def execResetRelease (bootSrc : Nat) (devMode : Bool) (s : State) : Answer := .next (resetRelease s bootSrc devMode)
/-- UNDERVOLTAGE (R454). -/
def execUndervoltage (s : State) : Answer := .next (undervoltage s)
/-- THERMAL_TRIP (R460). -/
def execThermalTrip (s : State) : Answer := .next (thermalTrip s)
/-- JUNCTION_COLD (R462). -/
def execJunctionCold (s : State) : Answer := .next (junctionCold s)
/-- TRIP_RELEASE (R460). -/
def execTripRelease (s : State) : Answer := .next (tripRelease s)

end Sys2Proof.Machine
end

