-- ==== Sys2Proof/Machine/Power.lean ====
section
/-! DEFINITION. Power leave and heat (R414 to R429): requests, rounds and releases of leave, the thermal levels and drain, and the host's
power commands. -/
namespace Sys2Proof.Machine
open Sys2Proof

/-! ### Requests and releases (R421, R423) -/

/-- Requests and grants of one requester in a class. -/
def State.leaveCount (s : State) (cls req : Nat) : Nat :=
  ((s.power.pending ++ s.power.granted).filter fun g => g.cls == cls && g.req == req).length

/-- Restores of a steward that have an entry of the restore queue (R423). -/
def State.restoresOf (s : State) (steward : Nat) : Nat := ((s.restoreList steward).filter (·.queued)).length

/-- Memory mover n runs a MOVE to a port that has not come to its outcome (R341). -/
def State.readoutRuns (s : State) (n : Nat) : Bool :=
  match s.moverPacket n with
  | some p => p.opcode % 4096 == 0x100 && bitAt (pU8 p 20) 0 && p.outcome.isNone
  | none => false

/-- Requests and grants of a refinement job. -/
def State.jobLeaves (s : State) (j : Nat) : Nat := ((s.power.pending ++ s.power.granted).filter fun g => g.cls == 4 && g.work == j).length

/-- A job may ask for one more cluster: it waits, runs or is suspended, with fewer clusters joined and asked for than its COUNT
(R216). -/
def State.jobAsks (s : State) (j : Nat) : Bool :=
  match s.jobs.get? j with
  | some b => [1, 2, 3].contains (s.reg .NSL_JOB_STATE_STATE j) && decide (s.jobLeaves j < b.count) && !s.draining
  | none => false

/-- Work of a class that has not asked for the leave it needs (Table "Leave classes"). -/
def State.leaveWanted (s : State) (cls req : Nat) (region : Option Nat) (work : Nat) : Bool :=
  match cls with
  | 1 => region == some (UnitAddr.region req) && decide (s.leaveCount 1 req < s.restoresOf req)
  | 2 => match region with
    | some r => req == 0x1000 + r && !s.ints.queue.isEmpty && s.siteIdle r && s.leaveCount 2 req == 0
    | none => false
  | 3 => region.isNone && decide (0x2000 ≤ req) && decide (req < 0x2004) && s.readoutRuns (req - 0x2000) && s.leaveCount 3 req == 0
  | 4 => region.isSome && decide (work < 8) && decide (0x3000 + 16 * work ≤ req) && decide (req < 0x3000 + 16 * work + 136) && s.jobAsks work
      && s.leaveCount 4 req == 0
  | 5 => region.isNone && req == 0x4000 && s.flag .MEM_CTRL_SCRUB_EN && decide (s.memS.scrubDue ≤ s.cycle) && s.leaveCount 5 req == 0
  | _ => false

/-- LEAVE_REQUEST (R421): work asks in its class, at the class's size. [DEDUCED, log 89] -/
def leaveRequest (s : State) (cls req : Nat) (region : Option Nat) (work : Nat) : State :=
  if s.leaveWanted cls req region work then
    s.askLeave { cls := cls, req := req, units := s.leaveSize cls work, region := region, work := work }
  else s

/-- Grants of one requester in a class. -/
def State.grantCount (s : State) (cls req : Nat) : Nat := (s.power.granted.filter fun g => g.cls == cls && g.req == req).length

/-- The work of a grant has ended (Table "Leave classes", Held). -/
def State.workEnded (s : State) (cls req : Nat) : Bool :=
  match cls with
  | 1 => decide (s.restoresOf req < s.grantCount 1 req)
  | 2 => !s.ints.active.any (fun x => x.site == some (req - 0x1000))
  | 3 => !s.readoutRuns (req - 0x2000)
  | 4 => match s.power.granted.find? (fun g => g.cls == 4 && g.req == req) with
    | some g => !([1, 2, 3].contains (s.reg .NSL_JOB_STATE_STATE g.work))
    | none => false
  | _ => true

/-- LEAVE_RELEASE (R421). [DEDUCED, log 89] -/
def leaveRelease (s : State) (cls req : Nat) : State :=
  if s.workEnded cls req then
    let work := (s.power.granted.find? fun g => g.cls == cls && g.req == req).map (·.work)
    let s := s.releaseLeave cls req
    match cls, work with
    | 4, some j => s.jobLeaveField j
    | _, _ => s
  else s

/-- LEAVE_ROUND (R422): at every multiple of 16 cycles the arbiter on control core 1 visits the requests made 8 cycles before or
earlier. [DEDUCED, log 89] -/
def leaveRound (s : State) : State :=
  if s.cycle % 16 ≠ 0 || s.isFrozen 1 then s
  else s.leaveVisit (leaveOrder (s.power.pending.filter fun q => decide (q.cyc + 8 ≤ s.cycle)))

/-! ### Heat (R425 to R427) -/

/-- The highest valid reading and its sensor, the first of equals. -/
def hottest : Nat → List SensorReading → Option (Int × Nat)
  | _, [] => none
  | k, x :: xs =>
    match x, hottest (k + 1) xs with
    | none, r => r
    | some v, none => some (v, k)
    | some v, some (w, j) => if v < w then some (w, j) else some (v, k)

/-- Fewer than 8 valid sensors act as 125 °C. -/
def junction (rs : List SensorReading) : Int :=
  if (rs.filter (·.isSome)).length < 8 then 125 else match hottest 0 rs with | some (v, _) => v | none => 125

/-- The level that Table "Thermal levels" gives from a level at a junction temperature; level 3 is left by THM_RESUME only. [DEDUCED, log 90] -/
def thermalLevel (level : Nat) (tj : Int) : Nat :=
  if level == 3 || 125 ≤ tj then 3
  else if 115 ≤ tj || (level == 2 && 110 ≤ tj) then 2
  else if 105 ≤ tj || (1 ≤ level && 100 ≤ tj) then 1
  else 0

/-- One sensor's reading, and its self-test (THM_SENSs, THM_STATUS.BAD). -/
def State.sensorRead (s : State) (k : Nat) (x : SensorReading) : State :=
  let bad := s.reg .THM_STATUS_BAD
  match x with
  | some v => (s.setReg .THM_SENS_DEG k (ux 8 v)).setReg .THM_STATUS_BAD 0 (setBits bad k 1 0)
  | none => if bitAt bad k then s else (s.setReg .THM_STATUS_BAD 0 (bad + 2 ^ k)).raise clsWarn .thm 0x001B

/-- The level rises: its actions and counts (R425). [DEDUCED, log 90] -/
def State.levelUp (s : State) (old new : Nat) : State :=
  let s := if old == 0 && 1 ≤ new then (s.bump .THM_CNT_WARN).raise clsWarn .thm 0x001C else s
  if old < 2 && 2 ≤ new then
    let s := (s.bump .THM_CNT_REVOKE).revokeAll
    (List.range 8).foldl (fun (s : State) j => (s.suspendJob j).jobLeaveField j) s
  else s

/-- The thermal drain starts (R426). -/
def State.thermalDrain (s : State) : State :=
  let s := ((s.setReg .THM_STATUS_DRAIN 0 1).setReg .THM_DRAIN_TB_TB 0 s.tb.tb).bump .THM_CNT_DRAIN
  let s := { s with power := { s.power with thermalFrom := some s.cycle } }
  (s.raise clsAlarm .thm 0x001D).suspendJobs

/-- THERMAL_SAMPLE (R425, R426): sixteen readings. [DEDUCED, log 90] -/
def thermalSample (s : State) (rs : List SensorReading) : State :=
  let s := ((List.range 16).zip rs).foldl (fun (s : State) (x : Nat × SensorReading) => s.sensorRead x.1 x.2) s
  let tj := junction rs
  let old := s.reg .THM_STATUS_LEVEL
  let new := thermalLevel old tj
  let sensor := match hottest 0 rs with | some (_, k) => k | none => 0
  let s := ((s.setReg .THM_STATUS_TJ 0 (ux 8 tj)).setReg .THM_STATUS_SENSOR 0 sensor).setReg .THM_STATUS_LEVEL 0 new
  let s := if sx 8 (s.reg .THM_PEAK_TJ) < tj then s.setReg .THM_PEAK_TJ 0 (ux 8 tj) else s
  let s := s.levelUp old new
  if old < 3 && new == 3 then s.thermalDrain else s

/-- The junction temperature of the last sample. -/
def State.tj (s : State) : Int := sx 8 (s.reg .THM_STATUS_TJ)

/-- THM_RESUME (R427, R428): ends the thermal drain below 110 °C. -/
def State.thmResumeCmd (s : State) (p : Packet) : State :=
  if !s.flag .THM_STATUS_DRAIN then s.reply p .thmNoDrain
  else if 110 ≤ s.tj then s.reply p .thmHot
  else
    let s := { s with power := { s.power with thermalFrom := none } }
    let s := (s.setReg .THM_STATUS_DRAIN 0 0).setReg .THM_STATUS_LEVEL 0 (if 100 ≤ s.tj then 1 else 0)
    s.reply p .ok

/-- LV_QUERY (R428). [DESIGN CHOICE, log 31] -/
def State.lvQueryCmd (s : State) (p : Packet) : State :=
  s.reply p .ok (leBytes 2 (s.freeLeaveIn s.regs).toNat ++ leBytes 2 s.leaveReserved ++ leBytes 2 (s.grantedWhere fun _ => true)
    ++ [s.reg .THM_STATUS_LEVEL])

/-- LEAVE_REQUEST (R421). -/
def execLeaveRequest (cls req : Nat) (region : Option Nat) (work : Nat) (s : State) : Answer := awake s (leaveRequest s cls req region work)
/-- LEAVE_ROUND (R422). -/
def execLeaveRound (s : State) : Answer := awake s (leaveRound s)
/-- LEAVE_RELEASE (R421). -/
def execLeaveRelease (cls req : Nat) (s : State) : Answer := awake s (leaveRelease s cls req)
/-- THERMAL_SAMPLE (R425). -/
def execThermalSample (readings : List SensorReading) (s : State) : Answer := awake s (thermalSample s readings)
/-- THM_RESUME (R427). -/
def execThmResume (hs : Nat) (s : State) : Answer := awake s (s.runOrd hs 0x700 fun p s => s.thmResumeCmd p)
/-- LV_QUERY (R428). -/
def execLvQuery (hs : Nat) (s : State) : Answer := awake s (s.runOrd hs 0x701 fun p s => s.lvQueryCmd p)

end Sys2Proof.Machine
end

