-- ==== Sys2Proof/Machine/Dispatch.lean ====
section
/-! DEFINITION. The command to its meaning: one arm a row of the table. -/
namespace Sys2Proof.Machine
open Sys2Proof

/-- The effect of a command on everything but the queue. -/
def exec (i : Instr) (s : State) : Host.Outcome State Fault Refusal :=
  match i with
  | .registerWrite addr mask value master => Sys2Proof.Machine.execRegisterWrite addr mask value s master
  | .mailboxMessage core => Sys2Proof.Machine.execMailboxMessage core s
  | .chipSysid value => Sys2Proof.Machine.execChipSysid value s
  | .commit hs => Sys2Proof.Machine.execCommit hs s
  | .confirm region => Sys2Proof.Machine.execConfirm region s
  | .commitAbort => Sys2Proof.Machine.execCommitAbort s
  | .commitBroadcast => Sys2Proof.Machine.execCommitBroadcast s
  | .commitCycle => Sys2Proof.Machine.execCommitCycle s
  | .heldCommit => Sys2Proof.Machine.execHeldCommit s
  | .snapshotTick => Sys2Proof.Machine.execSnapshotTick s
  | .sensor port f => Sys2Proof.Machine.execSensor port f s
  | .eventIncomplete slot => Sys2Proof.Machine.execEventIncomplete slot s
  | .eventRelease slot => Sys2Proof.Machine.execEventRelease slot s
  | .noinjectMark slot => Sys2Proof.Machine.execNoinjectMark slot s
  | .blockRecordWrite => Sys2Proof.Machine.execBlockRecordWrite s
  | .cndTblLo value => Sys2Proof.Machine.execCndTblLo value s
  | .cndTblHi value => Sys2Proof.Machine.execCndTblHi value s
  | .tokenHop port dir upset => Sys2Proof.Machine.execTokenHop port dir upset s
  | .delayLineRelease port => Sys2Proof.Machine.execDelayLineRelease port s
  | .fire unit => Sys2Proof.Machine.execFire unit s
  | .readyFire unit => Sys2Proof.Machine.execReadyFire unit s
  | .passOutput unit => Sys2Proof.Machine.execPassOutput unit s
  | .outputRecordWrite unit => Sys2Proof.Machine.execOutputRecordWrite unit s
  | .accExpired unit => Sys2Proof.Machine.execAccExpired unit s
  | .storeExpiry unit input => Sys2Proof.Machine.execStoreExpiry unit input s
  | .steerPair port => Sys2Proof.Machine.execSteerPair port s
  | .steerRelease port => Sys2Proof.Machine.execSteerRelease port s
  | .expiredTagLeave port => Sys2Proof.Machine.execExpiredTagLeave port s
  | .fabFirstErrRearm => Sys2Proof.Machine.execFabFirstErrRearm s
  | .finalResultToken row => Sys2Proof.Machine.execFinalResultToken row s
  | .flagPost slot => Sys2Proof.Machine.execFlagPost slot s
  | .cutOff slot => Sys2Proof.Machine.execCutOff slot s
  | .verdictMark slot => Sys2Proof.Machine.execVerdictMark slot s
  | .checkResolve slot vrdFail => Sys2Proof.Machine.execCheckResolve slot vrdFail s
  | .validation slot => Sys2Proof.Machine.execValidation slot s
  | .verdPulseEnd slot => Sys2Proof.Machine.execVerdPulseEnd slot s
  | .add u d a b => Sys2Proof.Machine.execAdd u d a b s
  | .sub u d a b => Sys2Proof.Machine.execSub u d a b s
  | .and u d a b => Sys2Proof.Machine.execAnd u d a b s
  | .or u d a b => Sys2Proof.Machine.execOr u d a b s
  | .xor u d a b => Sys2Proof.Machine.execXor u d a b s
  | .sll u d a b => Sys2Proof.Machine.execSll u d a b s
  | .srl u d a b => Sys2Proof.Machine.execSrl u d a b s
  | .sra u d a b => Sys2Proof.Machine.execSra u d a b s
  | .slt u d a b => Sys2Proof.Machine.execSlt u d a b s
  | .sltu u d a b => Sys2Proof.Machine.execSltu u d a b s
  | .min u d a b => Sys2Proof.Machine.execMin u d a b s
  | .max u d a b => Sys2Proof.Machine.execMax u d a b s
  | .clz u d a => Sys2Proof.Machine.execClz u d a s
  | .popc u d a => Sys2Proof.Machine.execPopc u d a s
  | .mul u d a b => Sys2Proof.Machine.execMul u d a b s
  | .mulh u d a b => Sys2Proof.Machine.execMulh u d a b s
  | .mulhu u d a b => Sys2Proof.Machine.execMulhu u d a b s
  | .div u d a b => Sys2Proof.Machine.execDiv u d a b s
  | .divu u d a b => Sys2Proof.Machine.execDivu u d a b s
  | .rem u d a b => Sys2Proof.Machine.execRem u d a b s
  | .remu u d a b => Sys2Proof.Machine.execRemu u d a b s
  | .addi u d a imm => Sys2Proof.Machine.execAddi u d a imm s
  | .andi u d a imm => Sys2Proof.Machine.execAndi u d a imm s
  | .ori u d a imm => Sys2Proof.Machine.execOri u d a imm s
  | .xori u d a imm => Sys2Proof.Machine.execXori u d a imm s
  | .slti u d a imm => Sys2Proof.Machine.execSlti u d a imm s
  | .lui u d imm => Sys2Proof.Machine.execLui u d imm s
  | .slli u d a sh => Sys2Proof.Machine.execSlli u d a sh s
  | .srli u d a sh => Sys2Proof.Machine.execSrli u d a sh s
  | .srai u d a sh => Sys2Proof.Machine.execSrai u d a sh s
  | .exts u d a pos widM1 => Sys2Proof.Machine.execExts u d a pos widM1 s
  | .extu u d a pos widM1 => Sys2Proof.Machine.execExtu u d a pos widM1 s
  | .ldw u d a imm => Sys2Proof.Machine.execLdw u d a imm s
  | .ldb u d a imm => Sys2Proof.Machine.execLdb u d a imm s
  | .ldbu u d a imm => Sys2Proof.Machine.execLdbu u d a imm s
  | .ldv u vd a imm => Sys2Proof.Machine.execLdv u vd a imm s
  | .stw u b a imm => Sys2Proof.Machine.execStw u b a imm s
  | .stb u b a imm => Sys2Proof.Machine.execStb u b a imm s
  | .stv u vb a imm => Sys2Proof.Machine.execStv u vb a imm s
  | .beq u a b off => Sys2Proof.Machine.execBeq u a b off s
  | .bne u a b off => Sys2Proof.Machine.execBne u a b off s
  | .blt u a b off => Sys2Proof.Machine.execBlt u a b off s
  | .bge u a b off => Sys2Proof.Machine.execBge u a b off s
  | .bltu u a b off => Sys2Proof.Machine.execBltu u a b off s
  | .bgeu u a b off => Sys2Proof.Machine.execBgeu u a b off s
  | .jal u d imm => Sys2Proof.Machine.execJal u d imm s
  | .jalr u d a imm => Sys2Proof.Machine.execJalr u d a imm s
  | .fetchEcc u => Sys2Proof.Machine.execFetchEcc u s
  | .illegal u => Sys2Proof.Machine.execIllegal u s
  | .fadd u d a b => Sys2Proof.Machine.execFadd u d a b s
  | .fsub u d a b => Sys2Proof.Machine.execFsub u d a b s
  | .fmul u d a b => Sys2Proof.Machine.execFmul u d a b s
  | .fma u d a b => Sys2Proof.Machine.execFma u d a b s
  | .fdiv u d a b => Sys2Proof.Machine.execFdiv u d a b s
  | .fsqrt u d a => Sys2Proof.Machine.execFsqrt u d a s
  | .fmin u d a b => Sys2Proof.Machine.execFmin u d a b s
  | .fmax u d a b => Sys2Proof.Machine.execFmax u d a b s
  | .flt u d a b => Sys2Proof.Machine.execFlt u d a b s
  | .feq u d a b => Sys2Proof.Machine.execFeq u d a b s
  | .fcvtif u d a => Sys2Proof.Machine.execFcvtif u d a s
  | .fcvtfi u d a => Sys2Proof.Machine.execFcvtfi u d a s
  | .recv u d a v inp => Sys2Proof.Machine.execRecv u d a v inp s
  | .recvWaitLimit u d a v inp => Sys2Proof.Machine.execRecvWaitLimit u d a v inp s
  | .recvo u d v inp => Sys2Proof.Machine.execRecvo u d v inp s
  | .send u a b v => Sys2Proof.Machine.execSend u a b v s
  | .rdhdr u d => Sys2Proof.Machine.execRdhdr u d s
  | .wlw u d a win off => Sys2Proof.Machine.execWlw u d a win off s
  | .wlv u vd a win off => Sys2Proof.Machine.execWlv u vd a win off s
  | .vadd u vd va vb w => Sys2Proof.Machine.execVadd u vd va vb w s
  | .vsub u vd va vb w => Sys2Proof.Machine.execVsub u vd va vb w s
  | .vmul u vd va vb w => Sys2Proof.Machine.execVmul u vd va vb w s
  | .vmin u vd va vb w => Sys2Proof.Machine.execVmin u vd va vb w s
  | .vmax u vd va vb w => Sys2Proof.Machine.execVmax u vd va vb w s
  | .vand u vd va vb => Sys2Proof.Machine.execVand u vd va vb s
  | .vor u vd va vb => Sys2Proof.Machine.execVor u vd va vb s
  | .vxor u vd va vb => Sys2Proof.Machine.execVxor u vd va vb s
  | .vshl u vd va sr w => Sys2Proof.Machine.execVshl u vd va sr w s
  | .vshr u vd va sr w => Sys2Proof.Machine.execVshr u vd va sr w s
  | .vcmpgt u vd va vb w => Sys2Proof.Machine.execVcmpgt u vd va vb w s
  | .vsel u vd va vb => Sys2Proof.Machine.execVsel u vd va vb s
  | .vsplat u vd sr w => Sys2Proof.Machine.execVsplat u vd sr w s
  | .vget u sr va lane w => Sys2Proof.Machine.execVget u sr va lane w s
  | .vput u vd lane sr w => Sys2Proof.Machine.execVput u vd lane sr w s
  | .vunpk8 u vd va part sr => Sys2Proof.Machine.execVunpk8 u vd va part sr s
  | .vunpk4 u vd va part sr => Sys2Proof.Machine.execVunpk4 u vd va part sr s
  | .vrmax u sr va w => Sys2Proof.Machine.execVrmax u sr va w s
  | .vrsum u sr va w => Sys2Proof.Machine.execVrsum u sr va w s
  | .vsort u vd va w => Sys2Proof.Machine.execVsort u vd va w s
  | .vmerge u vd va vb w => Sys2Proof.Machine.execVmerge u vd va vb w s
  | .fawnNop u => Sys2Proof.Machine.execFawnNop u s
  | .rdtb u d => Sys2Proof.Machine.execRdtb u d s
  | .rdjob u d => Sys2Proof.Machine.execRdjob u d s
  | .cadd u d a n => Sys2Proof.Machine.execCadd u d a n s
  | .crd u d n => Sys2Proof.Machine.execCrd u d n s
  | .pzclr u => Sys2Proof.Machine.execPzclr u s
  | .rdpz u d => Sys2Proof.Machine.execRdpz u d s
  | .halt u => Sys2Proof.Machine.execHalt u s
  | .wait u imm => Sys2Proof.Machine.execWait u imm s
  | .fabScCnt steward n value => Sys2Proof.Machine.execFabScCnt steward n value s
  | .load hs => Sys2Proof.Machine.execLoad hs s
  | .bankLoad hs => Sys2Proof.Machine.execBankLoad hs s
  | .shadowWrite slot => Sys2Proof.Machine.execShadowWrite slot s
  | .unload hs => Sys2Proof.Machine.execUnload hs s
  | .promote hs => Sys2Proof.Machine.execPromote hs s
  | .cancel hs => Sys2Proof.Machine.execCancel hs s
  | .keyRegister hs => Sys2Proof.Machine.execKeyRegister hs s
  | .slotDrainEnd slot => Sys2Proof.Machine.execSlotDrainEnd slot s
  | .sigRequired value => Sys2Proof.Machine.execSigRequired value s
  | .refStart hs => Sys2Proof.Machine.execRefStart hs s
  | .refCancel hs => Sys2Proof.Machine.execRefCancel hs s
  | .sampleWrite slot => Sys2Proof.Machine.execSampleWrite slot s
  | .sampleDrop slot => Sys2Proof.Machine.execSampleDrop slot s
  | .jobStepStart job => Sys2Proof.Machine.execJobStepStart job s
  | .jobStepEnd job grads consts => Sys2Proof.Machine.execJobStepEnd job grads s consts
  | .jobStepAbandon job => Sys2Proof.Machine.execJobStepAbandon job s
  | .rowWaitExpiry group => Sys2Proof.Machine.execRowWaitExpiry group s
  | .trigEdge line edge => Sys2Proof.Machine.execTrigEdge line edge s
  | .coincidenceFire unit => Sys2Proof.Machine.execCoincidenceFire unit s
  | .lineDriveEnd line => Sys2Proof.Machine.execLineDriveEnd line s
  | .groupRearm group => Sys2Proof.Machine.execGroupRearm group s
  | .preCopy group => Sys2Proof.Machine.execPreCopy group s
  | .rowWrite group => Sys2Proof.Machine.execRowWrite group s
  | .creditRefill => Sys2Proof.Machine.execCreditRefill s
  | .segmentComplete seq => Sys2Proof.Machine.execSegmentComplete seq s
  | .segmentRelease value => Sys2Proof.Machine.execSegmentRelease value s
  | .spbForce value => Sys2Proof.Machine.execSpbForce value s
  | .arm group => Sys2Proof.Machine.execArm group s
  | .stop group => Sys2Proof.Machine.execStop group s
  | .spbEnvLo value => Sys2Proof.Machine.execSpbEnvLo value s
  | .spbEnvHi value => Sys2Proof.Machine.execSpbEnvHi value s
  | .restoreRequest steward => Sys2Proof.Machine.execRestoreRequest steward s
  | .restoreWrite steward => Sys2Proof.Machine.execRestoreWrite steward s
  | .retentionWrite => Sys2Proof.Machine.execRetentionWrite s
  | .refresh deg => Sys2Proof.Machine.execRefresh deg s
  | .scrubPass found => Sys2Proof.Machine.execScrubPass s found
  | .classCredit => Sys2Proof.Machine.execClassCredit s
  | .memFirstUeRearm => Sys2Proof.Machine.execMemFirstUeRearm s
  | .laneLock port lane rx => Sys2Proof.Machine.execLaneLock port lane s rx
  | .laneLockLoss port lane rx => Sys2Proof.Machine.execLaneLockLoss port lane s rx
  | .losAssert port lane => Sys2Proof.Machine.execLosAssert port lane s
  | .losClear port lane => Sys2Proof.Machine.execLosClear port lane s
  | .marker port row => Sys2Proof.Machine.execMarker port row s
  | .trainTimeout port => Sys2Proof.Machine.execTrainTimeout port s
  | .markerTimeout port => Sys2Proof.Machine.execMarkerTimeout port s
  | .darkRetry port => Sys2Proof.Machine.execDarkRetry port s
  | .opxPctrlEn port en => Sys2Proof.Machine.execOpxPctrlEn port en s
  | .deep port value => Sys2Proof.Machine.execDeep port value s
  | .deepTimeout port => Sys2Proof.Machine.execDeepTimeout port s
  | .lpi port blocks => Sys2Proof.Machine.execLpi port blocks s
  | .idle port express byte => Sys2Proof.Machine.execIdle port express byte s
  | .token port f => Sys2Proof.Machine.execToken port f s
  | .verdict port f => Sys2Proof.Machine.execVerdict port f s
  | .void port f => Sys2Proof.Machine.execVoid port f s
  | .ack port f => Sys2Proof.Machine.execAck port f s
  | .retry port f => Sys2Proof.Machine.execRetry port f s
  | .nak port f => Sys2Proof.Machine.execNak port f s
  | .ackTimer port => Sys2Proof.Machine.execAckTimer port s
  | .retryRepeat port => Sys2Proof.Machine.execRetryRepeat port s
  | .opxLctrl port lane mask value => Sys2Proof.Machine.execOpxLctrl port lane mask value s
  | .errorInjection port lane => Sys2Proof.Machine.execErrorInjection port lane s
  | .tbInc value => Sys2Proof.Machine.execTbInc value s
  | .refclkLoss => Sys2Proof.Machine.execRefclkLoss s
  | .stepAdd => Sys2Proof.Machine.execStepAdd s
  | .stepSetPps => Sys2Proof.Machine.execStepSetPps s
  | .ppsEdge ago32 => Sys2Proof.Machine.execPpsEdge ago32 s
  | .ppsLoss => Sys2Proof.Machine.execPpsLoss s
  | .soft => Sys2Proof.Machine.execSoft s
  | .sync port f ago32 => Sys2Proof.Machine.execSync port f ago32 s
  | .pdelayReq port f ago32 => Sys2Proof.Machine.execPdelayReq port f ago32 s
  | .pdelayResp port f ago32 => Sys2Proof.Machine.execPdelayResp port f ago32 s
  | .tbMaster value => Sys2Proof.Machine.execTbMaster value s
  | .holdover => Sys2Proof.Machine.execHoldover s
  | .actionArm slot value => Sys2Proof.Machine.execActionArm slot value s
  | .actionDisarm slot => Sys2Proof.Machine.execActionDisarm slot s
  | .actionFire slot => Sys2Proof.Machine.execActionFire slot s
  | .pulseEnd pin => Sys2Proof.Machine.execPulseEnd pin s
  | .act ch bank row => Sys2Proof.Machine.execAct ch bank row s
  | .rd16 ch bank col => Sys2Proof.Machine.execRd16 ch bank col s
  | .rd32 ch bank col => Sys2Proof.Machine.execRd32 ch bank col s
  | .wr16 ch bank col data => Sys2Proof.Machine.execWr16 ch bank col data s
  | .wr32 ch bank col data => Sys2Proof.Machine.execWr32 ch bank col data s
  | .mwr ch bank col data mask => Sys2Proof.Machine.execMwr ch bank col data mask s
  | .prepb ch bank => Sys2Proof.Machine.execPrepb ch bank s
  | .preab ch => Sys2Proof.Machine.execPreab ch s
  | .refab ch => Sys2Proof.Machine.execRefab ch s
  | .refpb ch bank => Sys2Proof.Machine.execRefpb ch bank s
  | .rfm ch bank => Sys2Proof.Machine.execRfm ch bank s
  | .cas ch op => Sys2Proof.Machine.execCas ch op s
  | .mrw ch mr value => Sys2Proof.Machine.execMrw ch mr value s
  | .mrr ch mr => Sys2Proof.Machine.execMrr ch mr s
  | .mpc ch op => Sys2Proof.Machine.execMpc ch op s
  | .sre ch deep => Sys2Proof.Machine.execSre ch s deep
  | .srx ch => Sys2Proof.Machine.execSrx ch s
  | .pde ch => Sys2Proof.Machine.execPde ch s
  | .pdx ch => Sys2Proof.Machine.execPdx ch s
  | .slotScan => Sys2Proof.Machine.execSlotScan s
  | .nop hs => Sys2Proof.Machine.execNop hs s
  | .regRead hs => Sys2Proof.Machine.execRegRead hs s
  | .regWrite hs => Sys2Proof.Machine.execRegWrite hs s
  | .thaw hs => Sys2Proof.Machine.execThaw hs s
  | .move hs => Sys2Proof.Machine.execMove hs s
  | .moverDispatch => Sys2Proof.Machine.execMoverDispatch s
  | .moverDone mover => Sys2Proof.Machine.execMoverDone mover s
  | .stageMap hs => Sys2Proof.Machine.execStageMap hs s
  | .stageFlush hs => Sys2Proof.Machine.execStageFlush hs s
  | .stageRelease hs => Sys2Proof.Machine.execStageRelease hs s
  | .actArm hs => Sys2Proof.Machine.execActArm hs s
  | .resetAssert => Sys2Proof.Machine.execResetAssert s
  | .resetRelease bootSrc devMode => Sys2Proof.Machine.execResetRelease bootSrc devMode s
  | .undervoltage => Sys2Proof.Machine.execUndervoltage s
  | .thermalTrip => Sys2Proof.Machine.execThermalTrip s
  | .junctionCold => Sys2Proof.Machine.execJunctionCold s
  | .bootHelper => Sys2Proof.Machine.execBootHelper s
  | .bootEnrol => Sys2Proof.Machine.execBootEnrol s
  | .bootDevkey => Sys2Proof.Machine.execBootDevkey s
  | .bootChunk => Sys2Proof.Machine.execBootChunk s
  | .fwStage hs => Sys2Proof.Machine.execFwStage hs s
  | .fwVerify hs => Sys2Proof.Machine.execFwVerify hs s
  | .fwActivate hs => Sys2Proof.Machine.execFwActivate hs s
  | .bankSwitch => Sys2Proof.Machine.execBankSwitch s
  | .quiesceTimeout => Sys2Proof.Machine.execQuiesceTimeout s
  | .fwConfirm hs => Sys2Proof.Machine.execFwConfirm hs s
  | .fwAbort hs => Sys2Proof.Machine.execFwAbort hs s
  | .confirmTimeout => Sys2Proof.Machine.execConfirmTimeout s
  | .revert => Sys2Proof.Machine.execRevert s
  | .forcedRevert => Sys2Proof.Machine.execForcedRevert s
  | .attest hs => Sys2Proof.Machine.execAttest hs s
  | .checkPost slot post => Sys2Proof.Machine.execCheckPost slot post s
  | .seqMismatch unit block => Sys2Proof.Machine.execSeqMismatch unit block s
  | .replayStart => Sys2Proof.Machine.execReplayStart s
  | .replayComplete region r => Sys2Proof.Machine.execReplayComplete region r s
  | .replayLimit => Sys2Proof.Machine.execReplayLimit s
  | .lateCorrected slot => Sys2Proof.Machine.execLateCorrected slot s
  | .decideTimeout => Sys2Proof.Machine.execDecideTimeout s
  | .intDrain hs => Sys2Proof.Machine.execIntDrain hs s
  | .intRemap hs => Sys2Proof.Machine.execIntRemap hs s
  | .intInject hs => Sys2Proof.Machine.execIntInject hs s
  | .signatureWrite => Sys2Proof.Machine.execSignatureWrite s
  | .compare port f => Sys2Proof.Machine.execCompare port f s
  | .lockTimeout => Sys2Proof.Machine.execLockTimeout s
  | .chipLockDiv0Rearm => Sys2Proof.Machine.execChipLockDiv0Rearm s
  | .leaveRequest cls req region work => Sys2Proof.Machine.execLeaveRequest cls req region work s
  | .leaveRound => Sys2Proof.Machine.execLeaveRound s
  | .leaveRelease cls req => Sys2Proof.Machine.execLeaveRelease cls req s
  | .thermalSample readings => Sys2Proof.Machine.execThermalSample readings s
  | .thmResume hs => Sys2Proof.Machine.execThmResume hs s
  | .lvQuery hs => Sys2Proof.Machine.execLvQuery hs s
  | .thmPeakClear => Sys2Proof.Machine.execThmPeakClear s
  | .logWrite => Sys2Proof.Machine.execLogWrite s
  | .summary cls => Sys2Proof.Machine.execSummary cls s
  | .logAlarm value => Sys2Proof.Machine.execLogAlarm value s
  | .logAlarmAck hs => Sys2Proof.Machine.execLogAlarmAck hs s
  | .logMark hs => Sys2Proof.Machine.execLogMark hs s
  | .id => Sys2Proof.Machine.execId s
  | .baud rate => Sys2Proof.Machine.execBaud rate s
  | .baudTimeout => Sys2Proof.Machine.execBaudTimeout s
  | .peek addr count => Sys2Proof.Machine.execPeek addr count s
  | .poke addr mask value => Sys2Proof.Machine.execPoke addr mask value s
  | .log cls n => Sys2Proof.Machine.execLog cls n s
  | .faults => Sys2Proof.Machine.execFaults s
  | .frozen => Sys2Proof.Machine.execFrozen s
  | .inspect master => Sys2Proof.Machine.execInspect master s
  | .monThaw master => Sys2Proof.Machine.execMonThaw master s
  | .helper bytes crc => Sys2Proof.Machine.execHelper bytes crc s
  | .enrol => Sys2Proof.Machine.execEnrol s
  | .devkey bytes crc => Sys2Proof.Machine.execDevkey bytes crc s
  | .image length bytes crc => Sys2Proof.Machine.execImage length bytes crc s
  | .stewardScrub steward found => Sys2Proof.Machine.execStewardScrub steward s found
  | .markerRowSend port => Sys2Proof.Machine.execMarkerRowSend port s
  | .tokenBufferRoom port => Sys2Proof.Machine.execTokenBufferRoom port s
  | .tbRefLostClear => Sys2Proof.Machine.execTbRefLostClear s
  | .bootRevertedClear => Sys2Proof.Machine.execBootRevertedClear s
  | .tripRelease => Sys2Proof.Machine.execTripRelease s

end Sys2Proof.Machine
end

