-- ==== Sys2Proof/Machine/Tick.lean ====
section
/-! DEFINITION. What an FCLK cycle does by itself: time counts (R298), tokens leave the deskew buffer, queued tokens move on, the frames
that the cycle has released leave, and counters of cycles count. -/
namespace Sys2Proof.Machine
open Sys2Proof

/-- A switch port belongs to a live placement. -/
def State.livePort (s : State) (u : Nat) : Bool :=
  s.nets.any fun (e : Nat × SlotNet) => match e.2.live with
    | some n => (Image_ports n.img).contains (u % 4096) || (Image_units n.img).contains (u % 4096)
    | none => false

/-- A live placement's match store or steer store stands full, so asserts stop (R94, FAB_CNT_STORE.STOP_CYCLES). -/
def State.liveStoreFull (s : State) : Bool :=
  s.fab.stores.keys.any (fun (k : Nat × Nat) => s.storeFull k.1 k.2 && s.flag .FAB_UCFG_HELD (k.1 % 4096))
    || s.fab.steerData.keys.any (fun u => s.steerFull u false && s.livePort u)
    || s.fab.steerCtrl.keys.any (fun u => s.steerFull u true && s.livePort u)

/-- Live slots with busy engines beyond their MAX_BUSY (R420). -/
def State.overBusyAll (s : State) : State :=
  s.nets.keys.foldl (fun (s : State) slot => (List.range 8).foldl (fun (s : State) r => s.overBusy slot r) s) s

/-- Events whose mark was this cycle, while retention is off, have no entry (R266). -/
def State.retJudge (s : State) : State :=
  if s.flag .MEM_CTRL_RET_EN then s
  else { s with memS := { s.memS with retQueue := s.memS.retQueue.filter fun e => e.mark != s.cycle } }

/-- What happens as a cycle ends. -/
def State.cycleEnd (s : State) : State :=
  let s := s.retJudge.edgesDue.triggerGroups.acqServe.injectAll.detourAll.steerDepartAll.countStopped.accWaitAll
  let s := if s.liveStoreFull then s.bump .FAB_CNT_STORE_STOP_CYCLES else s
  (List.range 16).foldl State.flushRelease s.overBusyAll

/-- Events whose ingress mark this cycle is take its TB (R41, R266). -/
def State.markTimes (s : State) : State :=
  let tb := s.tb.tb
  { s with
    memS := { s.memS with retQueue := s.memS.retQueue.map fun (e : RetEntry) => if e.mark == s.cycle then { e with markTB := tb } else e }
    vrd := s.vrd.map fun (e : Nat × VrdUnit) =>
      (e.1, { e.2 with events := e.2.events.map fun (v : VEvent) => if v.mark == s.cycle then { v with ingressTB := tb } else v }) }

/-- Networks of the older epoch that a commit replaced leave when no event of it is in flight (R34, R205). [DEDUCED, log 27] -/
def State.dropOld (s : State) : State :=
  if s.cycle < s.oldUntil then s
  else s.nets.foldl (fun (s : State) (e : Nat × SlotNet) =>
    match e.2.old with
    | some o => if e.2.drainC.isNone then (s.setSlot e.1 { e.2 with old := none }).freeGolden o else s
    | none => s) s

/-- One FCLK cycle; in internal reset nothing but the cycle passes. [DESIGN CHOICE, log 2, 95] -/
def tick (s : State) : State :=
  if s.phase = .running then
    let t := tbAdvance s.cycleEnd
    let t := ((({ t with cycle := s.cycle + 1 } : State).markTimes.dropOld).caddsApply).eldSendAll
    { s.keeping t with cycle := s.cycle + 1 }
  else { s with cycle := s.cycle + 1 }

end Sys2Proof.Machine
end

