-- ==== Sys2Proof/Safety.lean ====
section
/-! DEFINITION. What a safe run is, and the terms in which the claims about commands are stated: when a command finds its unit able
to take it, and what a completed instruction leaves. -/
namespace Sys2Proof.Safety
open Sys2Proof Sys2Proof.Machine

/-- The step from this state goes on (R13). -/
def Goes (s : State) : Prop := ∃ t, step s = .next t

/-- Every byte store is in its canonical form. -/
def MemOk (s : State) : Prop := Memory.wf s.mem = true ∧ Memory.wf s.win = true

/-- The device is out of internal reset. -/
abbrev Awake (s : State) : Prop := s.phase = .running

/-- A command's answer: the state that follows. -/
abbrev Next (t : State) : Answer := .next t

/-- A command's answer when its effect is `t`: what no command but those of reset changes stays as it was (R13). -/
abbrev Effect (s t : State) : Answer := .next (s.keeping t)

/-- A command and the state it finds lead to a state with a property. -/
def Leads (c : Instr) (s : State) (P : State → Prop) : Prop := ∃ t, exec c s = .next t ∧ P t

/-- A counter gained `n`, wrapping at its width (R105). -/
def Counted (s t : State) (r : Reg) (i n : Nat) : Prop := t.reg r i = (s.reg r i + n) % 2 ^ r.width

/-- No byte of internal memory or of the host window changed, and no fawn core. -/
def SameBytes (s t : State) : Prop := t.mem = s.mem ∧ t.win = s.win ∧ t.cores = s.cores

/-- A fawn core can begin an instruction: out of internal reset, running, not frozen, the one before over, its program word readable
(R166, R181). -/
def CoreGoes (s : State) (u : Nat) : Prop := Awake s ∧ s.coreReady u = true ∧ s.fetchAt u ∉ s.ue

/-- The same, short of the last word of program memory, behind which the next fetch would fault (R169). -/
def CoreRuns (s : State) (u : Nat) : Prop := CoreGoes s u ∧ (s.core u).pc < 4095

/-- No injected failure waits for the core's next checked result (R467). -/
def NotInjected (s : State) (u : Nat) : Prop := s.ints.inject.getD (u, 3) 0 = 0

/-- The registers after a completed fawn instruction at a PC: one instruction more counted (R166), and a corrected program word
(R181). -/
def retiredRegs (s : State) (u pc : Nat) : RegMap :=
  let m := if progBase u + 4 * pc ∈ s.ce then
      s.regs.put (.FAB_FC_CNT_ECC_CORRECTED, u) ((s.reg .FAB_FC_CNT_ECC_CORRECTED u + 1) % 2 ^ Reg.width .FAB_FC_CNT_ECC_CORRECTED)
    else s.regs
  m.put (.FAB_FC_CNT_INSTR_COUNT, u) ((s.reg .FAB_FC_CNT_INSTR_COUNT u + 1) % 2 ^ 64)

/-- What a completed fawn instruction leaves: the core as given, at a new PC, busy for the instruction's cycles and waiting for
nothing, and the counts. All else is as it was (R166). -/
def completed (s : State) (u : Nat) (c : FawnCore) (cycles pc : Nat) : State :=
  { s with
    cores := s.cores.put u { c with pc := pc, readyAt := s.cycle + cycles, waiting := 0 }
    regs := retiredRegs s u c.pc }

/-- An instruction with a result in scalar register `d`. -/
def scalarResult (s : State) (u : Nat) (d : Fin 32) (v : Word) (cycles : Nat) : Answer :=
  .next (completed s u (coreSetS (s.core u) d v) cycles ((s.core u).pc + 1))

/-- An instruction with a result in vector register `d`. -/
def vectorResult (s : State) (u : Nat) (d : Fin 8) (v : Payload) (cycles : Nat) : Answer :=
  .next (completed s u (coreSetV (s.core u) d v) cycles ((s.core u).pc + 1))

/-- The scratch address a load or store names, A + IMM, within scratch and aligned to its size (R164, R185). -/
def scratchOk (s : State) (u : Nat) (a : Fin 32) (imm : BitVec 16) (n : Nat) : Prop :=
  scratchEa (s.core u) a imm < 0x10000 ∧ scratchEa (s.core u) a imm % n = 0

/-- The internal address of that scratch byte. -/
def scratchAt (s : State) (u : Nat) (a : Fin 32) (imm : BitVec 16) : Nat := unitSpace u + scratchEa (s.core u) a imm

/-- What becomes of a core whose cluster leaves a job: it waits no longer, or stops, at most. -/
def CoreMayStop (old new : FawnCore) : Prop :=
  ∃ st k, new = { old with st := st, waiting := k } ∧ (k = old.waiting ∨ k = 0) ∧ (st = old.st ∨ (st = .stopped ∧ old.st = .running))

end Sys2Proof.Safety
end

