-- ==== Sys2Proof/WellFormed.lean ====
section
/-! DEFINITION. What makes a command well-formed: unit addresses that exist and name the right kind of unit (R23), frames and
transfers of the sizes their rows carry, values within their fields. -/
namespace Sys2Proof
namespace WellFormed

/-- A byte string. -/
def bytes (bs : List Nat) : Bool := bs.all (· < 256)

/-- The address of a compute unit. -/
def isUnit (u : Nat) : Bool := UnitAddr.legal u && UnitAddr.port u == 0 && decide (UnitAddr.unit u < 15)

/-- The address of a fawn core. -/
def isCore (u : Nat) : Bool := UnitAddr.legal u && UnitAddr.port u == 0 && UnitAddr.isFawn u

/-- The address of an eland engine. -/
def isEngine (u : Nat) : Bool := UnitAddr.legal u && UnitAddr.port u == 0 && UnitAddr.isEland u

/-- The address of a cluster steward. -/
def isSteward (u : Nat) : Bool := UnitAddr.legal u && UnitAddr.port u == 0 && UnitAddr.unit u == 15

/-- A master that writes registers: a control core, a region manager or a cluster steward (R30). -/
def isMaster (k : Nat) : Bool :=
  decide (k < 2) || (decide (8 ≤ k) && decide (k < 16)) || (decide (0x10000 ≤ k) && isSteward (k - 0x10000))

/-- A command slot, or 64 for the boot slot (R331, R348). -/
def isSlot (hs : Nat) : Bool := decide (hs ≤ 64)

/-- A 64-bit word. -/
def word64 (v : Nat) : Bool := decide (v < 2 ^ 64)

/-- A 32-bit word. -/
def word32 (v : Nat) : Bool := decide (v < 2 ^ 32)

/-- A frame whose fields fit the header of R286. -/
def frame (f : Frame) : Bool := decide (f.seq < 65536) && bytes f.payload && word32 f.crc

/-- A column of a 2 KiB page in units of the burst (R321). -/
def column (c : Nat) : Bool := decide (c < 2048)

/-- A row number (R321). -/
def dramRow (r : Nat) : Bool := decide (r < 65536)

end WellFormed

open WellFormed in
/-- Whether a command is well-formed. The register indices, immediates and small numbers of a command have types that admit
only what their fields admit; what is left to check is here. -/
def Instr.wf : Instr → Bool
  | .registerWrite a m v k => isMaster k && decide (a < 2 ^ 40) && word64 m && word64 v
  | .poke a m v => decide (a < 2 ^ 40) && word64 m && word64 v
  | .mailboxMessage _ => true
  | .chipSysid v => word64 v
  | .commit hs => isSlot hs
  | .confirm _ => true
  | .commitAbort | .commitBroadcast | .commitCycle | .heldCommit | .snapshotTick => true
  | .sensor _ f | .token _ f | .verdict _ f | .void _ f | .ack _ f | .retry _ f | .nak _ f | .compare _ f => frame f
  | .sync _ f a | .pdelayReq _ f a | .pdelayResp _ f a => frame f && decide (a ≤ 4096)
  | .eventIncomplete _ | .eventRelease _ | .noinjectMark _ | .blockRecordWrite => true
  | .cndTblLo v | .cndTblHi v | .sigRequired v | .segmentRelease v | .spbForce v | .spbEnvLo v | .spbEnvHi v | .tbInc v
  | .tbMaster v | .logAlarm v | .actionArm _ v => word64 v
  | .tokenHop p _ _ | .delayLineRelease p | .steerPair p | .steerRelease p | .expiredTagLeave p => isUnit p
  | .fire u | .passOutput u | .outputRecordWrite u | .accExpired u => isEngine u
  | .readyFire u | .storeExpiry u _ => isUnit u
  | .fabFirstErrRearm => true
  | .finalResultToken _ | .flagPost _ | .cutOff _ | .verdictMark _ | .checkResolve _ _ | .validation _ | .verdPulseEnd _ => true
  | .add u _ _ _ | .sub u _ _ _ | .and u _ _ _ | .or u _ _ _ | .xor u _ _ _ | .sll u _ _ _ | .srl u _ _ _ | .sra u _ _ _
  | .slt u _ _ _ | .sltu u _ _ _ | .min u _ _ _ | .max u _ _ _ | .mul u _ _ _ | .mulh u _ _ _ | .mulhu u _ _ _
  | .div u _ _ _ | .divu u _ _ _ | .rem u _ _ _ | .remu u _ _ _ => isCore u
  | .clz u _ _ | .popc u _ _ => isCore u
  | .addi u _ _ _ | .andi u _ _ _ | .ori u _ _ _ | .xori u _ _ _ | .slti u _ _ _ => isCore u
  | .lui u _ _ | .slli u _ _ _ | .srli u _ _ _ | .srai u _ _ _ => isCore u
  | .exts u _ _ _ _ | .extu u _ _ _ _ => isCore u
  | .ldw u _ _ _ | .ldb u _ _ _ | .ldbu u _ _ _ | .ldv u _ _ _ | .stw u _ _ _ | .stb u _ _ _ | .stv u _ _ _ => isCore u
  | .beq u _ _ _ | .bne u _ _ _ | .blt u _ _ _ | .bge u _ _ _ | .bltu u _ _ _ | .bgeu u _ _ _ => isCore u
  | .jal u _ _ | .jalr u _ _ _ | .fetchEcc u | .illegal u => isCore u
  | .fadd u _ _ _ | .fsub u _ _ _ | .fmul u _ _ _ | .fma u _ _ _ | .fdiv u _ _ _ | .fmin u _ _ _ | .fmax u _ _ _
  | .flt u _ _ _ | .feq u _ _ _ => isCore u
  | .fsqrt u _ _ | .fcvtif u _ _ | .fcvtfi u _ _ => isCore u
  | .recv u _ _ _ _ | .recvWaitLimit u _ _ _ _ | .recvo u _ _ _ | .send u _ _ _ | .rdhdr u _ => isCore u
  | .wlw u _ _ _ _ | .wlv u _ _ _ _ => isCore u
  | .vadd u _ _ _ _ | .vsub u _ _ _ _ | .vmul u _ _ _ _ | .vmin u _ _ _ _ | .vmax u _ _ _ _ => isCore u
  | .vand u _ _ _ | .vor u _ _ _ | .vxor u _ _ _ => isCore u
  | .vshl u _ _ _ _ | .vshr u _ _ _ _ | .vcmpgt u _ _ _ _ | .vsel u _ _ _ | .vsplat u _ _ _ => isCore u
  | .vget u _ _ _ _ | .vput u _ _ _ _ | .vunpk8 u _ _ _ _ | .vunpk4 u _ _ _ _ => isCore u
  | .vrmax u _ _ _ | .vrsum u _ _ _ | .vsort u _ _ _ | .vmerge u _ _ _ _ => isCore u
  | .fawnNop u | .rdtb u _ | .rdjob u _ | .cadd u _ _ _ | .crd u _ _ | .pzclr u | .rdpz u _ | .halt u | .wait u _ => isCore u
  | .fabScCnt u _ v => isSteward u && word32 v
  | .load hs | .bankLoad hs | .unload hs | .promote hs | .cancel hs | .keyRegister hs | .refStart hs | .refCancel hs => isSlot hs
  | .shadowWrite _ | .slotDrainEnd _ | .sampleWrite _ | .sampleDrop _ | .jobStepStart _ | .jobStepAbandon _ => true
  | .jobStepEnd _ g cs => decide (g.length ≤ 136) && cs.all fun x => decide (x.2.2 < 256)
  | .rowWaitExpiry _ | .coincidenceFire _ | .lineDriveEnd _ | .groupRearm _ | .preCopy _ | .rowWrite _ | .creditRefill
  | .arm _ | .stop _ => true
  | .trigEdge _ e => word64 e
  | .ppsEdge e => decide (e ≤ 64)
  | .segmentComplete q => word32 q
  | .restoreRequest u | .restoreWrite u | .stewardScrub u _ => isSteward u
  | .retentionWrite | .scrubPass _ | .classCredit | .memFirstUeRearm => true
  | .refresh d => decide (d < 256)
  | .laneLock _ _ rx | .laneLockLoss _ _ rx => rx.all (fun w => decide (w < 2 ^ 256))
  | .losAssert _ _ | .losClear _ _ => true
  | .marker _ r => decide (r.length = 8)
  | .trainTimeout _ | .markerTimeout _ | .darkRetry _ | .opxPctrlEn _ _ | .deep _ _ | .deepTimeout _ | .ackTimer _
  | .retryRepeat _ | .errorInjection _ _ | .markerRowSend _ | .tokenBufferRoom _ => true
  | .lpi _ n => decide (n < 2 ^ 32)
  | .idle _ _ b => decide (b < 256)
  | .opxLctrl _ _ m v => word64 m && word64 v
  | .refclkLoss | .stepAdd | .stepSetPps | .ppsLoss | .soft | .holdover | .tbRefLostClear => true
  | .actionDisarm _ | .actionFire _ | .pulseEnd _ => true
  | .act _ _ r => dramRow r
  | .rd16 _ _ c | .rd32 _ _ c => column c
  | .wr16 _ _ c d => column c && bytes d && decide (d.length = 32)
  | .wr32 _ _ c d => column c && bytes d && decide (d.length = 64)
  | .mwr _ _ c d m => column c && bytes d && decide (d.length = 32) && word32 m
  | .prepb _ _ | .preab _ | .refab _ | .refpb _ _ | .rfm _ _ | .cas _ _ | .sre _ _ | .srx _ | .pde _ | .pdx _ => true
  | .mpc _ (.writeFifo d) => bytes d && decide (d.length = 32)
  | .mpc _ _ => true
  | .mrw _ m v => decide (m < 256) && decide (v < 256)
  | .mrr _ m => decide (m < 256)
  | .slotScan | .moverDispatch | .moverDone _ => true
  | .nop hs | .regRead hs | .regWrite hs | .thaw hs | .move hs | .stageMap hs | .stageFlush hs | .stageRelease hs
  | .actArm hs | .fwStage hs | .fwVerify hs | .fwActivate hs | .fwConfirm hs | .fwAbort hs | .attest hs | .intDrain hs
  | .intRemap hs | .intInject hs | .thmResume hs | .lvQuery hs | .logAlarmAck hs | .logMark hs => isSlot hs
  | .resetAssert | .undervoltage | .thermalTrip | .junctionCold | .tripRelease => true
  | .resetRelease b _ => decide (b < 4)
  | .bootHelper | .bootEnrol | .bootDevkey | .bootChunk | .bankSwitch | .quiesceTimeout | .confirmTimeout | .revert
  | .forcedRevert | .bootRevertedClear => true
  | .checkPost _ _ | .replayStart | .replayComplete _ _ | .replayLimit | .lateCorrected _ | .decideTimeout
  | .signatureWrite | .lockTimeout | .chipLockDiv0Rearm => true
  | .seqMismatch u _ => UnitAddr.legal u || decide (0xFF00 ≤ u && u ≤ 0xFF10)
  | .leaveRequest c q r n => decide (1 ≤ c && c ≤ 5) && word32 q && (match r with | some x => decide (x < 8) | none => true) && decide (n < 2048)
  | .leaveRound | .thmPeakClear | .logWrite => true
  | .leaveRelease c q => decide (1 ≤ c && c ≤ 5) && word32 q
  | .thermalSample r => decide (r.length = 16)
  | .summary c => decide (1 ≤ c && c ≤ 4)
  | .id | .baudTimeout | .faults | .frozen | .enrol => true
  | .baud _ => true
  | .peek a c => decide (a < 2 ^ 64) && decide (c < 2 ^ 64)
  | .log c n => decide (c < 2 ^ 64) && decide (n < 2 ^ 64)
  | .inspect m | .monThaw m => decide (m < 2 ^ 64)
  | .helper b c => bytes b && decide (b.length = 4096) && word32 c
  | .devkey b c => bytes b && decide (b.length = 1793) && word32 c
  | .image n b c => decide (b.length = n) && bytes b && word32 c

end Sys2Proof
end

