-- ==== Sys2Proof/Certificates/Slice0/Obligations.lean ====
section
/-! DEFINITION. The claims about the model, for the provers. -/
open Sys2Proof Sys2Proof.Machine Sys2Proof.Safety

/-- Register s0 reads as zero and keeps no write, every other register keeps its own; lanes and vectors are one thing at every
width. For every core, register i, register j and value v: s0 reads as zero; after writing v to register i, register i reads v
unless i is 0, every other register reads as before, and the vector registers, PC, PZ and the rest of the core are unchanged.
After writing v to vector register i, it reads v and every other vector and scalar register reads as before. For every lane
width, packing the lanes of a vector gives it back, and the lanes of a packed list of that many values, each within the width,
are that list. (R163) -/
def Obligations.ScalarRegisterZeroIsHardwired : Prop :=
  ∀ (c : FawnCore) (i j : Fin 32) (v : Word) (k l : Fin 8) (p : Payload) (w : LaneW) (ls : List Nat),
    coreS c 0 = 0 ∧ coreS (coreSetS c i v) j = (if j = 0 then 0 else if i = j then v else coreS c j) ∧
    coreSetS c 0 v = c ∧ (∃ m, coreSetS c i v = { c with sregs := m }) ∧
    coreV (coreSetV c k p) l = (if k = l then p else coreV c l) ∧ (∃ m, coreSetV c k p = { c with vregs := m }) ∧
    packLanes w (lanes w p) = p ∧
    (ls.length = 256 / laneBits w → (∀ x ∈ ls, x < 2 ^ laneBits w) → lanes w (packLanes w ls) = ls)

/-- The twenty-one integer register instructions write their result, take their cycles and change nothing else. For a core that
can begin an instruction short of the last program word, with no injected failure waiting: ADD to REMU answer the state in
which register D holds the result of Table "Instruction set" (results wrap; shifts use B[4:0]; the high product halves are
those of the 64-bit product), the PC is one further, the core is busy for the row's cycles, one more instruction is counted,
and everything else is as it was. (R166, R169) -/
def Obligations.FawnIntegerInstructionsCompute : Prop :=
  ∀ (s : State) (u : Nat) (d a b : Fin 32), CoreRuns s u → NotInjected s u →
    let x := coreS (s.core u) a
    let y := coreS (s.core u) b
    let R := fun (v : Word) (n : Nat) => scalarResult s u d v n
    exec (.add u d a b) s = R (BitVec.ofNat 32 (x.toNat + y.toNat)) 1 ∧
    exec (.sub u d a b) s = R (BitVec.ofInt 32 (x.toInt - y.toInt)) 1 ∧
    exec (.and u d a b) s = R (x &&& y) 1 ∧ exec (.or u d a b) s = R (x ||| y) 1 ∧ exec (.xor u d a b) s = R (x ^^^ y) 1 ∧
    exec (.sll u d a b) s = R (BitVec.ofNat 32 (x.toNat * 2 ^ (y.toNat % 32))) 1 ∧
    exec (.srl u d a b) s = R (BitVec.ofNat 32 (x.toNat / 2 ^ (y.toNat % 32))) 1 ∧
    exec (.sra u d a b) s = R (BitVec.ofInt 32 (x.toInt / 2 ^ (y.toNat % 32))) 1 ∧
    exec (.slt u d a b) s = R (if x.toInt < y.toInt then 1 else 0) 1 ∧
    exec (.sltu u d a b) s = R (if x.toNat < y.toNat then 1 else 0) 1 ∧
    exec (.min u d a b) s = R (BitVec.ofInt 32 (min x.toInt y.toInt)) 1 ∧
    exec (.max u d a b) s = R (BitVec.ofInt 32 (max x.toInt y.toInt)) 1 ∧
    exec (.clz u d a) s = R (if x = 0 then 32 else BitVec.ofNat 32 (31 - Nat.log2 x.toNat)) 1 ∧
    exec (.popc u d a) s = R (BitVec.ofNat 32 ((List.range 32).filter fun i => x.getLsbD i).length) 1 ∧
    exec (.mul u d a b) s = R (BitVec.ofNat 32 (x.toNat * y.toNat)) 2 ∧
    exec (.mulh u d a b) s = R (BitVec.ofInt 32 (x.toInt * y.toInt / 2 ^ 32)) 2 ∧
    exec (.mulhu u d a b) s = R (BitVec.ofNat 32 (x.toNat * y.toNat / 2 ^ 32)) 2 ∧
    exec (.div u d a b) s = R (divS x y) 18 ∧ exec (.divu u d a b) s = R (divU x y) 18 ∧
    exec (.rem u d a b) s = R (if y = 0 then x else x - divS x y * y) 18 ∧
    exec (.remu u d a b) s = R (if y = 0 then x else x - divU x y * y) 18

/-- Integer results wrap, quotients round to nearest with ties away from zero, and shifts, extracts and MULH select bits. For a
core that can begin an instruction short of the last program word, with no injected failure waiting. ADD, SUB and MUL write
the exact result modulo 2^32. With a divisor that is not zero DIV writes an integer Q with 2 |A - Q B| at most |B|, beyond A
in size on a tie, and REM writes A - Q B for that Q, both modulo 2^32; DIVU and REMU the same for the unsigned values. A zero
divisor gives Q all ones and a remainder equal to A; -2^31 by -1 gives -2^31 with remainder 0. Every bit of a shift, of EXTS,
EXTU, MULH and MULHU is a bit of the operand or of the exact product, or the fill bit. (R170) -/
def Obligations.DivisionRoundsToNearestTiesAway : Prop :=
  ∀ (s : State) (u : Nat) (d a b sh pos w : Fin 32), CoreRuns s u → NotInjected s u →
    let x := coreS (s.core u) a
    let y := coreS (s.core u) b
    let R := fun (v : Word) (n : Nat) => scalarResult s u d v n
    let bitsOf := fun (i : Instr) (n : Nat) (f : Nat → Bool) => ∃ v : Word, exec i s = R v n ∧ ∀ k < 32, v.getLsbD k = f k
    let n := y.toNat % 32
    (exec (.add u d a b) s = R (BitVec.ofInt 32 (x.toInt + y.toInt)) 1 ∧ exec (.sub u d a b) s = R (BitVec.ofInt 32 (x.toInt - y.toInt)) 1 ∧
      exec (.mul u d a b) s = R (BitVec.ofInt 32 (x.toInt * y.toInt)) 2) ∧
    (y ≠ 0 → (∃ q : Int, 2 * (x.toInt - q * y.toInt).natAbs ≤ y.toInt.natAbs ∧
        (2 * (x.toInt - q * y.toInt).natAbs = y.toInt.natAbs → x.toInt.natAbs < (q * y.toInt).natAbs) ∧
        exec (.div u d a b) s = R (BitVec.ofInt 32 q) 18 ∧ exec (.rem u d a b) s = R (BitVec.ofInt 32 (x.toInt - q * y.toInt)) 18) ∧
      (∃ q : Nat, 2 * ((x.toNat : Int) - q * y.toNat).natAbs ≤ y.toNat ∧
        (2 * ((x.toNat : Int) - q * y.toNat).natAbs = y.toNat → x.toNat < q * y.toNat) ∧
        exec (.divu u d a b) s = R (BitVec.ofNat 32 q) 18 ∧
        exec (.remu u d a b) s = R (BitVec.ofInt 32 ((x.toNat : Int) - q * y.toNat)) 18)) ∧
    (y = 0 → exec (.div u d a b) s = R 0xFFFFFFFF#32 18 ∧ exec (.divu u d a b) s = R 0xFFFFFFFF#32 18 ∧
      exec (.rem u d a b) s = R x 18 ∧ exec (.remu u d a b) s = R x 18) ∧
    (x = 0x80000000#32 → y = 0xFFFFFFFF#32 → exec (.div u d a b) s = R 0x80000000#32 18 ∧ exec (.rem u d a b) s = R 0 18) ∧
    bitsOf (.sll u d a b) 1 (fun k => decide (n ≤ k) && x.getLsbD (k - n)) ∧ bitsOf (.srl u d a b) 1 (fun k => x.getLsbD (k + n)) ∧
    bitsOf (.sra u d a b) 1 (fun k => x.getLsbD (min (k + n) 31)) ∧
    bitsOf (.slli u d a sh) 1 (fun k => decide (sh.val ≤ k) && x.getLsbD (k - sh.val)) ∧
    bitsOf (.srli u d a sh) 1 (fun k => x.getLsbD (k + sh.val)) ∧ bitsOf (.srai u d a sh) 1 (fun k => x.getLsbD (min (k + sh.val) 31)) ∧
    (pos.val + w.val + 1 ≤ 32 → bitsOf (.exts u d a pos w) 1 (fun k => x.getLsbD (pos.val + min k w.val)) ∧
      bitsOf (.extu u d a pos w) 1 (fun k => decide (k ≤ w.val) && x.getLsbD (pos.val + k))) ∧
    bitsOf (.mulh u d a b) 2 (fun k => (BitVec.ofInt 64 (x.toInt * y.toInt)).getLsbD (k + 32)) ∧
    bitsOf (.mulhu u d a b) 2 (fun k => (BitVec.ofNat 64 (x.toNat * y.toNat)).getLsbD (k + 32))

/-- The eleven integer immediate instructions write their result, take one cycle and change nothing else. For a core that can
begin an instruction short of the last program word, with no injected failure waiting: ADDI, ANDI, ORI, XORI, SLTI, LUI, SLLI,
SRLI, SRAI, and EXTS and EXTU of a field that ends within the word, answer the state in which register D holds the result of
the table, the PC is one further, one cycle passes, one more instruction is counted, and everything else is as it was. EXTS
and EXTU of a field past bit 31 are the illegal word: the core faults with code 1. (R166, R169) -/
def Obligations.FawnImmediateInstructionsCompute : Prop :=
  ∀ (s : State) (u : Nat) (d a : Fin 32) (imm : BitVec 16) (sh pos w : Fin 32), CoreRuns s u → NotInjected s u →
    let x := coreS (s.core u) a
    let R := fun (v : Word) => scalarResult s u d v 1
    exec (.addi u d a imm) s = R (x + imm.signExtend 32) ∧
    exec (.andi u d a imm) s = R (x &&& BitVec.ofNat 32 imm.toNat) ∧
    exec (.ori u d a imm) s = R (x ||| BitVec.ofNat 32 imm.toNat) ∧
    exec (.xori u d a imm) s = R (x ^^^ BitVec.ofNat 32 imm.toNat) ∧
    exec (.slti u d a imm) s = R (if x.toInt < imm.toInt then 1 else 0) ∧
    exec (.lui u d imm) s = R (BitVec.ofNat 32 (imm.toNat * 65536)) ∧
    exec (.slli u d a sh) s = R (BitVec.ofNat 32 (x.toNat * 2 ^ sh.val)) ∧
    exec (.srli u d a sh) s = R (BitVec.ofNat 32 (x.toNat / 2 ^ sh.val)) ∧
    exec (.srai u d a sh) s = R (BitVec.ofInt 32 (x.toInt / 2 ^ sh.val)) ∧
    (pos.val + w.val + 1 ≤ 32 →
      exec (.exts u d a pos w) s = R (BitVec.ofInt 32 (sx (w.val + 1) (x.toNat / 2 ^ pos.val))) ∧
      exec (.extu u d a pos w) s = R (BitVec.ofNat 32 (x.toNat / 2 ^ pos.val % 2 ^ (w.val + 1)))) ∧
    (32 < pos.val + w.val + 1 →
      exec (.exts u d a pos w) s = Effect s (s.fawnFault u 1 0) ∧ exec (.extu u d a pos w) s = Effect s (s.fawnFault u 1 0))

/-- LDW, LDB, LDBU and LDV load the scratch bytes at A + IMM, sign- or zero-extended, in two cycles. For a core that can begin an
instruction short of the last program word and an address A + IMM within scratch and aligned to the access: the destination
holds the little-endian bytes there (LDB sign-extended), also when a word is uncorrectable; PZ is set when a touched word is
uncorrectable; corrections and uncorrectable words are counted in the core's ECC counters; the PC is one further after two
cycles; every other register of the core and all of memory are as they were, and so is every other core, but that a job which
the cluster serves ends when a word is uncorrectable. (R164, R169, R181) -/
def Obligations.ScratchLoadsReadLittleEndian : Prop :=
  ∀ (s : State) (u : Nat) (d a : Fin 32) (v : Fin 8) (imm : BitVec 16), CoreRuns s u →
    let at_ := scratchAt s u a imm
    let after := fun (n : Nat) (c : FawnCore) =>
      let bad := ((words4 at_ n).filter (s.ue.contains ·)).length
      let fix := ((words4 at_ n).filter (fun w => s.ce.contains w && !s.ue.contains w)).length
      let z := completed ((s.eccFixed u fix).eccBad u bad) u { c with pz := (s.core u).pz || bad != 0 } 2 ((s.core u).pc + 1)
      if bad = 0 then Next z else Effect s (z.jobHit u 0x5302)
    let byte := fun (k : Nat) => (cellGet s.mem (at_ + k)).toNat
    (scratchOk s u a imm 4 → exec (.ldw u d a imm) s =
      after 4 (coreSetS (s.core u) d (BitVec.ofNat 32 (byte 0 + 256 * byte 1 + 65536 * byte 2 + 16777216 * byte 3)))) ∧
    (scratchOk s u a imm 1 → exec (.ldb u d a imm) s = after 1 (coreSetS (s.core u) d ((cellGet s.mem at_).signExtend 32)) ∧
      exec (.ldbu u d a imm) s = after 1 (coreSetS (s.core u) d (BitVec.ofNat 32 (byte 0)))) ∧
    (scratchOk s u a imm 32 → ∃ p : Payload, exec (.ldv u v a imm) s = after 32 (coreSetV (s.core u) v p) ∧
      ∀ k < 32, bits p.toNat (8 * k) 8 = byte k)

/-- STW, STB and STV store their bytes at A + IMM, and no other byte of memory, register or core changes. With memory in its
canonical form, for a core that can begin an instruction short of the last program word and an address A + IMM within scratch
and aligned to the access, STW, STB and STV answer a state in which the bytes from that address (4, 1 or 32 of them) are those
of the source register, least significant first, every other byte of internal memory reads as before, the core has advanced
one instruction in one cycle with its registers and PZ unchanged, and every other core, the host window's bytes and every
register field but the core's counts of instructions and of corrections are as they were. (R164, R169) -/
def Obligations.ScratchStoresWriteTheirBytesOnly : Prop :=
  ∀ (s : State) (u : Nat) (a b : Fin 32) (v : Fin 8) (imm : BitVec 16), MemOk s → CoreRuns s u →
    let at_ := scratchAt s u a imm
    let stores := fun (i : Instr) (n : Nat) (x : Nat) => Leads i s fun t =>
      (∀ k < n, (cellGet t.mem (at_ + k)).toNat = x / 256 ^ k % 256) ∧
      (∀ q, (q < at_ ∨ at_ + n ≤ q) → cellGet t.mem q = cellGet s.mem q) ∧
      t.core u = { s.core u with pc := (s.core u).pc + 1, readyAt := s.cycle + 1, waiting := 0 } ∧
      (∀ w, w ≠ u → t.core w = s.core w) ∧ t.win = s.win ∧
      (∀ r j, (r, j) ≠ (.FAB_FC_CNT_INSTR_COUNT, u) → (r, j) ≠ (.FAB_FC_CNT_ECC_CORRECTED, u) → t.reg r j = s.reg r j)
    (scratchOk s u a imm 4 → stores (.stw u b a imm) 4 (coreS (s.core u) b).toNat) ∧
    (scratchOk s u a imm 1 → stores (.stb u b a imm) 1 (coreS (s.core u) b).toNat) ∧
    (scratchOk s u a imm 32 → stores (.stv u v a imm) 32 (coreV (s.core u) v).toNat)

/-- Branches and jumps take two cycles, set the PC within program memory, and raise FETCH_RANGE outside it. For a core that can
begin an instruction short of the last program word: a branch whose condition holds and a jump put the PC at PC + OFF, PC +
IMM or A + IMM when that is 0 to 4,095, a branch whose condition fails at PC + 1, each in two cycles, JAL and JALR writing PC
+ 1 to D, and nothing else changes. A target outside 0 to 4,095 raises the FETCH_RANGE fault with none of the jump performed.
(R169, R185) -/
def Obligations.BranchesAndJumpsSetThePC : Prop :=
  ∀ (s : State) (u : Nat) (d a b : Fin 32) (off : BitVec 16), CoreRuns s u →
    let c := s.core u
    let x := coreS c a
    let y := coreS c b
    let jump := fun (i : Instr) (c' : FawnCore) (target : Int) =>
      (∀ p : Nat, p ≤ 4095 → target = p → exec i s = .next (completed s u c' 2 p)) ∧
      ((target < 0 ∨ 4095 < target) → exec i s = Effect s ((s.setCore u c).fawnFault u 5 0))
    let branch := fun (i : Instr) (cond : Prop) =>
      (cond → jump i c (c.pc + off.toInt)) ∧ (¬ cond → exec i s = .next (completed s u c 2 (c.pc + 1)))
    branch (.beq u a b off) (x = y) ∧ branch (.bne u a b off) (x ≠ y) ∧ branch (.blt u a b off) (x.toInt < y.toInt) ∧
    branch (.bge u a b off) (y.toInt ≤ x.toInt) ∧ branch (.bltu u a b off) (x.toNat < y.toNat) ∧
    branch (.bgeu u a b off) (y.toNat ≤ x.toNat) ∧
    jump (.jal u d off) (coreSetS c d (BitVec.ofNat 32 (c.pc + 1))) (c.pc + off.toInt) ∧
    jump (.jalr u d a off) (coreSetS c d (BitVec.ofNat 32 (c.pc + 1))) (x + off.signExtend 32).toNat

/-- The twelve binary32 instructions write their result to D in the table's cycles and change nothing else. For a core that can
begin an instruction short of the last program word, with no injected failure waiting: FADD to FCVTFI answer the state in
which D holds the model's rounded result (Binary32NaNResultsAreCanonical says which NaN it is), FLT and FEQ answer 1 or 0, the
PC is one further, the core is busy for the row's cycles, one more instruction is counted, and everything else is as it was.
(R166, R169, R171) -/
def Obligations.Binary32InstructionsComplete : Prop :=
  ∀ (s : State) (u : Nat) (d a b : Fin 32), CoreRuns s u → NotInjected s u →
    let x := coreS (s.core u) a
    let y := coreS (s.core u) b
    let R := fun (v : Word) (n : Nat) => scalarResult s u d v n
    exec (.fadd u d a b) s = R (fAdd x y) 3 ∧ exec (.fsub u d a b) s = R (fSub x y) 3 ∧ exec (.fmul u d a b) s = R (fMul x y) 3 ∧
    exec (.fma u d a b) s = R (fFma (coreS (s.core u) d) x y) 4 ∧ exec (.fdiv u d a b) s = R (fDiv x y) 12 ∧
    exec (.fsqrt u d a) s = R (fSqrt x) 12 ∧ exec (.fmin u d a b) s = R (fMin x y) 1 ∧ exec (.fmax u d a b) s = R (fMax x y) 1 ∧
    exec (.flt u d a b) s = R (if fLt x y then 1 else 0) 1 ∧ exec (.feq u d a b) s = R (if fEq x y then 1 else 0) 1 ∧
    exec (.fcvtif u d a) s = R (fOfInt x) 2 ∧ exec (.fcvtfi u d a) s = R (fToInt x) 2

/-- Every binary32 operation that answers a NaN answers 0x7FC0_0000. For all operand words, if the result of FADD, FSUB, FMUL,
FMA, FDIV, FSQRT, FMIN or FMAX is a NaN it is 0x7FC0_0000; FCVTIF never answers a NaN; a NaN operand of FADD, FMUL and FDIV
gives that NaN; FMIN and FMAX return the other operand when exactly one is a NaN; FLT and FEQ are false when either is a NaN;
FCVTFI turns a NaN into 0. (R171) -/
def Obligations.Binary32NaNResultsAreCanonical : Prop :=
  ∀ (c x y : Word),
    (∀ r ∈ [fAdd x y, fSub x y, fMul x y, fFma c x y, fDiv x y, fSqrt x, fMin x y, fMax x y], fIsNaN r = true → r = 0x7FC00000#32) ∧
    fIsNaN (fOfInt x) = false ∧
    (fIsNaN x = true → fAdd x y = 0x7FC00000#32 ∧ fMul x y = 0x7FC00000#32 ∧ fDiv x y = 0x7FC00000#32 ∧
      fLt x y = false ∧ fLt y x = false ∧ fEq x y = false ∧ fToInt x = 0 ∧
      (fIsNaN y = false → fMin x y = y ∧ fMin y x = y ∧ fMax x y = y ∧ fMax y x = y))

/-- RECV and RECVO consume the oldest token they may take, write its payload and header word and set PZ as R178 says. For a core
that can begin an instruction short of the last program word, an input that its configuration enables, and s1 the state after
tokens of stale epochs are discarded: when e is the oldest token of the named tag written before this cycle (in ready mode the
oldest of any tag) within the wait limit, RECV consumes it: v[V] is its payload, s[D] the header word of Table "Receive header
word", POISON and PZ are set when the token is poisoned or of a format the input does not accept (PZ also when it is of
another tag), the epoch is the token's, RDHDR's fields are the token's, the PC is one further after two cycles, the token has
left the store, and memory and every other core are as before. RECVO does the same with the oldest token of any tag when the
program entry of the token's epoch is the one the core runs, and drops the failure kept for posting. (R166, R174, R175, R178) -/
def Obligations.ReceiveTakesTheOldestTokenOfItsTag : Prop :=
  ∀ (s : State) (u : Nat) (d a : Fin 32) (v : Fin 8) (inp : Fin 4) (e : Entry), CoreRuns s u →
    bitAt (s.regIn (s.coreCfg (s.core u)) .FAB_UCFG_INPUTS u) inp.val = true →
    let m := s.coreCfg (s.core u)
    let ready := s.regIn m .FAB_UCFG_MODE u == 1
    let lim := s.regIn m .FAB_FC_CTRL_RECV_LIMIT u
    let named := (coreS (s.core u) a).toNat % 16384
    let bad := e.tok.poison || !(formatAllowed e.tok && ufmtTakes (s.regIn m .FAB_UFMT_FMT u) inp.val e.tok.fmt)
    let entry := s.regIn ((s.cfgOf e.tok.epochLo).getD s.regs) .FAB_FC_ENTRY_PC u
    let header := BitVec.ofNat 32 (e.tok.tag % 2 ^ 14 + e.tok.epochLo % 256 * 2 ^ 14 + e.tok.block % 256 * 2 ^ 22
      + (if e.tok.last then 1 else 0) * 2 ^ 30 + (if bad then 1 else 0) * 2 ^ 31)
    let took := fun (mismatch : Bool) (kept : Option CheckPost) (t : State) =>
      t.core u = { coreSetV (coreSetS (s.core u) d header) v e.tok.payload with
        pz := (s.core u).pz || bad || mismatch, epochLo := e.tok.epochLo
        hdr := e.tok.stream % 4096 + e.tok.fmt % 64 * 4096 + e.tok.kind % 8 * 2 ^ 18
        lastTag := e.tok.tag, lastEpochLo := e.tok.epochLo, lastBlock := e.tok.block, inEvent := true, failed := kept
        entry := entry, waiting := 0, pc := (s.core u).pc + 1, readyAt := s.cycle + 2 } ∧
      (∀ w, w ≠ u → t.core w = s.core w) ∧ e ∉ t.storeQ u inp.val ∧ t.mem = s.mem ∧ t.win = s.win
    ((s.purgeStale u inp.val).storeFind u inp.val (fun x =>
        (ready || x.tok.tag == named) && (lim == 0 || decide (x.cyc ≤ (s.core u).readyAt + lim))) = some e →
      Leads (.recv u d a v inp) s (took (e.tok.tag != named) (s.core u).failed)) ∧
    (((s.recvoBegin u).purgeStale u inp.val).storeFind u inp.val (fun _ => true) = some e →
      entry = (s.core u).entry → Leads (.recvo u d v inp) s (took false none))

/-- A RECVO whose oldest token selects another program entry consumes nothing and starts the program of the token's epoch. For a
core that can begin an instruction short of the last program word, an enabled input, and e the oldest token after stale ones
are discarded: when the program entry of the token's epoch is not the one the core runs, RECVO leaves the token in the store,
sets the epoch to the token's, clears PZ, and continues at the new entry after two cycles with its registers unchanged. (R175,
R184) -/
def Obligations.ReceiveSwitchesProgramAtAnEpoch : Prop :=
  ∀ (s : State) (u : Nat) (d : Fin 32) (v : Fin 8) (inp : Fin 4) (e : Entry), CoreRuns s u →
    bitAt (s.regIn (s.coreCfg (s.core u)) .FAB_UCFG_INPUTS u) inp.val = true →
    ((s.recvoBegin u).purgeStale u inp.val).storeFind u inp.val (fun _ => true) = some e →
    let entry := s.regIn ((s.cfgOf e.tok.epochLo).getD s.regs) .FAB_FC_ENTRY_PC u
    entry ≠ (s.core u).entry →
    Leads (.recvo u d v inp) s fun t =>
      t.core u = { s.core u with epochLo := e.tok.epochLo, pz := false, failed := none, inEvent := false
                                 entry := entry, waiting := 0, pc := entry, readyAt := s.cycle + 2 } ∧
      e ∈ t.storeQ u inp.val ∧ t.mem = s.mem ∧ (∀ w, w ≠ u → t.core w = s.core w)

/-- A RECV past its limit completes with the missing-token header and sets PZ. For a core that can begin an instruction short of
the last program word, an enabled input, RECV_LIMIT not zero and past, and no token of the tag written within the limit: s[D]
holds the header word with TAG = s[A][13:0], the current epoch, BLOCK 0, LAST 1 and POISON 1, v[V] is zero, PZ is set, RDHDR
reads zero, the PC is one further after two cycles, the missing event is counted, and memory and every other core are as
before. (R176, R178) -/
def Obligations.ReceiveLimitMakesAMissingToken : Prop :=
  ∀ (s : State) (u : Nat) (d a : Fin 32) (v : Fin 8) (inp : Fin 4), CoreRuns s u →
    bitAt (s.regIn (s.coreCfg (s.core u)) .FAB_UCFG_INPUTS u) inp.val = true →
    let m := s.coreCfg (s.core u)
    let ready := s.regIn m .FAB_UCFG_MODE u == 1
    let lim := s.regIn m .FAB_FC_CTRL_RECV_LIMIT u
    let named := (coreS (s.core u) a).toNat % 16384
    lim ≠ 0 → (s.core u).readyAt + lim < s.cycle →
    (s.purgeStale u inp.val).storeFind u inp.val (fun x =>
      (ready || x.tok.tag == named) && decide (x.cyc ≤ (s.core u).readyAt + lim)) = none →
    Leads (.recvWaitLimit u d a v inp) s fun t =>
      t.core u = { coreSetV (coreSetS (s.core u) d
            (BitVec.ofNat 32 (named + (s.core u).epochLo % 256 * 2 ^ 14 + 2 ^ 30 + 2 ^ 31))) v 0 with
          pz := true, hdr := 0, lastTag := named, lastEpochLo := (s.core u).epochLo, lastBlock := 0, inEvent := true
          waiting := 0, pc := (s.core u).pc + 1, readyAt := s.cycle + 2 } ∧
      t.reg .FAB_FC_CNT_EVT_MISSING u = ((s.purgeStale u inp.val).reg .FAB_FC_CNT_EVT_MISSING u + 1) % 2 ^ 32 ∧
      t.mem = s.mem ∧ (∀ w, w ≠ u → t.core w = s.core w)

/-- SEND builds its token from the operands and PZ and writes it to the local output register in its cycle. For a core that can
begin an instruction short of the last program word: a SEND whose KIND is 1 to 5, with the local output register not asserting
stop, puts behind that register's tokens one with the fields R177 names, POISON from PZ and its residue computed, present from
the cycle of the SEND; the core keeps its registers, the PC is one further after one cycle. A SEND whose KIND is IDLE or
reserved sends nothing and is counted in EVT.BAD_SEND. RDHDR answers STREAM, FORMAT and KIND of the last received token.
(R177, R178) -/
def Obligations.SendWritesTheLocalRegister : Prop :=
  ∀ (s : State) (u : Nat) (d a b : Fin 32) (v : Fin 8), CoreRuns s u →
    let x := (coreS (s.core u) a).toNat
    let y := (coreS (s.core u) b).toNat
    (1 ≤ bits y 26 3 → bits y 26 3 ≤ 5 → s.outStop u = false → Leads (.send u a b v) s fun t =>
      t.regQ u 4 = s.regQ u 4 ++ [{ cyc := s.cycle, tok := Token_sealed ({
          tag := bits x 0 14, epochLo := bits x 14 8, stream := bits y 0 12, block := bits y 12 8, fmt := bits y 20 6
          kind := bits y 26 3, last := bitAt y 29, poison := (s.core u).pz, payload := coreV (s.core u) v } : Token) }] ∧
      t.core u = { s.core u with failed := none, waiting := 0, pc := (s.core u).pc + 1, readyAt := s.cycle + 1 } ∧
      t.mem = s.mem ∧ (∀ w, w ≠ u → t.core w = s.core w)) ∧
    ((bits y 26 3 = 0 ∨ 6 ≤ bits y 26 3) → Leads (.send u a b v) s fun t =>
      t.fab = s.fab ∧ t.reg .FAB_FC_CNT_EVT_BAD_SEND u = (s.reg .FAB_FC_CNT_EVT_BAD_SEND u + 1) % 2 ^ 32 ∧
      t.core u = { s.core u with waiting := 0, pc := (s.core u).pc + 1, readyAt := s.cycle + 1 }) ∧
    exec (.rdhdr u d) s = scalarResult s u d (BitVec.ofNat 32 (s.core u).hdr) 1

/-- WLW and WLV read the window's bytes at the indexed offset in 6 and 7 cycles; outside a valid window they fault. For a core
that can begin an instruction short of the last program word, with index i = s[A] + OFF in 32 bits: when the window is VALID
in the core's configuration and byte offsets n·i to n·i + n − 1 lie within 32·(SIZE_M1 + 1) and within the cluster's SRAM, the
destination holds the n little-endian bytes at BASE + n·i of the core's cluster SRAM (n = 4 for WLW, 32 for WLV), PZ is set
when a word read uncorrectable, the PC is one further after 6 or 7 cycles, and memory is unchanged; with no uncorrectable word
every other core is too (with one, a job of the cluster fails and its cores stop). A window that is not VALID or a load past
its end raises the WINDOW fault. (R180, R181) -/
def Obligations.WindowedLoadsReadClusterSram : Prop :=
  ∀ (s : State) (u : Nat) (d a : Fin 32) (vd win : Fin 8) (off : BitVec 13), CoreRuns s u →
    let m := s.coreCfg (s.core u)
    let idx := (coreS (s.core u) a + BitVec.ofNat 32 off.toNat).toNat
    let base := s.regIn m .FAB_FC_WIN_BASE (ix u 8 win.val)
    let limit := 32 * (s.regIn m .FAB_FC_WIN_SIZE_M1 (ix u 8 win.val) + 1)
    let valid := s.regIn m .FAB_FC_WIN_VALID (ix u 8 win.val) = 1
    let loads := fun (i : Instr) (n cycles : Nat) (write : Nat → FawnCore) =>
      (valid → n * idx + n ≤ limit → base + n * idx + n ≤ 0x400000 → Leads i s fun t =>
        let bad := (s.sramWords (UnitAddr.steward u) (sramOf u + base + n * idx) n).1
        (∃ st, (bad = 0 → st = (s.core u).st) ∧
          t.core u = { write (leNat (cellsRead s.mem (sramOf u + base + n * idx) n)) with
            pz := (s.core u).pz || decide (0 < bad), st := st, waiting := 0, pc := (s.core u).pc + 1
            readyAt := s.cycle + cycles }) ∧
        t.mem = s.mem ∧ (bad = 0 → ∀ w, w ≠ u → t.core w = s.core w)) ∧
      ((¬ valid ∨ limit < n * idx + n) →
        exec i s = Effect s (s.fawnFault u 4 ((sramOf u + (base + n * idx)) % 2 ^ 40)))
    loads (.wlw u d a win off) 4 6 (fun x => coreSetS (s.core u) d (BitVec.ofNat 32 x)) ∧
    loads (.wlv u vd a win off) 32 7 (fun x => coreSetV (s.core u) vd (BitVec.ofNat 256 x))

/-- The twenty-two vector instructions compute lane by lane, take their cycles and change nothing else. For a core that can begin
an instruction short of the last program word, with no injected failure waiting: VADD to VMERGE of a lane width the row allows
answer the state in which the destination holds the result of the table (integer lanes wrap; shifts are by s[S] modulo the
lane width; VRSUM sums signed lanes, F32 in the fixed tree; VSORT and VMERGE order by the FMAX order), the PC is one further,
the core is busy for the row's cycles, one more instruction is counted, and everything else is as it was. VSHL and VSHR with
F32, and VSORT and VMERGE with L16 or L8, are illegal words and fault with code 1. (R169, R172) -/
def Obligations.VectorInstructionsComputeByLane : Prop :=
  ∀ (s : State) (u : Nat) (vd va vb : Fin 8) (sr : Fin 32) (w : LaneW) (part lane : Fin 8) (p4 : Fin 4), CoreRuns s u → NotInjected s u →
    let c := s.core u
    let A := coreV c va
    let B := coreV c vb
    let n := laneBits w
    let f := w = LaneW.f32
    let V := fun (p : Payload) (k : Nat) => vectorResult s u vd p k
    let fl := fun (g : Word → Word → Word) (x y : Nat) => (g (BitVec.ofNat 32 x) (BitVec.ofNat 32 y)).toNat
    let z := coreS c sr
    exec (.vadd u vd va vb w) s = V (laneMap2 w (fun x y => if f then fl fAdd x y else (x + y) % 2 ^ n) A B) (if f then 3 else 1) ∧
    exec (.vsub u vd va vb w) s =
      V (laneMap2 w (fun x y => if f then fl fSub x y else (x % 2 ^ n + 2 ^ n - y % 2 ^ n) % 2 ^ n) A B) (if f then 3 else 1) ∧
    exec (.vmul u vd va vb w) s = V (laneMap2 w (fun x y => if f then fl fMul x y else x * y % 2 ^ n) A B) (if f then 3 else 2) ∧
    exec (.vmin u vd va vb w) s = V (laneMap2 w (fun x y => if f then fl fMin x y else ux n (min (sx n x) (sx n y))) A B) 1 ∧
    exec (.vmax u vd va vb w) s = V (laneMap2 w (fun x y => if f then fl fMax x y else ux n (max (sx n x) (sx n y))) A B) 1 ∧
    exec (.vand u vd va vb) s = V (A &&& B) 1 ∧ exec (.vor u vd va vb) s = V (A ||| B) 1 ∧
    exec (.vxor u vd va vb) s = V (A ^^^ B) 1 ∧
    exec (.vsel u vd va vb) s = V ((coreV c vd &&& A) ||| (~~~(coreV c vd) &&& B)) 1 ∧
    (¬ f → exec (.vshl u vd va sr w) s = V (packLanes w ((lanes w A).map fun x => x * 2 ^ (z.toNat % n))) 1 ∧
      exec (.vshr u vd va sr w) s = V (packLanes w ((lanes w A).map fun x => ux n (sx n x / 2 ^ (z.toNat % n)))) 1) ∧
    (f → exec (.vshl u vd va sr w) s = Effect s (s.fawnFault u 1 0) ∧ exec (.vshr u vd va sr w) s = Effect s (s.fawnFault u 1 0)) ∧
    exec (.vcmpgt u vd va vb w) s = V (laneMap2 w (fun x y =>
      if (if f then fLt (BitVec.ofNat 32 y) (BitVec.ofNat 32 x) = true else sx n y < sx n x) then 2 ^ n - 1 else 0) A B) 1 ∧
    exec (.vsplat u vd sr w) s = V (packLanes w (List.replicate (256 / n) z.toNat)) 1 ∧
    exec (.vget u sr va lane w) s = scalarResult s u sr (BitVec.ofInt 32 (sx n (bits A.toNat (n * lane.val) n))) 1 ∧
    exec (.vput u vd lane sr w) s = V (packLanes w ((lanes w (coreV c vd)).set lane.val z.toNat)) 1 ∧
    exec (.vunpk8 u vd va p4 sr) s =
      V (packLanes .l32 ((List.range 8).map fun i => ux 32 (sx 8 (A.toNat / 256 ^ (8 * p4.val + i)) - z.toInt))) 2 ∧
    exec (.vunpk4 u vd va part sr) s =
      V (packLanes .l32 ((List.range 8).map fun i => ux 32 (sx 4 (A.toNat / 16 ^ (8 * part.val + i)) - z.toInt))) 2 ∧
    exec (.vrmax u sr va w) s = scalarResult s u sr (laneMax w A) 2 ∧
    exec (.vrsum u sr va w) s = scalarResult s u sr (if f then treeSum (lanes w A)
      else BitVec.ofInt 32 ((lanes w A).map (sx n)).sum) (if f then 9 else 3) ∧
    ((w = .l32 ∨ f) → exec (.vsort u vd va w) s = V (packLanes w (sortDesc w (lanes w A))) 5 ∧
      exec (.vmerge u vd va vb w) s = V (packLanes w (mergeDesc w 8 (lanes w A) (lanes w B))) 4) ∧
    ((w = .l16 ∨ w = .l8) → exec (.vsort u vd va w) s = Effect s (s.fawnFault u 1 0) ∧
      exec (.vmerge u vd va vb w) s = Effect s (s.fawnFault u 1 0))

/-- VSORT answers a descending permutation of the lanes; VMERGE of two descending vectors answers the eight largest lanes in
order. For every lane list, the sorted list is a permutation of it whose keys never rise, and equal keys keep their order: for
every key, the elements of that key appear in the same order as before. For two lists whose keys never rise, with at least
eight elements together, the merge has eight elements whose keys never rise and each of which is at least every element left
out. (R172) -/
def Obligations.VectorSortIsAStableDescendingPermutation : Prop :=
  ∀ (w : LaneW) (ls xs ys : List Nat),
    (sortDesc w ls).Perm ls ∧ (sortDesc w ls).Pairwise (fun x y => laneKey w y ≤ laneKey w x) ∧
    (∀ k : Int, (sortDesc w ls).filter (fun x => laneKey w x == k) = ls.filter (fun x => laneKey w x == k)) ∧
    (xs.Pairwise (fun x y => laneKey w y ≤ laneKey w x) → ys.Pairwise (fun x y => laneKey w y ≤ laneKey w x) →
      8 ≤ xs.length + ys.length →
      (mergeDesc w 8 xs ys).length = 8 ∧ (mergeDesc w 8 xs ys).Pairwise (fun x y => laneKey w y ≤ laneKey w x) ∧
      ∃ rest, (mergeDesc w 8 xs ys ++ rest).Perm (xs ++ ys) ∧
        ∀ x ∈ mergeDesc w 8 xs ys, ∀ y ∈ rest, laneKey w y ≤ laneKey w x)

/-- The system instructions read and write the timebase, job, shared counters and PZ as the table says. For a core that can begin
an instruction short of the last program word: NOP and WAIT only pass their cycles; RDTB writes TB to an even register pair
that is not s0, and is illegal otherwise; RDJOB packs RANK, COUNT and ID; CADD goes to the steward for the next cycle, where
s[A] is added to the counter and D takes its value before; CRD returns the counter; PZCLR clears PZ and RDPZ reads it; HALT
leaves the core halted. Each passes its row's cycles, counts one instruction and changes nothing else. A management write of
FAB_SC_CNT sets the counter at once. (R166, R169, R178, R183) -/
def Obligations.FawnSystemInstructionsComplete : Prop :=
  ∀ (s : State) (u : Nat) (d a : Fin 32) (n : Fin 16) (imm : BitVec 16), CoreRuns s u →
    let c := s.core u
    let k := ix (UnitAddr.steward u) 16 n.val
    let count := s.reg .FAB_SC_CNT_VALUE k
    exec (.fawnNop u) s = .next (completed s u c 1 (c.pc + 1)) ∧
    exec (.wait u imm) s = .next (completed s u c (imm.toNat + 1) (c.pc + 1)) ∧
    (d.val % 2 = 0 → d ≠ 0 → exec (.rdtb u d) s = .next (completed s u
      (coreSetS (coreSetS c d (BitVec.ofNat 32 s.tb.tb)) (d + 1) (BitVec.ofNat 32 (s.tb.tb / 2 ^ 32))) 2 (c.pc + 1))) ∧
    ((d.val % 2 = 1 ∨ d = 0) → exec (.rdtb u d) s = Effect s (s.fawnFault u 1 0)) ∧
    exec (.rdjob u d) s = scalarResult s u d (BitVec.ofNat 32
      (s.reg .FAB_FC_JOB_RANK u + 256 * s.reg .FAB_FC_JOB_COUNT u + 65536 * s.reg .FAB_FC_JOB_ID u)) 1 ∧
    (let x : Cadd := { unit := u, dest := d, counter := k, add := (coreS c a).toNat, cyc := s.cycle + 1 }
     exec (.cadd u d a n) s =
       .next (completed { s with fab := { s.fab with cadds := s.fab.cadds ++ [x] } } u c 4 (c.pc + 1)) ∧
      (s.caddApply x).reg .FAB_SC_CNT_VALUE k = (count + (coreS c a).toNat) % 2 ^ 32 ∧
      ((s.cores.get? u).isSome = true → (s.caddApply x).core u = coreSetS c d (BitVec.ofNat 32 count))) ∧
    exec (.crd u d n) s = scalarResult s u d (BitVec.ofNat 32 count) 2 ∧
    exec (.pzclr u) s = .next (completed s u { c with pz := false } 1 (c.pc + 1)) ∧
    exec (.rdpz u d) s = scalarResult s u d (if c.pz then 1 else 0) 1 ∧
    exec (.halt u) s = .next (completed s u { c with st := .halted } 1 (c.pc + 1)) ∧
    (∀ (st : Nat) (v : Nat), exec (.fabScCnt st n v) s = .next (s.setReg .FAB_SC_CNT_VALUE (ix st 16 n.val) v))

/-- A fawn fault freezes the core at the instruction with its code and PC recorded and nothing performed. For a core that can
begin an instruction: FETCH_ECC records code 6 and the internal address of the program word; ILLEGAL on an illegal program
word records code 1; LDW, STW, LDV and STV outside scratch record SCRATCH_RANGE (2) and unaligned ones ALIGN (3) with the
internal address. In each case FAULT.PC is the PC of the instruction, the core is frozen with its registers, PC and PZ
unchanged and is listed as frozen, memory is unchanged, and every other core at most stops or ends its wait (when a job of the
cluster fails, R227). Behind program word 4,095 the fetch raises FETCH_RANGE (5): ADDI there writes its result and then the
core is frozen, and the PC never wraps. (R30, R168, R181, R185) -/
def Obligations.FawnFaultsFreezeTheCore : Prop :=
  ∀ (s : State) (u : Nat) (d a : Fin 32) (v : Fin 8) (imm : BitVec 16), CoreGoes s u → (s.core u).pc ≤ 4095 →
    let faults := fun (i : Instr) (code addr : Nat) => Leads i s fun t =>
      t.core u = { s.core u with st := .frozen, waiting := 0 } ∧ t.isFrozen (0x10000 + u) = true ∧
      t.reg .FAB_FC_FAULT_CODE u = code ∧ t.reg .FAB_FC_FAULT_PC u = (s.core u).pc ∧ t.reg .FAB_FC_FAULT_ADDR u = addr % 2 ^ 40 ∧
      t.mem = s.mem ∧
      (∀ w, w ≠ u → CoreMayStop (s.core w) (t.core w))
    let ea := scratchEa (s.core u) a imm
    faults (.fetchEcc u) 6 (progBase u + 4 * (s.core u).pc) ∧
    (fawnLegal (s.regIn (s.coreCfg (s.core u)) .FAB_UCFG_INPUTS u) (s.rdLe (progBase u + 4 * (s.core u).pc) 4) = false →
      faults (.illegal u) 1 0) ∧
    (0x10000 ≤ ea → faults (.ldw u d a imm) 2 (unitSpace u + ea) ∧ faults (.stw u d a imm) 2 (unitSpace u + ea) ∧
      faults (.ldb u d a imm) 2 (unitSpace u + ea) ∧ faults (.stb u d a imm) 2 (unitSpace u + ea)) ∧
    (ea < 0x10000 → ea % 4 ≠ 0 → faults (.ldw u d a imm) 3 (unitSpace u + ea) ∧ faults (.stw u d a imm) 3 (unitSpace u + ea)) ∧
    (ea < 0x10000 → ea % 32 ≠ 0 → faults (.ldv u v a imm) 3 (unitSpace u + ea) ∧ faults (.stv u v a imm) 3 (unitSpace u + ea)) ∧
    ((s.core u).pc = 4095 → NotInjected s u → Leads (.addi u d a imm) s fun t => t.isFrozen (0x10000 + u) = true ∧
      t.reg .FAB_FC_FAULT_CODE u = 5 ∧ t.reg .FAB_FC_FAULT_PC u = 4095 ∧ t.mem = s.mem ∧
      t.core u = { coreSetS (s.core u) d (coreS (s.core u) a + imm.signExtend 32) with
        st := .frozen, waiting := 0, readyAt := s.cycle + 1 })

/-- An injected FWN_ALU failure changes no result; it is used up and kept for the next post. For a core that can begin an
instruction short of the last program word with n + 1 injected failures waiting: ADD and VADD write the same results with the
same timing as without; one injected failure fewer waits; and the first failure since the last post is kept with the unit,
class FWN_ALU and the low 32 bits of the result, an earlier kept one staying. (R366, R368, R467) -/
def Obligations.InjectedFailureIsKeptForThePost : Prop :=
  ∀ (s : State) (u n : Nat) (d a b : Fin 32) (vd va vb : Fin 8), CoreRuns s u → s.ints.inject.get? (u, 3) = some (n + 1) →
    (Leads (.add u d a b) s fun t => t.ints.inject.get? (u, 3) = some n ∧
      (∃ k, t.core u = { coreSetS (s.core u) d (coreS (s.core u) a + coreS (s.core u) b) with
        failed := some k, waiting := 0, pc := (s.core u).pc + 1, readyAt := s.cycle + 1 } ∧
        (∀ p, (s.core u).failed = some p → k = p) ∧
        ((s.core u).failed = none → k.unit = u ∧ k.cls = 3 ∧ k.injected = true ∧
          k.wordMain = (coreS (s.core u) a + coreS (s.core u) b).toNat)) ∧ t.mem = s.mem) ∧
    (Leads (.vadd u vd va vb .l32) s fun t => t.ints.inject.get? (u, 3) = some n ∧ (t.core u).failed.isSome = true ∧
      coreV (t.core u) vd = laneMap2 .l32 (fun x y => (x + y) % 2 ^ 32) (coreV (s.core u) va) (coreV (s.core u) vb) ∧ t.mem = s.mem)

/-- A fawn command to a core that is frozen, stopped, halted or still busy changes nothing. For a core that cannot begin an
instruction (not running, frozen, or inside the previous instruction), out of internal reset, a fawn instruction of any of the
shapes named (integer, load, store, branch, send, receive, vector, system) leaves the state as it is. (R30, R166) -/
def Obligations.ACoreThatCannotBeginDoesNothing : Prop :=
  ∀ (s : State) (u : Nat) (d a b : Fin 32) (v x : Fin 8) (inp : Fin 4) (imm : BitVec 16) (off : BitVec 13) (w : LaneW),
    Awake s → s.coreReady u = false →
    ∀ i ∈ [Instr.add u d a b, .div u d a b, .addi u d a imm, .ldw u d a imm, .stv u v a imm, .beq u a b imm, .jalr u d a imm,
      .fetchEcc u, .illegal u, .fma u d a b, .fsqrt u d a, .recv u d a v inp, .recvWaitLimit u d a v inp, .recvo u d v inp,
      .send u a b v, .wlv u v a x off, .vadd u v x v w, .vshl u v x d w, .vsort u v x w, .vget u d v x w, .rdtb u d,
      .cadd u d a 0, .halt u, .wait u imm], exec i s = .next s

/-- The head token of a switch register moves one hop along its route in a cycle, or is discarded where the rules say so. Out of
reset, with t the token ready at the head of a register as its link left it (unharmed, its header corrected, or payload bits
inverted): if its KIND is 1 to 4, its EPOCH_LO selects a configuration m and r is the matching route entry, then with no delay
and one output whose next register (the neighbour's, or the first extra hop's beside a spare site) does not assert stop, it
leaves the register and stands behind that register's tokens from the next cycle, FORWARDED counts it, and every other
register is as before; with the local output to a configured input whose store accepts and its residue right, it is stored
with the next cycle as its write cycle; to a data steer store that accepts, its tag not expired, the same; with a delay and a
delay line that accepts, it enters the line. A token with no route, of a stale epoch, of KIND 0 or of KIND 5 and above, and
one with an uncorrectable header, leave the register and are counted as their rules say. Bytes of memory and the cores never
change. (R18, R76, R77, R82, R83, R85, R92) -/
def Obligations.TokensHopAlongTheirRoutes : Prop :=
  ∀ (s : State) (u : Nat) (dir : Fin 5) (t0 t : Token) (link : Upset) (m : RegMap), Awake s → s.hopHead u dir.val = some t0 →
    ((link = .none ∨ link = .corrected) ∧ t = t0 ∨ ∃ mask, link = .flipped mask ∧ t = { t0 with payload := t0.payload ^^^ mask }) →
    let leaves := fun (l : Upset) (P : State → Prop) => Leads (.tokenHop u dir l) s fun x =>
      x.regQ u dir.val = (s.regQ u dir.val).drop 1 ∧ SameBytes s x ∧ P x
    (1 ≤ t.kind → t.kind ≤ 4 → s.cfgOf t.epochLo = some m →
      (∀ (r : RouteE) (out v d : Nat), s.routeOf m u dir.val t.stream = some r → r.delay = 0 → r.steer = 0 →
        outsOf r.out = [out] → out ≠ 4 → destOf u out = .reg v d →
        let k := hopKey v (s.detour t.epochLo u v)
        (k, d) ≠ (u, dir.val) → s.regStop k d = false →
        leaves link fun x => x.regQ k d = s.regQ k d ++ [{ tok := t, cyc := s.cycle + 1 }] ∧
          (∀ w e, (w, e) ≠ (u, dir.val) → (w, e) ≠ (k, d) → x.regQ w e = s.regQ w e) ∧ Counted s x .FAB_PCNT_FORWARDED u 1) ∧
      (∀ (r : RouteE), s.routeOf m u dir.val t.stream = some r → r.delay = 0 → r.steer = 0 → outsOf r.out = [4] →
        bitAt (s.regIn m .FAB_UCFG_INPUTS (u % 4096)) r.input = true → s.storeStop u r.input = false →
        t.residue = payloadResidue t.payload →
        leaves link fun x => x.storeQ u r.input = s.storeQ u r.input ++ [{ tok := t, cyc := s.cycle + 1 }]) ∧
      (∀ (r : RouteE), s.routeOf m u dir.val t.stream = some r → r.delay = 0 → r.steer = 1 →
        s.regIn m .FAB_STEER_CTRL_ENABLE u ≠ 0 → s.steerStop u false = false → t.residue = payloadResidue t.payload →
        (∀ e ∈ s.fab.expired.getD u [], e.1 ≠ t.tag) →
        leaves link fun x => x.steerQ u = s.steerQ u ++ [{ tok := t, cyc := s.cycle + 1 }]) ∧
      (∀ (r : RouteE), s.routeOf m u dir.val t.stream = some r → r.delay ≠ 0 → s.delayStop u = false →
        leaves link fun x => x.fab.delay.getD u [] = s.fab.delay.getD u [] ++
          [{ tok := t, enter := s.cycle + 1, delay := r.delay, out := r.out, input := r.input, slot := r.slot, steer := r.steer }]) ∧
      (s.routeOf m u dir.val t.stream = none → leaves link fun x => Counted s x .FAB_CNT_DISCARD_NOROUTE 0 1)) ∧
    (1 ≤ t.kind → t.kind ≤ 4 → s.cfgOf t.epochLo = none → leaves link fun x => Counted s x .FAB_CNT_DISCARD_STALE 0 1) ∧
    (t.kind = 0 → leaves link fun x => x.fab.stores = s.fab.stores ∧ x.fab.delay = s.fab.delay) ∧
    (5 ≤ t.kind → leaves link fun x => Counted s x .FAB_CNT_MISC_FORMAT 0 1) ∧
    leaves .uncorrectable (fun x => Counted s x .FAB_CNT_CHECK_HDR_UNCORR 0 1)

/-- A stopped route keeps the token where it is. Out of reset, when the head token of a register has a route without delay or
steering some output of which asserts stop, TOKEN_HOP leaves every register, store and delay line as it is; when no token of a
delay line has waited its DELAY cycles, DELAY_LINE_RELEASE changes nothing. (R79, R81, R85) -/
def Obligations.StopHoldsTokens : Prop :=
  ∀ (s : State) (u : Nat) (dir : Fin 5), Awake s →
    (∀ (t : Token) (m : RegMap) (r : RouteE), s.hopHead u dir.val = some t → 1 ≤ t.kind → t.kind ≤ 4 → s.cfgOf t.epochLo = some m →
      s.routeOf m u dir.val t.stream = some r → r.delay = 0 → r.steer = 0 → s.allFree m u r.out r.input t.epochLo = false →
      Leads (.tokenHop u dir .none) s fun x => (∀ v d, x.regQ v d = s.regQ v d) ∧ (∀ v i, x.storeQ v i = s.storeQ v i) ∧
        x.fab.delay = s.fab.delay ∧ SameBytes s x) ∧
    ((∀ e ∈ s.fab.delay.getD u [], s.cycle + 1 < e.enter + e.delay) → exec (.delayLineRelease u) s = .next s)

/-- The token of a delay line that is next to leave does so DELAY cycles after it entered, on its route's output. Out of reset,
with e the token of a port's delay line whose DELAY has run first: with a route of one output to a neighbour whose register
does not assert stop, the delay line loses that token, and it stands behind the neighbour's tokens (or in the first extra hop
beside a spare site) from the next cycle, counted as forwarded, every other register as before; when its EPOCH_LO selects no
configuration held, it leaves the line and is counted as stale. Bytes of memory and the cores do not change. (R85, R92) -/
def Obligations.DelayLinesReleaseInOrder : Prop :=
  ∀ (s : State) (u : Nat) (e : DelayEntry), Awake s → s.delayNext u = some e →
    (∀ (out v d : Nat) (m : RegMap), s.cfgOf e.tok.epochLo = some m → e.steer = 0 → outsOf e.out = [out] → out ≠ 4 →
      destOf u out = .reg v d →
      let k := hopKey v (s.detour e.tok.epochLo u v)
      s.regStop k d = false →
      Leads (.delayLineRelease u) s fun x => x.fab.delay.getD u [] = removeFirst (· == e) (s.fab.delay.getD u []) ∧
        x.regQ k d = s.regQ k d ++ [{ tok := e.tok, cyc := s.cycle + 1 }] ∧
        (∀ w j, (w, j) ≠ (k, d) → x.regQ w j = s.regQ w j) ∧ Counted s x .FAB_PCNT_FORWARDED u 1 ∧ SameBytes s x) ∧
    (s.cfgOf e.tok.epochLo = none → Leads (.delayLineRelease u) s fun x =>
      x.fab.delay.getD u [] = removeFirst (· == e) (s.fab.delay.getD u []) ∧ Counted s x .FAB_CNT_DISCARD_STALE 0 1 ∧ SameBytes s x)

/-- Steering pairs depart on the entry SELECT names, unpaired tokens are released with SKEW, and old entries leave. Out of reset,
with no token of a stale epoch in a port's steer stores: STEER_PAIR with no pair of an invalid SELECT, and (d, c) the
earliest-written data token and its control token that may depart, both written in an earlier cycle, the selected entry of one
output to a neighbour that accepts, takes both from their stores and puts the data token, poisoned when either was, behind the
neighbour's tokens. STEER_RELEASE of a data token that has waited WAIT cycles without its partner marks it to depart on the
default entry one cycle after, posts SKEW for its tag, counts it and enters its tag in the expired-tag list; of a control
token, when no data token is due, it discards it, with the same post, count and entry. EXPIRED_TAG_LEAVE drops the tags whose
age is reached and nothing else. STORE_EXPIRY discards the entries at the hold limit and counts them. FAB_FIRST_ERR_REARM
clears VALID. (R91, R95, R96, R105) -/
def Obligations.SteeringPairsAndReleases : Prop :=
  ∀ (s : State) (u : Nat), Awake s →
    let fresh := (∀ e ∈ s.steerQ u, (s.cfgOf e.tok.epochLo).isSome = true) ∧ (∀ e ∈ s.ctrlQ u, (s.cfgOf e.tok.epochLo).isSome = true)
    let released := fun (t : Token) (x : State) =>
      (∃ slot, { slot := slot, tag := t.tag, epochLo := t.epochLo, flag := 0, cyc := s.cycle + 4 } ∈ x.fab.flagPosts) ∧
      (t.tag, s.cycle) ∈ x.fab.expired.getD u [] ∧ Counted s x .FAB_CNT_ALIGN_STEER_DEFAULT 0 1 ∧ SameBytes s x
    (∀ (d : SteerEntry) (c : Entry) (mask inp out v k : Nat), fresh → (∀ p ∈ s.steerPairs u, s.selectOk u p = true) →
      s.fab.movedAt.get? (u, 5) ≠ some s.cycle →
      minBy (fun x => x.1.cyc) (s.steerReady u true) = some (d, some c, c.tok.payload.toNat % 4) →
      s.steerE (s.steerCfg d.tok) u (c.tok.payload.toNat % 4) = (mask, inp) → outsOf mask = [out] → out ≠ 4 →
      destOf u out = .reg v k → s.regStop (hopKey v (s.detour d.tok.epochLo u v)) k = false →
      Leads (.steerPair u) s fun x =>
        x.steerQ u = removeFirst (· == d) (s.steerQ u) ∧ x.ctrlQ u = removeFirst (· == c) (s.ctrlQ u) ∧
        x.regQ (hopKey v (s.detour d.tok.epochLo u v)) k = s.regQ (hopKey v (s.detour d.tok.epochLo u v)) k ++
          [{ tok := { d.tok with poison := d.tok.poison || c.tok.poison }, cyc := s.cycle + 1 }] ∧ SameBytes s x) ∧
    (∀ (d : SteerEntry), fresh → (s.steerQ u).find? (s.dataDue u ·) = some d → Leads (.steerRelease u) s fun x =>
        x.steerQ u = updateFirst (· == d) (fun e => { e with go := some (s.regIn (s.steerCfg d.tok) .FAB_STEER_CTRL_DEFAULT u,
          d.cyc + s.regIn (s.steerCfg d.tok) .FAB_STEER_CTRL_WAIT u + 1) }) (s.steerQ u) ∧ released d.tok x) ∧
    (∀ (c : Entry), fresh → (s.steerQ u).find? (s.dataDue u ·) = none → (s.ctrlQ u).find? (s.ctrlDue u ·) = some c →
      Leads (.steerRelease u) s fun x => x.ctrlQ u = removeFirst (· == c) (s.ctrlQ u) ∧ released c.tok x) ∧
    exec (.expiredTagLeave u) s = .next { s with fab := { s.fab with
      expired := s.fab.expired.put u ((s.fab.expired.getD u []).filter fun e => decide (s.cycle < e.2 + s.expiredAge u)) } } ∧
    (∀ (i : Fin 4) (e : Entry) (more : List Entry), (s.storeQ u i.val).filter (s.entryExpired u ·) = e :: more →
      Leads (.storeExpiry u i) s fun x =>
        x.storeQ u i.val = (s.storeQ u i.val).filter (fun e => !s.entryExpired u e) ∧
        Counted s x .FAB_CNT_STORE_EXPIRED 0 (more.length + 1) ∧ Counted s x .FAB_UCNT_EXPIRED u (more.length + 1) ∧
        SameBytes s x) ∧
    exec .fabFirstErrRearm s = .next (s.setReg .FAB_FIRST_ERR_VALID 0 0)

/-- An eland engine consumes a complete pair of tokens, holds its set and is busy for one cycle per output block. Out of reset,
for an engine whose array is free and whose output accepts, and s1 the state after stale and surplus tokens are discarded:
FIRE in tag mode takes the first tag's data block d with its scale (and correction) token when a set is held for the tag or
one is free, and READY_FIRE in ready mode the oldest block and tokens, of one block index and its escapes matched: every
consumed token has left its store, the next firing may start NB_OUT cycles on, FIRES counts one, and the block index is in the
tag's accumulator set, or, when the block was the last, the pass stands complete with this cycle as its last firing. No byte
of memory changes. (R86, R89, R98, R109, R111, R112) -/
def Obligations.EnginesFireOnCompletePairs : Prop :=
  ∀ (s : State) (u tag lo : Nat) (rest : List (Nat × Nat)) (d : EldBlock) (sc : Entry) (co : Option Entry) (extra : List Entry),
    Awake s →
    let fired := fun (c : EldCfg) (t l : Nat) (x : State) =>
      (∀ e ∈ d.parts, e ∉ x.storeQ u 0) ∧ sc ∉ x.storeQ u 1 ∧ (∀ e ∈ co, e ∉ x.storeQ u 2) ∧ (∀ e ∈ extra, e ∉ x.storeQ u 3) ∧ (x.eng u).nextFire = s.cycle + c.nbOut ∧
      Counted s x .FAB_UCNT_FIRES u 1 ∧
      (d.last = false → ∃ a ∈ (x.eng u).sets, a.tag = t ∧ a.epochLo = l ∧ d.idx ∈ a.fired) ∧
      (d.last = true → ∃ p ∈ (x.eng u).done, p.set.tag = t ∧ p.set.epochLo = l ∧ p.lastFire = s.cycle ∧ d.idx ∈ p.set.fired) ∧
      x.mem = s.mem ∧ x.win = s.win
    (let s1 := (s.purgeInputs u).eldSurplus u
     let c := s1.eldCfg ((s1.cfgOf lo).getD s1.regs) u
     let old := (s1.eng u).sets.find? fun x => x.tag == tag && x.epochLo == lo
     (s1.eng u).nextFire ≤ s1.cycle → s1.outStop u = false → s1.eldTags u = (tag, lo) :: rest → c.ready = false → c.inputs % 4 = 3 →
     s1.eldAction u c (old.any (·.scaleDone)) (some (tag, lo)) = some (.pair d sc co) →
     s1.eldThird u c (some (tag, lo)) = some extra → (old.isSome = true ∨ s1.setsUsed u < 16) →
     Leads (.fire u) s (fired c tag lo)) ∧
    (let s1 := s.purgeInputs u
     let c := s1.eldCfg s1.regs u
     UnitAddr.isEland u = true → c.ready = true → c.inputs % 4 = 3 → (s1.eng u).nextFire ≤ s1.cycle → s1.outStop u = false →
     s1.readyAction u c = some (.pair d sc co) → s1.eldThird u c none = some extra → s1.readySet u (.pair d sc co) = true →
     ∀ p more, d.parts = p :: more → Leads (.readyFire u) s (fired c p.tok.tag p.tok.epochLo))

/-- Lpass cycles after its last firing a pass leaves the output stage as sealed tokens of its tag. Out of reset, with p the oldest
completed pass of an engine and Lpass cycles (80, or 84 on A2) past since its last firing: PASS_OUTPUT takes it from the
completed passes, and its tokens, at least one, each with the pass's TAG and EPOCH_LO, its residue, and POISON when the pass
is poisoned, are queued behind those already leaving, the first of all of which may leave in this cycle to the local output
register. No byte of memory changes. (R69, R74, R88, R134, R135) -/
def Obligations.PassesLeaveInOrder : Prop :=
  ∀ (s : State) (u : Nat) (p : PassOut) (rest : List PassOut), Awake s → (s.eng u).done = p :: rest →
    p.lastFire + (if s.stepping = 0xA2 then 84 else 80) ≤ s.cycle →
    Leads (.passOutput u) s fun x => (x.eng u).done = rest ∧ x.mem = s.mem ∧ x.win = s.win ∧
      ∃ ts : List Token, ts ≠ [] ∧
        (∀ k ∈ ts, k.tag = p.set.tag ∧ k.epochLo = p.set.epochLo ∧ k.residue = payloadResidue k.payload ∧
          (p.set.poison = true → k.poison = true)) ∧
        let all := (s.eng u).outQ.map (·.tok) ++ ts
        ((x.eng u).outQ.map (·.tok) = all ∧ x.regQ u 4 = s.regQ u 4) ∨
        (∃ k, k :: (x.eng u).outQ.map (·.tok) = all ∧ (x.regQ u 4).map (·.tok) = (s.regQ u 4).map (·.tok) ++ [Token_sealed k])

/-- An output code is the rounded value with its zero point, an escape, or the nearest code at the range's end. For every
configuration, zero point, value q and escapes already used: a sum q + zo within the format's range (7 for Q4, 127 for Q8) is
the code; beyond it, with escapes enabled, fewer than four used and |q| below 32,768, the code is the escape code and q is
kept; otherwise the code is the end of the range nearest to the sum and the channel is clipped. An exact value y = q times 2^t
is rounded to sign(y) times floor(|y| + 1/2): the value itself without RELU and table, max(x, 0) with RELU, entry / 256 for
the table's 24-bit entry e at its index; and a channel of an output block emits the code of its own rounded value. (R129) -/
def Obligations.OutputCodesRoundClipOrEscape : Prop :=
  ∀ (c : EldCfg) (zo q : Int) (used : Nat),
    let top : Int := if c.outFmt = 1 then 7 else 127
    let o := roundCode c zo q used
    (-top ≤ q + zo → q + zo ≤ top → o.code = q + zo ∧ o.esc = none ∧ o.clip = false) ∧
    ((q + zo < -top ∨ top < q + zo) → c.escEn = true → used < 4 → q.natAbs < 32768 →
      o.code = -top - 1 ∧ o.esc = some q ∧ o.clip = false) ∧
    ((q + zo < -top ∨ top < q + zo) → ¬ (c.escEn = true ∧ used < 4 ∧ q.natAbs < 32768) →
      o.esc = none ∧ o.clip = true ∧ o.code = (if q + zo < 0 then -top else top)) ∧
    (∀ n : Nat, roundShift q n = q * 2 ^ n ∧
      roundShift q (-(n : Int)) = q.sign * (((2 * q.natAbs + 2 ^ n) / 2 ^ (n + 1) : Nat) : Int)) ∧
    (∀ (s : State) (u : Nat) (t : Int),
      (c.relu = false → c.tableEn = false → s.activation u c q t = (roundShift q t, false, s)) ∧
      (c.relu = true → s.activation u c q t = (roundShift (max q 0) t, false, s)) ∧
      (c.relu = false → c.tableEn = true →
        let r := s.passRead u (c.table + 4 * (clampI 0 1023 (floorShift q (t + c.tableIn) + 512)).toNat) 4
        s.activation u c q t = (roundShift (sx 24 (leNat r.1)) (-8), r.2)) ∧
      (∀ (base xo : Int) (desc : Nat),
        let a := s.activation u c q (base + sx 8 (bits desc 16 8) - xo)
        s.blockOut u c base xo zo [(q, desc)] used = ([roundCode c zo a.1 used], a.2)))

/-- Expired sets are freed, and a closed clip bank is written as an output-channel record. Out of reset: ACC_EXPIRED frees exactly
the sets of an engine whose first firing lies LIMIT cycles back (LIMIT not zero), without output, and counts them.
OUTPUT_RECORD_WRITE of an engine with a closed bank, the record area set, the RECORD class's turn at the stack and memory in
its canonical form, takes the oldest bank and writes its 8,256-byte record at its place: unit, window and the 2,048 channel
counts read there, and no other byte of memory changes. (R91, R112, R160, R161) -/
def Obligations.EngineHousekeepingCompletes : Prop :=
  ∀ (s : State) (u : Nat), Awake s →
    (let gone := fun (a : AccSet) => let lim := s.regIn ((s.cfgOf a.epochLo).getD s.regs) .FAB_UHOLD_LIMIT u
        decide (lim ≠ 0 ∧ a.first + lim ≤ s.cycle)
     (∃ a ∈ (s.eng u).sets, gone a = true) → Leads (.accExpired u) s fun x =>
        (x.eng u).sets = (s.eng u).sets.filter (fun a => !gone a) ∧ (x.eng u).outQ = (s.eng u).outQ ∧
        Counted s x .ELD_CNT_ACC_ACC_EXPIRED 0 ((s.eng u).sets.filter gone).length ∧ SameBytes s x ∧ x.fab = s.fab) ∧
    (∀ (b : ClipBank) (rest : List ClipBank), (s.eng u).closed = b :: rest → s.reg .CND_OSTAT_BASE_ADDR ≠ 0 → s.memTurn 6 = true → MemOk s →
      let at_ := s.reg .CND_OSTAT_BASE_ADDR + 16512 * (48 * UnitAddr.region u + 3 * UnitAddr.cluster u + UnitAddr.unit u / 5)
        + 8256 * (b.window % 2)
      Leads (.outputRecordWrite u) s fun x => (x.eng u).closed = rest ∧
        leNat (cellsRead x.mem at_ 2) = u % 65536 ∧ leNat (cellsRead x.mem (at_ + 2) 2) = b.window % 65536 ∧
        (∀ j < 2048, leNat (cellsRead x.mem (at_ + 64 + 4 * j) 4) = b.counts.getD j 0 % 2 ^ 32) ∧
        (∀ q, q < at_ ∨ at_ + 8256 ≤ q → cellGet x.mem q = cellGet s.mem q) ∧ x.cores = s.cores ∧ x.win = s.win)

/-- Channel-table writes land at once in the staged copy, a SENSOR frame's blocks are all converted, and a queued record reaches
the stack. Out of reset, with n in CND_TBL_INDEX: CND_TBL_LO stores bits [55:0] as the channel fields of entry n of the staged
copy, and CND_TBL_HI the block fields, which only element 0 of a block keeps, marking the block for restart; all else is as it
was. A good in-order SENSOR frame on an UP ingress port that is not skipping to an _FS block, of 1 to 7 blocks within 1,024,
16 words each, reserved bits zero, is accepted and its blocks are converted in order under the frame's event number.
BLOCK_RECORD_WRITE takes the oldest queued record and, when the record area is set, the RECORD class has its turn at the stack
and memory is in its canonical form, stores its bytes at its block's place for the window's parity; no other byte changes.
(R144, R154, R159, R162, R287, R291) -/
def Obligations.ChannelTableAndSensorFramesTakeEffect : Prop :=
  ∀ (s : State), Awake s →
    (∀ (v : Nat),
      let n := s.reg .CND_TBL_INDEX_INDEX
      let old := s.cond.staged.getD n (0, 0)
      exec (.cndTblLo v) s = .next { s with cond := { s.cond with staged := s.cond.staged.put n (v % 2 ^ 56, old.2), dirty := true } } ∧
      exec (.cndTblHi v) s = .next { s with cond := { s.cond with
        staged := s.cond.staged.put n (old.1, if n % 64 = 0 then v % 2 ^ 41 else 0), dirty := true
        touched := if n % 64 = 0 ∧ n / 64 ∉ s.cond.touched then s.cond.touched ++ [n / 64] else s.cond.touched } }) ∧
    (∀ (p : Fin 16) (f : Frame),
      let num := bits (leAt f.payload 0 8) 0 32
      let b := bits (leAt f.payload 0 8) 32 10
      let n := bits (leAt f.payload 0 8) 42 3
      s.portUp p.val = true → ((s.port p.val).skipN = false ∨ f.fs = true) → s.reg .OPX_PCTRL_ROLE p.val = 0 → frameGood 1 f = true → f.seq % 64 = (s.port p.val).rxN →
      bits (leAt f.payload 0 8) 45 19 = 0 → f.len = 1 + 16 * n → 1 ≤ n → b + n ≤ 1024 →
      exec (.sensor p f) s = Effect s ((List.range n).foldl
        (fun x k => x.sensorBlock num (b + k) ((List.range 64).map fun e => leAt f.payload (8 + 128 * k + 2 * e) 2))
        ((s.setSkip p.val false false).acceptSeq p.val false (f.seq + 1)))) ∧
    (∀ (r : WinRecord) (rest : List WinRecord), s.cond.queue = r :: rest → s.reg .CND_STAT_BASE_ADDR ≠ 0 → s.memTurn 6 = true → MemOk s →
      let at_ := s.reg .CND_STAT_BASE_ADDR + 2176 * r.block + 1088 * (r.window % 2)
      let bs := r.header ++ r.chans
      Leads .blockRecordWrite s fun x => x.cond.queue = rest ∧
        (∀ j < bs.length, cellGet x.mem (at_ + j) = BitVec.ofNat 8 (bs.getD j 0)) ∧
        (∀ q, q < at_ ∨ at_ + bs.length ≤ q → cellGet x.mem q = cellGet s.mem q) ∧ x.cores = s.cores ∧ x.win = s.win)

/-- A sample becomes its rounded difference, then a code, an escape or the nearest end code; the exponent moves by at most one
within its limits. For every channel and block configuration: a masked channel gives 0; otherwise d is (r − OFFSET) × GAIN ×
2^(−16−X) rounded to nearest with ties away from zero. The code is d + ZP inside ±7 or ±127; outside, with escapes enabled,
fewer than four used and |d| below 32,768, the escape code with d kept; else the end of the range. The decision of a closed
window raises X by one when OVER holds below EXP_HI, lowers it by one only after FALL consecutive fitting windows and above
EXP_LO, and never leaves [EXP_LO, EXP_HI] from within it. (R12, R146, R147, R155) -/
def Obligations.ConversionScalesRoundsAndAdapts : Prop :=
  ∀ (c : ChanCfg) (b : BlockCfg) (x : Int) (raw used fc : Nat) (above fits : Bool),
    (c.mask = true → sampleDiff c x raw = 0) ∧
    (c.mask = false → ∀ n : Nat, 16 + x = n →
      let v := (sampleValue c raw - c.offset) * c.gain
      2 * (v - sampleDiff c x raw * 2 ^ n).natAbs ≤ 2 ^ n ∧
      (0 < n → 2 * (v - sampleDiff c x raw * 2 ^ n).natAbs = 2 ^ n → v.natAbs < (sampleDiff c x raw * 2 ^ n).natAbs)) ∧
    (c.mask = false → ∀ n : Nat, -16 - x = n → sampleDiff c x raw = (sampleValue c raw - c.offset) * c.gain * 2 ^ n) ∧
    (∀ d : Int,
      let top : Int := if b.q4 then 7 else 127
      let o := diffCode b d used
      (-top ≤ d + b.zp → d + b.zp ≤ top → o = { code := d + b.zp }) ∧
      ((d + b.zp < -top ∨ top < d + b.zp) → b.escEn = true → used < 4 → d.natAbs < 32768 →
        o = { code := -top - 1, esc := some d }) ∧
      ((d + b.zp < -top ∨ top < d + b.zp) → ¬ (b.escEn = true ∧ used < 4 ∧ d.natAbs < 32768) →
        o = { code := if d + b.zp < 0 then -top else top, clip := true, ovf := b.escEn })) ∧
    (let a := adaptDecide b x fc above fits
     (above = true → x < b.expHi → a.next = x + 1 ∧ a.fallCnt = 0) ∧
     (above = true → b.expHi ≤ x → a.next = x ∧ a.ceiling = true) ∧
     (above = false → fits = true → b.fallM1 ≤ fc → b.expLo < x → a.next = x - 1 ∧ a.fallCnt = 0) ∧
     (above = false → fits = true → b.fallM1 ≤ fc → x ≤ b.expLo → a.next = x ∧ a.floor = true) ∧
     (above = false → fits = true → fc < b.fallM1 → a.next = x ∧ a.fallCnt = fc + 1) ∧
     (above = false → fits = false → a.next = x ∧ a.fallCnt = 0) ∧
     (b.expLo ≤ x → x ≤ b.expHi → b.expLo ≤ a.next ∧ a.next ≤ b.expHi))

/-- An incomplete event follows INC_POLICY, a ready event is released towards its mark with the next tag, and an event not
injected gets its mark. Out of reset, no commit in progress. EVENT_INCOMPLETE: the first event whose slack has run out becomes
ready, marked incomplete, under INC_POLICY 1 with fewer than four waiting; under INC_POLICY 0 it leaves the buffer and waits
for its mark. EVENT_RELEASE of the event ready first, its mark n cycles on (n the fullest row's tokens), at least II after the
last one and not given yet: it leaves, its tokens stand in their injection rows between this cycle and the mark, and the
verdict unit holds it with the next tag of the range, the epoch in force and its mark. NOINJECT_MARK gives the oldest event
not injected its mark in this cycle, when no other of the slot has it. (R34, R41, R46, R47, R48, R78, R93) -/
def Obligations.EventsLeaveTheDeskewBuffer : Prop :=
  ∀ (s : State) (slot : Fin 16), Awake s → s.commit = .idle →
    let d := s.dskSlot slot.val
    (∀ (ev : DskEvent) (more : List DskEvent),
      (d.events.filter fun e => e.ready.isNone && decide (e.t0 + s.reg .VRD_INGRESS_SLACK slot.val ≤ s.cycle)) = ev :: more →
      (s.reg .VRD_CTRL_INC_POLICY slot.val = 1 → (d.events.filter (·.ready.isSome)).length < 4 →
        exec (.eventIncomplete slot) s = .next (s.setDsk slot.val { d with
          events := updateFirst (·.num == ev.num) (fun _ => { ev with incomplete := true, ready := some s.cycle }) d.events })) ∧
      (s.reg .VRD_CTRL_INC_POLICY slot.val = 0 →
        exec (.eventIncomplete slot) s = .next (s.setDsk slot.val { d with
          events := removeFirst (·.num == ev.num) d.events, gone := lastN 64 (d.gone ++ [ev.num])
          noinj := d.noinj ++ [{ num := ev.num, since := s.cycle, overrun := false, incomplete := true, blocks := ev.blocks }] }))) ∧
    (∀ (ev : DskEvent) (net : Net), dskHead d = some ev → (s.netSlot slot.val).live = some net →
      let mark := s.cycle + rowMax (s.eventTokens slot.val net s.epoch 0 ev.blocks) - 1
      let given := if d.tagImg = net.img.imageId then d.given else 0
      let tag := net.img.tagBase + given % max 1 net.img.tagCount
      (∀ p, d.lastInj = some p → p + net.img.ii ≤ mark) → mark ∉ d.marks →
      Leads (.eventRelease slot) s fun x =>
        (x.dskSlot slot.val).events = removeFirst (·.num == ev.num) d.events ∧
        (x.dskSlot slot.val).lastInj = some mark ∧ (x.dskSlot slot.val).given = given + 1 ∧ mark ∈ (x.dskSlot slot.val).marks ∧
        (∃ tb, (x.unitV slot.val).events = (s.unitV slot.val).events ++
          [{ num := ev.num, tag := tag, epoch := s.epoch, bank := net.bank, lnet := net.img.lnet, mark := mark, ingressTB := tb,
             incomplete := ev.incomplete }]) ∧
        (∃ es : List (Nat × Entry), es.map (fun e => (e.1, e.2.tok)) ⊆ s.eventTokens slot.val net s.epoch tag ev.blocks ∧
          (∀ e ∈ es, s.cycle ≤ e.2.cyc ∧ e.2.cyc ≤ mark) ∧
          (∀ r, x.fab.inj.getD r [] = s.fab.inj.getD r [] ++ (es.filter (·.1 == r)).map (·.2)) ∧
          (∀ t ∈ s.eventTokens slot.val net s.epoch tag ev.blocks, t.1 < 24 → t ∈ es.map (fun e => (e.1, e.2.tok)))) ∧
        SameBytes s x) ∧
    (∀ (q : NoInj) (rest : List NoInj) (net : Net), d.noinj = q :: rest → s.cycle ∉ d.marks →
      (s.netSlot slot.val).live = some net →
      let tag := (if d.tagImg = net.img.imageId then d.lastTag else none).getD (net.img.tagBase + net.img.tagCount - 1)
      Leads (.noinjectMark slot) s fun x =>
        (x.dskSlot slot.val).noinj = rest ∧ s.cycle ∈ (x.dskSlot slot.val).marks ∧
        (∃ a, (x.unitV slot.val).events = (s.unitV slot.val).events ++
          [{ num := q.num, tag := tag, epoch := s.epoch, bank := net.bank
             lnet := net.img.lnet, mark := s.cycle, ingressTB := s.tb.tb, injected := false, incomplete := q.incomplete
             overrun := q.overrun, adapted := a }]) ∧ x.fab = s.fab ∧ SameBytes s x)

/-- Result tokens and flags reach their open event, the cut-off closes it, and the verdict is emitted at the verdict mark. Out of
reset, with e the first open event of a slot's unit that a token or flag matches by tag and EPOCH_LO within the cut-off (mark
+ Lnet − 4): FINAL_RESULT_TOKEN takes the oldest token, 6 cycles at its collection port, into the event when it has none, and
its tag is taken; one that matches no such event is counted in OTHER when its tag is taken and late when it is not; one of
another stream is counted in OTHER. FLAG_POST sets SKEW, POISON or ADAPTED. CUT_OFF closes the first open event whose cut-off
cycle is over and changes nothing else. VERDICT_MARK of the first event whose mark + Lnet has come, without an entry: the
event holds its entry and TB, LAST_TAG and LAST_EPOCH name it, COUNT counts it, DEADLINE defaults are counted, and every
mapped port releases the entry. (R41, R43, R44, R45, R54, R65, R205) -/
def Obligations.VerdictUnitsCollectAndMark : Prop :=
  ∀ (s : State) (row : Fin 24) (slot : Fin 16), Awake s →
    let evs := (s.unitV slot.val).events
    let opens := fun (tag lo at_ : Nat) (e : VEvent) => evMatches tag lo e && !e.closed && decide (at_ ≤ e.mark + e.lnet - 4)
    (∀ (t : Entry) (rest : List Entry) (net : Net), s.fab.coll.getD row.val [] = t :: rest → t.cyc + 6 ≤ s.cycle →
      s.tagOwner t.tok = some (slot.val, net) →
      let found := evs.find? (opens t.tok.tag t.tok.epochLo (t.cyc + 6))
      let isTaken := (s.unitV slot.val).taken.contains (t.tok.tag, t.tok.epochLo)
      let counts := fun (r : Reg) => Leads (.finalResultToken row) s fun x => x.fab.coll.getD row.val [] = rest ∧ x.vrd = s.vrd ∧
        Counted s x r slot.val 1 ∧ SameBytes s x
      (t.tok.stream ≠ net.img.vstream → counts .VRD_CNT_OTHER_TOKENS) ∧
      (t.tok.stream = net.img.vstream →
        (∀ e, found = some e → e.result = none →
          Leads (.finalResultToken row) s fun x => x.fab.coll.getD row.val [] = rest ∧ x.regs = s.regs ∧
            (x.unitV slot.val).taken = (t.tok.tag, t.tok.epochLo) :: (s.unitV slot.val).taken ∧
            (x.unitV slot.val).events = updateFirst (· == e) (fun _ => { e with result := some t.tok }) evs ∧ SameBytes s x) ∧
        (∀ e, found = some e → e.result ≠ none → counts .VRD_CNT_OTHER_TOKENS) ∧
        (found = none → isTaken = true → counts .VRD_CNT_OTHER_TOKENS) ∧
        (found = none → isTaken = false → counts .VRD_CNT_LATE_RESULT))) ∧
    (∀ (p : FlagPost) (e : VEvent), s.fab.flagPosts.find? (fun p => p.slot == slot.val && decide (p.cyc ≤ s.cycle)) = some p →
      evs.find? (opens p.tag p.epochLo p.cyc) = some e → p.flag < 3 →
      Leads (.flagPost slot) s fun x => x.regs = s.regs ∧ SameBytes s x ∧
        (x.unitV slot.val).events = updateFirst (· == e) (fun _ => { e with
          fSkew := e.fSkew || decide (p.flag = 0), fPoison := e.fPoison || decide (p.flag = 1)
          fAdapted := e.fAdapted || decide (p.flag = 2) }) evs) ∧
    (∀ e, evs.find? (fun e => !e.closed && decide (e.mark + e.lnet - 4 < s.cycle)) = some e →
      exec (.cutOff slot) s = .next (s.updEvent slot.val e { e with closed := true })) ∧
    (∀ e, evs.find? (fun e => e.entry.isNone && decide (e.mark + e.lnet ≤ s.cycle)) = some e →
      let v := s.composeEntry slot.val e
      Leads (.verdictMark slot) s fun x =>
        (∃ b ports, (x.unitV slot.val).events = updateFirst (· == e) (fun e => { e with
            closed := true, entry := some (VEntry_bits v), markTB := s.tb.tb, pulsed := b, ports := ports }) evs ∧
          ports = s.vrdReg e.epoch .VRD_PORTS_MAP slot.val ∧
          ∀ p < 16, bitAt ports p = true → (x.port p).rel.entries = (s.port p).rel.entries ++ [VEntry_bits v]) ∧
        x.reg .VRD_STATUS_LAST_TAG slot.val = e.tag % 2 ^ Reg.width .VRD_STATUS_LAST_TAG ∧
        x.reg .VRD_STATUS_LAST_EPOCH slot.val = e.epoch % 2 ^ Reg.width .VRD_STATUS_LAST_EPOCH ∧
        Counted s x .VRD_CNT_VERDICT_COUNT slot.val 1 ∧
        (v.cause = 1 → Counted s x .VRD_CNT_DEFAULT_TIMEOUT slot.val 1) ∧ SameBytes s x)

/-- Every bit of a verdict entry stands where the table puts it and means what the table says. For every state, slot and event,
the entry w that its verdict unit composes at the mark: [15:0] the final token's result when CAUSE is 0, else
VRD_DEFAULT.RESULT; [16] the final token missed the cut-off; [17] incomplete or overrun; [18] SKEW; [19] poison on the final
token or posted, or a fault drain; [20] thermal drain; [21] ADAPTED; [22] clear, as the entry replaces no voided verdict, and
set in the default entry that replaces one; [25:23] the first cause that applies: thermal drain 5, fault drain 6, overrun 3,
not injected 2, no token 1, poisoned token 4, else 0; [29:26] SLOT, [33:30] BANK, [47:34] TAG, [63:48] EPOCH. (R51) -/
def Obligations.VerdictEntryHasItsLayout : Prop :=
  ∀ (s : State) (slot : Fin 16) (e : VEvent) (r : Replay),
    let w := VEntry_bits (s.composeEntry slot.val e)
    let cause := bits w 23 3
    let pois := ∃ t, e.result = some t ∧ (t.poison = true ∨ t.kind ≠ 1 ∨ t.fmt ≠ 5)
    let thermal := s.thermalDrained (e.mark + e.lnet)
    let fault := s.faultDrained e
    w < 2 ^ 64 ∧
    (cause = 0 → ∃ t, e.result = some t ∧ bits w 0 16 = t.payload.toNat % 65536) ∧
    (cause ≠ 0 → bits w 0 16 = s.vrdReg e.epoch .VRD_DEFAULT_RESULT slot.val % 65536) ∧
    (bitAt w 16 = true ↔ e.injected = true ∧ e.result = none) ∧ (bitAt w 17 = true ↔ e.incomplete = true ∨ e.overrun = true) ∧
    bitAt w 18 = e.fSkew ∧ (bitAt w 19 = true ↔ e.fPoison = true ∨ pois ∨ fault = true) ∧ bitAt w 20 = thermal ∧
    (bitAt w 21 = true ↔ e.fAdapted = true ∨ e.adapted = true) ∧ bitAt w 22 = false ∧
    (thermal = true → cause = 5) ∧ (thermal = false → fault = true → cause = 6) ∧
    (thermal = false → fault = false →
      (e.overrun = true → cause = 3) ∧ (e.overrun = false → e.injected = false → cause = 2) ∧
      (e.overrun = false → e.injected = true → e.result = none → cause = 1) ∧
      (e.overrun = false → e.injected = true → pois → cause = 4) ∧
      (e.overrun = false → e.injected = true → e.result ≠ none → ¬ pois → cause = 0)) ∧
    bits w 26 4 = slot.val ∧ bits w 30 4 = e.bank % 16 ∧ bits w 34 14 = e.tag % 16384 ∧ bits w 48 16 = e.epoch % 65536 ∧
    bitAt (s.defaultCorrected r) 22 = true

/-- Check posts are held for their event, which is resolved at mark + 16 and validated or voided at mark + 20. Out of reset:
CHECK_POST of a post whose event is unresolved and not past mark + 16, with none of the slot due on the sideband, is held
while fewer than 64 are and fewer than 8 came this cycle, and counted. CHECK_RESOLVE of the first unresolved event with an
entry, 16 cycles past its mark, no overflow, no failure of the unit: with no post matching the event it is resolved, not
voided, and nothing else changes; with a computed verdict, no drain, room in the queue and matching posts that all void, it is
resolved and voided and asks for its replay. VALIDATION of the first resolved event 20 cycles past its mark removes it: a
voided one is counted and enters the VOID release of each port that carried it, any other enters none and leaves every VOID
release as it was. VERD_PULSE_END leaves no pin drive that is due. (R55, R56, R60, R68, R368, R369, R370, R371, R373) -/
def Obligations.ChecksResolveAndValidate : Prop :=
  ∀ (s : State) (slot : Fin 16), Awake s →
    let v := s.unitV slot.val
    (∀ (p : CheckPost), (∀ q ∈ s.fab.checkPosts, q.slot = slot.val → s.cycle < q.cyc) → v.posts.length < 64 → (v.postsAt = s.cycle → v.postsIn < 8) →
      (∃ e ∈ v.events, evMatches p.tag p.epochLo e = true ∧ e.resolved = false ∧ s.cycle ≤ e.mark + e.lnet + 16) →
      Leads (.checkPost slot (some p)) s fun x => (x.unitV slot.val).posts = v.posts ++ [{ p with slot := slot.val, cyc := s.cycle }] ∧
        (x.unitV slot.val).events = v.events ∧ x.fab = s.fab ∧ Counted s x .INT_CNT_CHECK_FAILED 0 1 ∧ SameBytes s x) ∧
    (∀ (e : VEvent), v.events.find? (fun e => e.entry.isSome && !e.resolved && decide (e.mark + e.lnet + 16 ≤ s.cycle)) = some e →
      v.overflow = false →
      let mine := v.posts.filter (fun p => evMatches p.tag p.epochLo e)
      let left := v.posts.filter (fun p => !evMatches p.tag p.epochLo e)
      (mine = [] → exec (.checkResolve slot false) s = .next (s.updV slot.val fun x => { x with
          events := updateFirst (· == e) (fun e => { e with resolved := true, voided := false, vrdFail := false }) x.events
          posts := left })) ∧
      (mine ≠ [] → (∀ p ∈ mine, s.postVoids slot.val p = true) → (VEntry_of (e.entry.getD 0)).cause = 0 → s.draining = false →
        s.ints.queue.length < 16 →
        Leads (.checkResolve slot false) s fun x => (x.unitV slot.val).posts = left ∧
          (x.unitV slot.val).events = updateFirst (· == e)
            (fun e => { e with resolved := true, voided := true, vrdFail := false }) v.events ∧
          x.ints.queue.length = s.ints.queue.length + 1 ∧
          (∃ r ∈ x.ints.queue, r.slot = slot.val ∧ r.tag = e.tag ∧ r.num = e.num ∧ r.validCyc = e.mark + e.lnet + 20 ∧
            r.posts = mine) ∧
          x.reg .INT_REPLAY_QUEUED = s.ints.queue.length + 1)) ∧
    (∀ (e : VEvent), v.events.find? (fun e => e.resolved && decide (e.mark + e.lnet + 20 ≤ s.cycle)) = some e →
      Leads (.validation slot) s fun x => (x.unitV slot.val).events = removeFirst (· == e) v.events ∧
        (∀ p < 16, (x.port p).rel.voids = (s.port p).rel.voids ++
          (if e.voided = true ∧ bitAt e.ports p = true then [e.entry.getD 0] else [])) ∧
        (∀ p < 16, bitAt e.ports p = true → (x.port p).rel.valid = true) ∧
        (e.voided = true → Counted s x .VRD_CNT_VOID_VOID slot.val 1)) ∧
    (Leads (.verdPulseEnd slot) s fun x =>
      (x.unitV slot.val).verdEnd = (match v.verdEnd with | some c => if c ≤ s.cycle then none else some c | none => none) ∧
      (x.unitV slot.val).validEnd = (match v.validEnd with | some c => if c ≤ s.cycle then none else some c | none => none) ∧
      (x.unitV slot.val).events = v.events ∧ x.regs = s.regs ∧ SameBytes s x)

/-- Lanes lock and lose lock, markers bring a port up, and timers, losses and EN move it between its states. Out of reset.
LANE_LOCK of a hunting lane of a port neither DISABLED nor DEEP: blocks with valid headers that make 64 in a row clear LOL,
fewer are counted in the run, an invalid one ends the run and moves the trial position. On an UP port LANE_LOCK_LOSS of a
locked lane with 16 or more invalid headers, and LOS_ASSERT, set LOL or LOS and drop it to TRAINING with cause 2 or 1; 16 of
them are counted in BAD_HDR when none was among the last 64; LOS_CLEAR clears LOS and takes a DEEP port whose lane had it to
TRAINING. TRAIN_TIMEOUT of a TRAINING port after 49.5 ms gives DARK, counted; DARK_RETRY after 99 ms TRAINING; MARKER_TIMEOUT
of an UP port four marker periods after the last valid row TRAINING with cause 7. EN = 1 takes a DISABLED port to TRAINING
with a SESSION of TB bits, EN = 0 any port to DISABLED. A good marker row of the right role and version with RX_READY set for
the second time, on a TRAINING port that has never been UP, makes it UP. MARKER_ROW_SEND of an enabled port whose row is due
(16,384 rows after the one before) counts the row and sends the blocks of its own lanes; without near loopback on all of them
nothing else happens. Memory and the cores never change. (R275, R276, R278, R279, R281, R282, R296) -/
def Obligations.PortsTrainAndDropAsTabled : Prop :=
  ∀ (s : State) (p : Fin 16) (l : Fin 8), Awake s →
    let lane := lx p.val l.val
    let st := s.portSt p.val
    let run := (s.lane p.val l.val).run
    (∀ rx : List Nat, s.reg .OPX_LSTAT_LOL lane = 1 → st ≠ 0 → st ≠ 3 → (∀ w ∈ rx, validHeader (w % 16) = true) → rx ≠ [] →
      Leads (.laneLock p l rx) s fun x => x.portSt p.val = st ∧ SameBytes s x ∧
        (64 ≤ run + rx.length → x.reg .OPX_LSTAT_LOL lane = 0) ∧
        (run + rx.length < 64 → x.reg .OPX_LSTAT_LOL lane = 1 ∧ (x.lane p.val l.val).run = run + rx.length)) ∧
    (∀ w : Nat, s.reg .OPX_LSTAT_LOL lane = 1 → st ≠ 0 → st ≠ 3 → validHeader (w % 16) = false →
      Leads (.laneLock p l [w]) s fun x => x.reg .OPX_LSTAT_LOL lane = 1 ∧ (x.lane p.val l.val).run = 0 ∧
        (x.lane p.val l.val).trial = ((s.lane p.val l.val).trial + 1) % 262 ∧ x.portSt p.val = st ∧ SameBytes s x) ∧
    (∀ rx : List Nat, st = 2 → s.reg .OPX_LSTAT_LOL lane ≠ 1 → (∀ w ∈ rx, validHeader (w % 16) = false) → 16 ≤ rx.length →
      Leads (.laneLockLoss p l rx) s fun x => x.reg .OPX_LSTAT_LOL lane = 1 ∧
        x.portSt p.val = 1 ∧ x.reg .OPX_PSTAT_LAST_CAUSE p.val = 2 ∧ Counted s x .OPX_PCNT_LINK_DROPS p.val 1 ∧
        (true ∉ (s.lane p.val l.val).window → Counted s x .OPX_LCNT_BAD_HDR lane 16) ∧ SameBytes s x) ∧
    (st = 2 → Leads (.losAssert p l) s fun x => x.reg .OPX_LSTAT_LOS lane = 1 ∧ x.portSt p.val = 1 ∧
      x.reg .OPX_PSTAT_LAST_CAUSE p.val = 1 ∧ Counted s x .OPX_PCNT_LINK_DROPS p.val 1 ∧ SameBytes s x) ∧
    (Leads (.losClear p l) s fun x => x.reg .OPX_LSTAT_LOS lane = 0 ∧ SameBytes s x ∧
      x.portSt p.val = if st = 3 ∧ s.reg .OPX_LSTAT_LOS lane = 1 then 1 else st) ∧
    (st = 1 → (s.port p.val).since + 59400000 ≤ s.cycle → Leads (.trainTimeout p) s fun x => x.portSt p.val = 4 ∧
      x.reg .OPX_PSTAT_LAST_CAUSE p.val = s.trainCause p.val ∧ Counted s x .OPX_PCNT_LINK_DARK p.val 1 ∧
      bitAt (x.reg .OPX_SUMMARY_DARK) p.val = true ∧ SameBytes s x) ∧
    (st = 2 → 13 * (s.port p.val).lastMarker.getD (s.port p.val).since + 4 * 503040 ≤ 13 * s.cycle → Leads (.markerTimeout p) s fun x =>
      x.portSt p.val = 1 ∧ x.reg .OPX_PSTAT_LAST_CAUSE p.val = 7 ∧ SameBytes s x) ∧
    (st = 4 → (s.port p.val).since + 118800000 ≤ s.cycle → Leads (.darkRetry p) s fun x => x.portSt p.val = 1 ∧
      (x.port p.val).since = s.cycle ∧ SameBytes s x) ∧
    (st = 0 → Leads (.opxPctrlEn p true) s fun x => x.reg .OPX_PCTRL_EN p.val = 1 ∧ x.portSt p.val = 1 ∧
      x.reg .OPX_PSESS_LOCAL p.val = s.tb.tb / 65536 % 2 ^ Reg.width .OPX_PSESS_LOCAL ∧ SameBytes s x) ∧
    (Leads (.opxPctrlEn p false) s fun x => x.reg .OPX_PCTRL_EN p.val = 0 ∧ x.portSt p.val = 0 ∧ (x.port p.val).replay = [] ∧
      (x.port p.val).history = [] ∧ SameBytes s x) ∧
    (∀ (m : MarkerLane) (row : List MarkerLane), st = 1 → s.markerGood p.val (m :: row) = true →
      partnerRole (s.reg .OPX_PCTRL_ROLE p.val) = some (bits m.payload 14 3) → bits m.payload 40 8 ≤ 1 →
      1 ≤ bits m.payload 24 8 → bitAt m.payload 17 = true → 1 ≤ (s.port p.val).readyRows → (s.port p.val).lastUp = none →
      Leads (.marker p (m :: row)) s fun x => x.portSt p.val = 2 ∧ bitAt (x.reg .OPX_SUMMARY_UP) p.val = true ∧
        x.reg .OPX_PSTAT_PARTNER_SYS p.val = bits m.payload 8 6 ∧ x.reg .OPX_PSTAT_PARTNER_PORT p.val = bits m.payload 4 4 ∧
        (x.port p.val).rxN = 0 ∧ (x.port p.val).lastMarker = some s.cycle ∧ SameBytes s x) ∧
    (st ≠ 0 → st ≠ 3 → (∀ c n, (s.port p.val).markers = some (c, n) → 13 * c + n * 503040 ≤ 13 * s.cycle) →
      Leads (.markerRowSend p) s fun x => (x.port p.val).mcount = ((s.port p.val).mcount + 1) % 65536 ∧ SameBytes s x ∧
        ((∃ k < 8, s.reg .OPX_LCTRL_LOOP (lx p.val k) ≠ 1) → x.regs = s.regs ∧
          x.out = .marker p.val ((s.port p.val).mcount % 65536)
            ((s.ownLanes p.val).flatMap fun k => leBytes 32 (s.markerPayload p.val + k)) :: s.out))

/-- A DEEP request drains, exchanges LPI and enters DEEP, or is denied; clearing DEEP leads back to TRAINING. Out of reset. DEEP =
1 on an UP port that carries no verdicts, has no request open and an empty replay buffer goes on to LPI blocks with DEEP set;
on a port that is not UP or carries verdicts it is denied: DEEP reads 0 and the denial is counted. DEEP = 0 in the DEEP state
with DEEP set enters TRAINING, elsewhere ends the request. DEEP_TIMEOUT denies a drain after 1 ms, or a request without LPI
after 10 µs. LPI blocks that bring both counts to 64 take an UP port to DEEP, fewer are counted. (R284) -/
def Obligations.DeepIsAskedAnsweredOrDenied : Prop :=
  ∀ (s : State) (p : Fin 16) (n : Nat), Awake s →
    let d := (s.port p.val).deep
    (s.portUp p.val = true → s.carriesVerdicts p.val = false → d = .none → (s.port p.val).replay = [] →
      exec (.deep p true) s = .next ((s.setReg .OPX_PCTRL_DEEP p.val 1).updPort p.val (fun x => { x with deep := .lpi s.cycle 0 0 true }))) ∧
    ((s.portUp p.val = false ∨ s.carriesVerdicts p.val = true) → s.portSt p.val ≠ 3 → d = .none → Leads (.deep p true) s fun x =>
      x.reg .OPX_PCTRL_DEEP p.val = 0 ∧ x.portSt p.val = s.portSt p.val ∧ Counted s x .OPX_PCNT_MISC_DEEP_DENIED p.val 1 ∧
      SameBytes s x) ∧
    (s.portSt p.val = 3 → s.reg .OPX_PCTRL_DEEP p.val = 1 → Leads (.deep p false) s fun x =>
      x.reg .OPX_PCTRL_DEEP p.val = 0 ∧ x.portSt p.val = 1 ∧ SameBytes s x) ∧
    (s.portSt p.val ≠ 3 → Leads (.deep p false) s fun x => x.reg .OPX_PCTRL_DEEP p.val = 0 ∧ (x.port p.val).deep = .none ∧
      x.portSt p.val = s.portSt p.val ∧ SameBytes s x) ∧
    (((∃ c, d = .drain c ∧ c + 1200000 ≤ s.cycle) ∨ (∃ c k, d = .lpi c k 0 true ∧ c + 12000 ≤ s.cycle)) →
      Leads (.deepTimeout p) s fun x => x.reg .OPX_PCTRL_DEEP p.val = 0 ∧ (x.port p.val).deep = .none ∧
        x.portSt p.val = s.portSt p.val ∧ Counted s x .OPX_PCNT_MISC_DEEP_DENIED p.val 1 ∧ SameBytes s x) ∧
    (∀ c a b own, s.portUp p.val = true → 0 < n → d = .lpi c a b own →
      (64 ≤ a + n → 64 ≤ b + n → Leads (.lpi p n) s fun x => x.portSt p.val = 3 ∧ (x.port p.val).deep = .none ∧ SameBytes s x) ∧
      ((a + n < 64 ∨ b + n < 64) → exec (.lpi p n) s = .next (s.updPort p.val (fun x => { x with deep := .lpi c (a + n) (b + n) own }))))

/-- Peer frames are stored in order, acknowledgements empty the replay buffer, retries resend it, and timers answer. Out of reset,
on an UP port, a frame of a stream not skipped or at an _FS block. On a peer port whose partner is another system, an in-order
TOKEN of n units aligned within the receive area, with room in the write buffer, stores its n × 32 bytes at its address and no
others; an in-order VERDICT or VOID of well-formed head stores its record at the NEXT place of the circular area, which NEXT
then passes. ACK drops exactly the acknowledged frames from the replay buffer, with none waiting and no DEEP request. RETRY of
a normal SEQ held resends the frames from it on, identically, the first at an _FS block. NAK is counted and its reason kept.
ACK_TIMER, 64 cycles after the first frame not acknowledged, and RETRY_REPEAT, 512 after the last RETRY, send again.
TOKEN_BUFFER_ROOM empties the write buffer and sends a RETRY that is owed, IDLE with a zero byte changes nothing, any other
byte of TYPE 0 is a violation and starts a skip. A failed CRC is counted and starts a skip, in which nothing is taken before
an _FS block. (R260, R273, R288, R289, R291, R292, R294, R295) -/
def Obligations.PortsReceiveAcknowledgeAndRetry : Prop :=
  ∀ (s : State) (p : Fin 16) (f : Frame), Awake s → s.portUp p.val = true →
    let peer := s.reg .OPX_PCTRL_ROLE p.val = 1 ∧ s.reg .OPX_PSTAT_SAME_SYS p.val = 0
    let x0 := s.port p.val
    let h := leAt f.payload 0 16
    let c := leAt f.payload 0 8
    let reach := fun (express : Bool) => portSkips x0 express = true → f.fs = true
    let good := fun (t : Nat) => frameGood t f = true ∧ reach (expressType t) ∧ (sequenced t = true → s.seqNext p.val t f = true)
    let ctrl := frameGood 7 f = true ∧ reach false ∧ f.len = 1 ∧ f.seq % 64 = 0 ∧ bits c 9 7 = 0 ∧ bits c 22 2 = 0 ∧ bits c 51 13 = 0
    (∀ n, n = bits h 40 5 → 1 ≤ n → peer → good 2 → MemOk s → bits h 45 3 = 0 → bits h 79 49 = 0 → f.len = 2 + 4 * n →
      x0.tokenBytes + 32 * n ≤ 65536 → bits h 0 40 % 32 = 0 → s.reg .OPX_PRX_BASE p.val ≤ bits h 0 40 →
      bits h 0 40 + 32 * n ≤ s.reg .OPX_PRX_BASE p.val + s.reg .OPX_PRX_LEN p.val →
      Leads (.token p f) s fun x => (x.port p.val).rxN = (f.seq + 1) % 64 ∧ x.cores = s.cores ∧ x.win = s.win ∧
        (∀ j < 32 * n, cellGet x.mem (bits h 0 40 + j) = BitVec.ofNat 8 (f.payload.getD (16 + j) 0)) ∧
        (∀ q, q < bits h 0 40 ∨ bits h 0 40 + 32 * n ≤ q → cellGet x.mem q = cellGet s.mem q) ∧
        (∀ k < n, bitAt (bits h 48 31) k = true → bits h 0 40 + 32 * k ∈ x.poison)) ∧
    (∀ t ∈ [3, 4], peer → good t → MemOk s → bits h 64 3 ≤ 4 → bits h 67 5 = 0 → bits h 78 2 = 0 → bits h 96 32 = 0 →
      (t = 4 → bits h 32 32 = 0) → f.len = 2 + bits h 64 3 → s.reg .OPX_PVRING_LEN p.val ≠ 0 →
      let len := s.reg .OPX_PVRING_LEN p.val
      let k := s.reg .OPX_PVRING_NEXT p.val % len
      let at_ := s.reg .OPX_PVRING_BASE p.val + 64 * k
      Leads (if t = 3 then .verdict p f else .void p f) s fun x =>
        (∀ j < 64, cellGet x.mem (at_ + j) = BitVec.ofNat 8 ((verdictRecord t f).getD j 0)) ∧
        (∀ q, q < at_ ∨ at_ + 64 ≤ q → cellGet x.mem q = cellGet s.mem q) ∧ x.cores = s.cores ∧
        x.reg .OPX_PVRING_NEXT p.val = (k + 1) % len % 2 ^ Reg.width .OPX_PVRING_NEXT ∧
        (x.port p.val).rxE = (payloadSeq f + 1) % 65536) ∧
    (∀ (k : Nat) (g : SentFrame) (gs : List SentFrame), ctrl → c % 256 = 1 → bitAt c 8 = false → bits c 40 11 = 0 →
      x0.replay = g :: gs → k ≤ gs.length + 1 → (bits c 16 6 + 64 - g.seq) % 64 = k → g.seq < 64 → x0.txWait = [] → x0.deep = .none →
      exec (.ack p f) s = .next (s.updPort p.val fun x => { x with skipN := false, replay := (g :: gs).drop k })) ∧
    (∀ (old : List SentFrame) (g : SentFrame) (gs : List SentFrame), ctrl → c % 256 = 2 → bitAt c 8 = false → bits c 40 11 = 0 →
      bits c 24 16 = 0 → x0.replay = old ++ g :: gs → (∀ e ∈ old, e.seq ≠ g.seq) → g.seq = bits c 16 6 →
      (∀ e ∈ x0.lanes, e.2.injCrc = false) → (∀ e ∈ g :: gs, e.seq < 64) →
      Leads (.retry p f) s fun x => x.out = (gs.reverse.map fun e => Output.frame p.val e.ftype e.seq e.payload s.cycle false false) ++
          .frame p.val g.ftype g.seq g.payload s.cycle false true :: s.out ∧
        (x.port p.val).replay = x0.replay ∧ Counted s x .OPX_PCNT_RETRY_SERVED p.val 1 ∧ SameBytes s x) ∧
    (ctrl → c % 256 = 3 → Leads (.nak p f) s fun x => Counted s x .OPX_PCNT_NAK_NAK_RECEIVED p.val 1 ∧
      x.reg .OPX_PLAST_NAK_IN p.val = bits c 40 8 ∧ x.port p.val = { x0 with skipN := false } ∧ SameBytes s x) ∧
    (∀ a, x0.unackedFrom = some a → a + 64 ≤ s.cycle → Leads (.ackTimer p) s fun x => (x.port p.val).unacked = 0 ∧
      (x.port p.val).unackedFrom = none ∧ x.regs = s.regs ∧ SameBytes s x ∧ x.out = .frame p.val 7 0
        (leBytes 8 (1 + x0.rxN % 64 * 2 ^ 16 + x0.rxE % 65536 * 2 ^ 24)) s.cycle false false :: s.out) ∧
    (∀ a, x0.retryN = some a → x0.retryE = none → a + 512 ≤ s.cycle → Leads (.retryRepeat p) s fun x =>
      (x.port p.val).retryN = some s.cycle ∧ Counted s x .OPX_PCNT_RETRY_SENT p.val 1 ∧ SameBytes s x ∧
      x.out = .frame p.val 7 0 (leBytes 8 (2 + x0.rxN % 64 * 2 ^ 16)) s.cycle false false :: s.out) ∧
    (x0.owesRetry = false → exec (.tokenBufferRoom p) s = .next (s.setPort p.val { x0 with tokenBytes := 0, owesRetry := false })) ∧
    (x0.owesRetry = true → exec (.tokenBufferRoom p) s =
      Effect s ((s.setPort p.val { x0 with tokenBytes := 0, owesRetry := false }).sendRetry p.val false)) ∧
    (∀ (e : Bool) (b : Nat), (b % 256 = 0 ∨ b % 8 ≠ 0 → exec (.idle p e b) s = .next s) ∧
      (portSkips x0 e = true → exec (.idle p e b) s = .next s) ∧
      (b % 8 = 0 → b % 256 ≠ 0 → portSkips x0 e = false → Leads (.idle p e b) s fun x =>
        Counted s x .OPX_PCNT_VIOL_VIOL p.val 1 ∧ portSkips (x.port p.val) e = true ∧ SameBytes s x)) ∧
    (frameGood 7 f = false → reach false → Leads (.ack p f) s fun x => Counted s x .OPX_PCNT_CRC_CRC p.val 1 ∧
      (x.port p.val).skipN = true ∧ (x.port p.val).replay = x0.replay ∧ SameBytes s x) ∧
    (x0.skipN = true → f.fs = false → ∀ i ∈ [Instr.token p f, .ack p f, .retry p f, .nak p f], exec i s = .next s)

/-- A masked write of lane control takes effect by field, and an injected error is made by its mode. Out of reset. OPX_LCTRL on a
DISABLED or TRAINING port puts the masked bits of PATTERN, CHECK, LOOP, INJ and DFE_FREEZE in force, and stages the masked
bits of INJ_INTERVAL without changing it; on a port in another state PATTERN, CHECK and LOOP and the lanes keep their values.
The taps are held as they are. ERROR_INJECTION on an UP port, INJ_INTERVAL blocks after the lane's last, makes one error of
the lane's mode: mode 3 arms the inversion of the next sequenced frame's CRC, modes 1 and 2 invert bits of a block and are
counted in the lane, mode 0 does nothing; before that it does nothing. (R6, R280, R296) -/
def Obligations.LaneControlsAndErrorInjection : Prop :=
  ∀ (s : State) (p : Fin 16) (l : Fin 8) (mask value : Nat), Awake s →
    let i := lx p.val l.val
    let mix := fun (old lo w : Nat) => (old &&& (2 ^ w - 1 - bits mask lo w)) ||| (bits value lo w &&& bits mask lo w)
    (∀ r lo, (r, lo) ∈ [(Reg.OPX_LCTRL_INJ, 5), (.OPX_LCTRL_DFE_FREEZE, 7)] → Leads (.opxLctrl p l mask value) s fun x =>
      x.reg r i = mix (s.reg r i) lo r.width % 2 ^ r.width ∧ x.reg .OPX_LCTRL_INJ_INTERVAL i = s.reg .OPX_LCTRL_INJ_INTERVAL i ∧
      (bits mask 16 16 ≠ 0 → x.staged.get? (.OPX_LCTRL_INJ_INTERVAL, i) =
        some (mix (s.regIn s.nextCfg .OPX_LCTRL_INJ_INTERVAL i) 16 16 % 2 ^ Reg.width .OPX_LCTRL_INJ_INTERVAL)) ∧
      (bits mask 16 16 = 0 → x.staged = s.staged) ∧ SameBytes s x ∧ (2 ≤ s.portSt p.val → x.opx = s.opx) ∧
      x.reg .OPX_LDFE_TAPS i = s.laneTaps i % 2 ^ Reg.width .OPX_LDFE_TAPS) ∧
    (∀ r lo, (r, lo) ∈ [(Reg.OPX_LCTRL_PATTERN, 0), (.OPX_LCTRL_CHECK, 2), (.OPX_LCTRL_LOOP, 3)] →
      Leads (.opxLctrl p l mask value) s fun x =>
        x.reg r i = if s.portSt p.val ≤ 1 then mix (s.reg r i) lo r.width % 2 ^ r.width else s.reg r i) ∧
    (s.portUp p.val = true →
      let due := fun c => 31440 * max 1 (s.reg .OPX_LCTRL_INJ_INTERVAL i) ≤ 13312 * (s.cycle - c)
      (s.reg .OPX_LCTRL_INJ i = 0 ∨ (∃ c, (s.lane p.val l.val).injAt = some c ∧ ¬ due c) → exec (.errorInjection p l) s = .next s) ∧
      ((∀ c, (s.lane p.val l.val).injAt = some c → due c) →
        (s.reg .OPX_LCTRL_INJ i = 3 →
          exec (.errorInjection p l) s = .next (s.updLane p.val l.val fun y => { y with injCrc := true, injAt := some s.cycle })) ∧
        (∀ k, k = 1 ∨ k = 2 → s.reg .OPX_LCTRL_INJ i = k → exec (.errorInjection p l) s =
          .next ((s.updLane p.val l.val fun y => { y with injected := y.injected + 1, injAt := some s.cycle }).emit
            (.injection p.val l.val k)))))

/-- Line edges and host writes pulse their terms, a coincidence unit fires exactly when R240 lets it, and its group captures. Out
of reset. TRIG_EDGE is counted and, unless within 4 cycles of the last edge, pulses the line's term 3 cycles behind the
delayed edge; with its capture bit set it is captured, later if its compensated time is yet to come. SPB_FORCE pulses the
named host terms one cycle on and nothing else. COINCIDENCE_FIRE: with a pulse fresh in this cycle, at least MIN inputs hit
within WINDOW by pulses not used yet, no veto input within VWIN, and not fired in this cycle, the unit fires, is counted and
stands among the cycle's firings; otherwise nothing changes. As the cycle ends, for one such firing, the one enabled group
that lists the unit, ARMED, with a free segment place, captures segment WR. LINE_DRIVE_END ends a line's earliest drive when
it is over. SPB_ENV_LO and SPB_ENV_HI store the halves of the staged envelope point, reserved bits zero. (R238, R239, R240,
R245, R246, R253, R304) -/
def Obligations.TriggerTermsPulseAndUnitsFire : Prop :=
  ∀ (s : State) (l : Fin 8) (u : Fin 128) (edge v : Nat), Awake s →
    (let close := ∃ e, s.spb.lastEdge.get? l.val = some e ∧ edge < e + 128
     Leads (.trigEdge l edge) s fun x => Counted s x .SPB_LCNT_EDGES l.val 1 ∧ x.spb.lastEdge.get? l.val = some edge ∧
      (close → x.spb.pulses = s.spb.pulses) ∧
      (¬ close → ∃ p ∈ x.spb.pulses, p.term = 1056 + l.val ∧ p.cyc = (edge + s.reg .SPB_LINE_DLY l.val + 31) / 32 + 3) ∧
      (let tc := edge + s.reg .SPB_LINE_DLY l.val
       (tc < 32 * s.cycle → x.tb.edges = s.tb.edges ∧
         Counted s x .TB_CAPIDX_TOTAL 0 (if bitAt (s.reg .TB_CAPCTL_TRIG) l.val = true then 1 else 0)) ∧
       (32 * s.cycle ≤ tc → x.reg .TB_CAPIDX_TOTAL = s.reg .TB_CAPIDX_TOTAL ∧
         ∃ b, x.tb.edges = s.tb.edges ++ [(tc, l.val, bitAt (s.reg .TB_CAPCTL_TRIG) l.val, b)] ∧ (b = true ↔ ¬ close))) ∧
      SameBytes s x) ∧
    (Leads (.spbForce v) s fun x => x.regs = s.regs ∧ SameBytes s x ∧
      (∀ h < 8, bitAt v h = true → { term := 1080 + h, cyc := s.cycle + 1 } ∈ x.spb.pulses) ∧
      (∀ p ∈ x.spb.pulses, p ∈ s.spb.pulses ∨ ∃ h < 8, bitAt v h = true ∧ p = { term := 1080 + h, cyc := s.cycle + 1 })) ∧
    (let input := fun (i : Nat) (veto : Bool) => s.flag .SPB_COIN_EN (8 * u.val + i) && (s.flag .SPB_COIN_VETO (8 * u.val + i) == veto)
     let hits := (List.range 8).filter fun i => input i false && (match s.lastPulse u.val i with
       | some x => decide (s.cycle < x.1 + s.reg .SPB_CO_WINDOW u.val)
           && (match s.spb.used.get? (u.val, i) with | some k => decide (k < x.1) | none => true)
       | none => false)
     let goes := (∃ i < 8, input i false = true ∧ ∃ p, s.lastPulse u.val i = some (s.cycle, p)) ∧
       s.reg .SPB_CO_MIN u.val ≤ hits.length ∧ s.spb.firedAt.get? u.val ≠ some s.cycle ∧
       ∀ i < 8, input i true = true → ∀ k p, s.lastPulse u.val i = some (k, p) → k + s.reg .SPB_CO_VWIN u.val ≤ s.cycle
     (goes → Leads (.coincidenceFire u) s fun x => Counted s x .SPB_COCNT_FIRES u.val 1 ∧ x.spb.firedAt.get? u.val = some s.cycle ∧
       (∃ ps, x.spb.fires = s.spb.fires ++ [(u.val, ps)] ∧ ps.length = hits.length) ∧ SameBytes s x) ∧
     (¬ goes → exec (.coincidenceFire u) s = .next s)) ∧
    (∀ g start ps, s.spb.fires = [(u.val, ps)] → s.enabledGroups = [g] → bitAt (s.groupCfg g).units u.val = true →
      s.groupSt g = 1 → (s.grp g).heldCfg = none → (s.reg .SPB_SEG_WR + 2 ^ 32 - s.reg .SPB_SEG_RD) % 2 ^ 32 ≠ 65536 →
      s.segStart g (s.groupCfg g) = some start →
      let x := s.triggerGroups
      (x.groupSt g = 2 ∨ x.groupSt g = 3) ∧ Counted s x .SPB_GCNT_CAPTURED g 1 ∧ Counted s x .SPB_SEG_WR 0 1 ∧
        (x.grp g).cur = some (s.reg .SPB_SEG_WR) ∧ x.spb.fires = [] ∧ x.cores = s.cores ∧
        ∃ y ∈ x.spb.segs, y.seq = s.reg .SPB_SEG_WR ∧ y.group = g ∧ y.addr = start ∧ y.trigTB = s.tb.tb ∧ y.source = u.val) ∧
    (∀ d ds, s.spb.lines.getD l.val [] = d :: ds → d.end32 ≤ 32 * s.cycle → exec (.lineDriveEnd l) s = .next { s with
      spb := { s.spb with lines := if ds.isEmpty then s.spb.lines.del l.val else s.spb.lines.put l.val ds }
      out := .pin 2 l.val 1 d.end32 :: s.out }) ∧
    (let n := s.reg .SPB_ENV_INDEX_INDEX
     let old := s.spb.envStaged.getD n (0, 0)
     exec (.spbEnvLo v) s = .next { s with spb := { s.spb with
       envStaged := s.spb.envStaged.put n (v % 2 ^ 28 + bits v 32 32 * 2 ^ 32, old.2) } } ∧
     exec (.spbEnvHi v) s = .next { s with spb := { s.spb with envStaged := s.spb.envStaged.put n (old.1, v % 2 ^ 32) } })

/-- Groups arm, stop and rearm; rows close, are written or lost; segments are copied, completed and released. Out of reset. ARM
takes a STOPPED group to ARMED with empty history; STOP takes an ARMED or WAIT group to STOPPED and cuts a capture short.
GROUP_REARM takes a WAIT group to ARMED after hold-off, 192 cycles and the copy. ROW_WAIT_EXPIRY closes an incomplete row
whose wait is over. ROW_WRITE writes the oldest row of a group that wins arbitration for its credit; four cycles over, it is
lost into the gap run. PRE_COPY copies the next ring item of a segment for its credit while the acquisition queue has room.
CREDIT_REFILL in a cycle that is a multiple of 64 adds SHARE up to BURST to every group. SEGMENT_COMPLETE of an ended segment
with all entries in and its trigger row and verdicts settled marks it complete and writes its table entry and bytes.
SEGMENT_RELEASE frees the places up to the value, but none from the first incomplete segment on, and counts a value behind RD.
(R232, R241, R242, R245, R246, R247, R249, R250, R252, R271) -/
def Obligations.GroupsRowsAndSegmentsProceed : Prop :=
  ∀ (s : State) (g : Fin 64) (v : Nat), Awake s →
    let st := s.groupSt g.val
    let x0 := s.grp g.val
    (st = 4 → Leads (.arm g) s fun x => x.groupSt g.val = 1 ∧ x.reg .SPB_GSTAT_MASK_FAIL g.val = 0 ∧ (x.grp g.val).ring = [] ∧
      (x.grp g.val).freeFrom = x0.nextRow ∧ SameBytes s x) ∧
    (st = 1 ∨ st = 3 → exec (.stop g) s = .next (s.setReg .SPB_GSTAT_STATE g.val 4)) ∧
    (st = 2 → Leads (.stop g) s fun x => x.groupSt g.val = 4 ∧ (x.grp g.val).lastRowClose = s.cycle ∧ SameBytes s x ∧
      ∀ q y, x0.cur = some q → s.seg q = some y → x.seg q = some { y with ended := true, trunc := true }) ∧
    (st = 3 → s.holdEnded g.val = true → x0.lastRowClose + 192 ≤ s.cycle →
      (∀ q y, x0.cur = some q → s.seg q = some y → y.precopy = [] ∧ (y.complete = true ∨ y.cfg.maskEn = false)) →
      exec (.groupRearm g) s = .next (s.setReg .SPB_GSTAT_STATE g.val 1)) ∧
    (∀ a, x0.asm = [a] → a.first + (s.groupCfg g.val).rowWait ≤ s.cycle → (s.groupCfg g.val).reduce ≠ 2 → st ≠ 2 →
      Leads (.rowWaitExpiry g) s fun x => x.grp g.val = { x0 with
        asm := [], lastClosed := some a.num, rowsSince := x0.rowsSince + 1, nextRow := (x0.nextRow + 1) % 2 ^ 32
        closes := (x0.nextRow, s.cycle) :: x0.closes.filter fun e => decide (s.cycle < e.2 + 192)
        waiting := x0.waiting ++ [({ row := x0.nextRow, tb := s.tb.tb, cyc := s.cycle, vals := (inputRow (s.groupCfg g.val) a).1
                                     missing := (inputRow (s.groupCfg g.val) a).2 }, none)] } ∧ x.regs = s.regs ∧ SameBytes s x) ∧
    (∀ r dest rest, x0.waiting = (r, dest) :: rest →
      let wins := s.contends g.val = true ∧ s.winsRow g.val = true
      let settled := st ≠ 2 ∨ ∀ q y, x0.cur = some q → s.seg q = some y → y.resolved = true
      let fresh : GapRun := { row := r.row, lost := 1, tb := r.tb, inSeg := dest.isSome }
      (wins → Leads (.rowWrite g) s fun x => (settled → (x.grp g.val).waiting = rest) ∧ x.memS.acq = s.memS.acq + 1 ∧
        (x.grp g.val).credit = x0.credit - s.rowCost g.val r dest ∧ (x.grp g.val).gap = none ∧
        Counted s x .SPB_GCNT2_ROWS g.val 1 ∧ x.cores = s.cores) ∧
      (¬ wins → r.cyc + 4 ≤ s.cycle → Leads (.rowWrite g) s fun x =>
        Counted s x .SPB_GCNT2_GAP_ROWS g.val 1 ∧ x.cores = s.cores ∧ (dest = none ∨ x0.gap = none → SameBytes s x) ∧
        (settled → (x.grp g.val).waiting = rest ∧ (x.grp g.val).gap = some (match x0.gap with
          | some p => if p.inSeg = true ∨ dest.bind s.seg = none then { p with lost := p.lost + 1 } else fresh
          | none => fresh))) ∧
      (¬ wins → s.cycle < r.cyc + 4 → exec (.rowWrite g) s = .next s)) ∧
    (∀ y slot i rest, s.spb.segs.find? (fun x => x.group == g.val && !x.precopy.isEmpty) = some y → y.precopy = (slot, i) :: rest →
      let it := nth (RingItem.gap 0 0 0 0 false) y.items i
      let cost := if isRow it = true then roundUp64 (nth [] (segmentEntries y) i).length else 0
      x0.waiting = [] → cost ≤ x0.credit → s.memS.acq < 256 → s.poison = [] → s.ue = [] → Leads (.preCopy g) s fun x =>
        { y with precopy := rest } ∈ x.spb.segs ∧ (x.grp g.val).credit = x0.credit - cost ∧ SameBytes s x) ∧
    (s.cycle % 64 = 0 → Leads .creditRefill s fun x => x.regs = s.regs ∧ SameBytes s x ∧
      (∀ h < 64, x.grp h = { s.grp h with
        credit := min ((s.grp h).credit + (s.groupCfg h).share) (s.groupCfg h).burst }) ∧
      (∀ h, 64 ≤ h → x.grp h = s.grp h)) ∧
    (s.cycle % 64 ≠ 0 → exec .creditRefill s = .next s) ∧
    (∀ y, s.seg v = some y → y.complete = false → y.ended = true → y.resolved = true → y.precopy = [] → y.waiting = 0 → y.pendingVerdicts = [] →
      ((s.maskTest y).1 = none ∨ s.groupSt y.group ≠ 2) → MemOk s → Leads (.segmentComplete v) s fun x =>
        let len := 64 + ((segmentEntries y).foldr (· ++ ·) []).length
        let tab := s.reg .SPB_SEGTAB_BASE + 16 * (v % 65536)
        let z := { y with complete := true, len := len, flags := segFlags y (s.maskTest y).1.isSome }
        x.seg v = some z ∧ (∀ j < 16, cellGet x.mem (tab + j) = BitVec.ofNat 8 ((segTableBytes z).getD j 0)) ∧
        (∀ q, (q < y.addr ∨ y.addr + len ≤ q) → (q < tab ∨ tab + 16 ≤ q) → cellGet x.mem q = cellGet s.mem q) ∧
        x.cores = s.cores ∧ x.win = s.win) ∧
    (let rd := s.reg .SPB_SEG_RD
     let k := (v % 2 ^ 32 + 2 ^ 32 - rd) % 2 ^ 32
     (sdiff 32 v rd < 0 → exec (.segmentRelease v) s = .next (s.bump .SPB_CNT_MISC_BAD_RELEASE)) ∧
     let off := fun (q : Nat) => (q + 2 ^ 32 - rd) % 2 ^ 32
     (0 ≤ sdiff 32 v rd → ∀ first, ((∀ y ∈ s.spb.segs, y.complete = true) ∧ first = s.reg .SPB_SEG_WR ∨
         ∃ y ∈ s.spb.segs, y.complete = false ∧ first = y.seq ∧ ∀ z ∈ s.spb.segs, z.complete = false → off y.seq ≤ off z.seq) →
       let n := min k (off first)
       exec (.segmentRelease v) s = .next ({ s with spb := { s.spb with
         segs := s.spb.segs.filter fun y => decide (n ≤ off y.seq) } }.setReg .SPB_SEG_RD 0 (rd + n))))

/-- Restores, retention, refresh, scrub and credits each have their effect on the package memory. Out of reset. RESTORE_REQUEST of
a steward not frozen queues its first listed word when fewer than 16 are queued, and asks for one unit of leave. RESTORE_WRITE
with its leave, no commit of its cluster in this cycle and clean golden words stores the 32 golden bytes at the listed word
and no others, and takes the entry off the list. RETENTION_WRITE, at its class's turn, of the next entry stores its bytes at
the ring's next position and no others when it fits and meets no held entry, and else drops it. REFRESH keeps the reading and
sets the rate 1, 2 or 4. SCRUB_PASS with its leave and turn advances by one MiB modulo 24,576 and, where no word has an error,
leaves every byte. CLASS_CREDIT in a cycle that is a multiple of 1,024 gives each class its LIMIT; STEWARD_SCRUB advances by
one word, and a correctable error there, old or found, is good again and an uncorrectable one of a golden page listed.
MEM_FIRST_UE_REARM clears VALID. (R17, R264, R265, R266, R267, R268, R269, R270, R272) -/
def Obligations.PackageMemoryIsRestoredKeptAndScrubbed : Prop :=
  ∀ (s : State) (st deg : Nat), Awake s →
    (∀ old e rest, s.isFrozen (0x10000 + st) = false → s.restoreQueued < 16 → s.restoreList st = old ++ e :: rest →
      (∀ o ∈ old, o.queued = true ∨ o.failed = true) → e.queued = false → e.failed = false →
      exec (.restoreRequest st) s = .next ((s.setRestore st (old ++ { e with queued := true } :: rest)).askLeave
        { cls := 1, req := st, units := 1, region := some (UnitAddr.region st) })) ∧
    (∀ e, (s.restoreList st).find? (·.queued) = some e → s.isFrozen (0x10000 + st) = false → s.leaveGranted 1 st = true → MemOk s →
      (∀ c ks, s.memS.committed = some (c, ks) → c = s.cycle → 17 * UnitAddr.region st + UnitAddr.cluster st ∉ ks) →
      let gold := s.goldenAddr st (e.addr % 0x400000)
      (∀ w ∈ stackWords gold 32, w ∉ s.poison ∧ w ∉ s.ue) → Leads (.restoreWrite st) s fun x =>
        (∀ j < 32, cellGet x.mem (e.addr + j) = cellGet s.mem (gold + j)) ∧
        (∀ q, q < e.addr ∨ e.addr + 32 ≤ q → cellGet x.mem q = cellGet s.mem q) ∧ e.addr ∉ x.ue ∧ e.addr ∉ x.ce ∧
        x.restoreList st = removeFirst (· == e) (s.restoreList st) ∧ Counted s x .MEM_CNT_GOLD_RESTORES 0 1 ∧ x.cores = s.cores) ∧
    (∀ e, s.retNext = some e → s.memTurn 1 = true → MemOk s →
      let off := if s.memS.retPos + e.len ≤ s.reg .MEM_RET_LEN then s.memS.retPos else 0
      let pos := s.reg .MEM_RET_BASE + off
      let fits := e.len ≤ s.reg .MEM_RET_LEN ∧ ∀ y ∈ s.memS.ret, overlaps y.pos y.len pos e.len = true → s.retHeld y = false
      (fits → Leads .retentionWrite s fun x => x.memS.retQueue = removeFirst (· == e) s.memS.retQueue ∧
        x.memS.retPos = off + e.len ∧ { e with pos := pos, written := true } ∈ x.memS.ret ∧
        (∀ j < e.len, cellGet x.mem (pos + j) = BitVec.ofNat 8 ((retBytes e).getD j 0)) ∧
        (∀ q, q < pos ∨ pos + e.len ≤ q → cellGet x.mem q = cellGet s.mem q) ∧ Counted s x .MEM_CNT_RET_WRITTEN 0 1 ∧
        x.cores = s.cores) ∧
      (¬ fits → Leads .retentionWrite s fun x => x.memS.retQueue = removeFirst (· == e) s.memS.retQueue ∧
        x.memS.ret = s.memS.ret ∧ Counted s x .MEM_CNT_RET_DROPPED 0 1 ∧ SameBytes s x)) ∧
    (s.retNext = none ∨ s.memTurn 1 = false → exec .retentionWrite s = .next s) ∧
    (Leads (.refresh deg) s fun x => x.reg .MEM_TEMP_DEG = deg % 2 ^ Reg.width .MEM_TEMP_DEG ∧
      x.memS.refreshes = s.memS.refreshes + 1 ∧ SameBytes s x ∧
      x.reg .MEM_TEMP_REFRESH = if sx 8 deg ≤ 85 then 1 else if sx 8 deg ≤ 95 then 2 else 4) ∧
    (∀ found : List (Nat × WordError), let goes := s.reg .MEM_CTRL_SCRUB_EN = 1 ∧ s.leaveGranted 5 0x4000 = true ∧ s.memTurn 8 = true
      (goes → Leads (.scrubPass found) s fun x =>
        x.reg .MEM_SCRUB_POS = (s.reg .MEM_SCRUB_POS + 1) % 24576 ∧ x.cores = s.cores ∧
        ((∀ e ∈ found, e.2 = .none) → (∀ w ∈ s.ue ++ s.ce ++ s.poison, ¬ (stackLo + s.reg .MEM_SCRUB_POS * 2 ^ 20 ≤ w ∧
            w < stackLo + s.reg .MEM_SCRUB_POS * 2 ^ 20 + 2 ^ 20)) → SameBytes s x ∧ x.ue = s.ue ∧ x.ce = s.ce ∧ x.poison = s.poison)) ∧
      (¬ goes → exec (.scrubPass found) s = .next s)) ∧
    ((s.cycle % 1024 = 0 → Leads .classCredit s fun x => x.regs = s.regs ∧ SameBytes s x ∧
        ∀ k, 1 ≤ k → k ≤ 8 → x.memS.credits.getD k 0 = s.reg .MEM_CLASS_LIMIT k) ∧
      (s.cycle % 1024 ≠ 0 → exec .classCredit s = .next s)) ∧
    exec .memFirstUeRearm s = .next (s.setReg .MEM_FIRST_UE_VALID 0 0) ∧
    (∀ found : WordError, s.isFrozen (0x10000 + st) = false →
      let off := s.memS.scrubAt.getD st 0
      let w := sramBase (UnitAddr.region st) (UnitAddr.cluster st) + off
      let l := s.restoreList st
      Leads (.stewardScrub st found) s fun x => x.memS.scrubAt.getD st 0 = (off + 32) % 0x400000 ∧ x.mem = s.mem ∧ x.win = s.win ∧
        (w ∈ s.ce ∨ found = .single → w ∉ s.ue → found ≠ .double → (∀ e ∈ l, e.addr ≠ w) → w ∉ x.ce) ∧
        (w ∈ s.ue ∨ found = .double → (∀ r ∈ s.memS.restored, r.1 ≠ w) → s.goldenBit st (w % 2 ^ 22) = true →
          (∀ e ∈ l, e.addr ≠ w) → l.length < 4 → x.restoreList st = l ++ [{ addr := w, detected := s.cycle }]))

/-- TB gains INC each cycle, takes steps and rates in range, captures edges, and follows its master. TB, its fraction and its
wraps as one number gain INC at each FCLK edge, modulo 2^128. Out of reset: TB_INC takes a rate within ±500 ppm and counts any
other; REFCLK_LOSS sets REF_LOST, its clear clears it; STEP_ADD adds VALUE seconds-parts to TB at once and is counted;
STEP_SET_PPS waits for the next PPS edge, which sets TB and COUNT as given plus the time since the edge. PPS_EDGE is accepted
unless within half a second of the last accepted one, which counts a glitch; PPS_LOSS after 1.089 s clears PPS_PRESENT. SOFT
captures TB of this cycle. TB_MASTER takes its fields and sets STATE; HOLDOVER of a following device whose SYNC is late sets
HOLDOVER and is counted. (R299, R300, R301, R304, R305, R312, R318) -/
def Obligations.TimebaseRunsStepsAndCaptures : Prop :=
  ∀ (s : State) (v : Nat),
    (s.reg .TB_INC_INC = v → (tbAdvance s).tbFull = (s.tbFull + v) % 2 ^ 128 ∧ (tbAdvance s).cycle = s.cycle) ∧
    (Awake s →
    (0xD53A00000000 ≤ v → v ≤ 0xD570FFFFFFFF → exec (.tbInc v) s = .next (s.setReg .TB_INC_INC 0 v)) ∧
    (v < 0xD53A00000000 ∨ 0xD570FFFFFFFF < v → exec (.tbInc v) s = .next (s.bump .TB_CNT_MISC_INC_REFUSED)) ∧
    (Leads .refclkLoss s fun x => x.reg .TB_STATE_REF_LOST = 1 ∧ x.tb = s.tb ∧ SameBytes s x) ∧
    exec .tbRefLostClear s = .next (s.setReg .TB_STATE_REF_LOST 0 0) ∧
    (Leads .stepAdd s fun x => (x.tbFull : Int) = ((s.tbFull : Int) + sx 64 (s.reg .TB_STEP_VALUE) * 2 ^ 32) % 2 ^ 128 ∧
      x.reg .TB_STEPCTL_PENDING = 0 ∧ Counted s x .TB_CNT_MISC_STEPS 0 1 ∧ x.tb.stepAt = some (s.cycle, s.tb.tb) ∧ SameBytes s x) ∧
    exec .stepSetPps s = .next (s.setReg .TB_STEPCTL_PENDING 0 1) ∧
    ((∃ p, s.tb.ppsAt = some p ∧ 32 * s.cycle - v < p + 32 * 600000000) →
      exec (.ppsEdge v) s = .next (s.bump .TB_CNT_MISC_PPS_GLITCH)) ∧
    ((∀ p, s.tb.ppsAt = some p → p + 32 * 600000000 ≤ 32 * s.cycle - v) → Leads (.ppsEdge v) s fun x =>
      x.tb.ppsAt = some (32 * s.cycle - v) ∧ x.reg .TB_STATE_PPS_PRESENT = 1 ∧ x.reg .TB_STEPCTL_PENDING ≠ 1 ∧ SameBytes s x ∧
      (s.reg .TB_CAPCTL_PPS = 1 → Counted s x .TB_CAPIDX_TOTAL 0 1) ∧
      (s.reg .TB_STEPCTL_PENDING ≠ 1 → x.tbFull = s.tbFull) ∧
      (s.reg .TB_STEPCTL_PENDING = 1 → (x.tbFull : Int) = ((s.reg .TB_STEPCTL_EPOCH * 2 ^ 96 + s.reg .TB_STEP_VALUE * 2 ^ 32 : Nat)
        + roundDiv ((v * s.reg .TB_INC_INC : Nat) : Int) 32) % 2 ^ 128)) ∧
    (∀ p, s.tb.ppsAt = some p → p + 32 * 1306800000 ≤ 32 * s.cycle → exec .ppsLoss s = .next (s.setReg .TB_STATE_PPS_PRESENT 0 0)) ∧
    (Leads .soft s fun x => Counted s x .TB_CAPIDX_TOTAL 0 1 ∧ Counted s x .TB_CAPIDX_NEXT 0 1 ∧ x.tb.tb = s.tb.tb ∧
      ((∀ k ∈ s.tb.caps, k.1 < 32 * s.cycle) → ∃ c, x.tb.caps.head? = some c ∧ c.1 = 32 * s.cycle ∧ c.2.1 = 9) ∧ SameBytes s x) ∧
    (Leads (.tbMaster v) s fun x => x.reg .TB_MASTER_SELF = v % 2 ∧ x.reg .TB_MASTER_VALID = v / 2 % 2 ∧
      x.reg .TB_MASTER_SYS = bits v 2 6 ∧ x.reg .TB_MASTER_TIMEOUT = bits v 16 16 ∧ x.tb = s.tb ∧ SameBytes s x ∧
      x.reg .TB_STATE_STATE = if v % 2 = 1 then 1 else if v / 2 % 2 = 1 then 3 else 0) ∧
    (s.reg .TB_STATE_STATE = 2 → s.tb.syncAt.getD 0 + max 1 (s.reg .TB_MASTER_TIMEOUT) * 1188000 ≤ s.cycle →
      Leads .holdover s fun x => x.reg .TB_STATE_STATE = 3 ∧ Counted s x .TB_CNT_MISC_HOLDOVERS 0 1 ∧ x.tb = s.tb ∧ SameBytes s x))

/-- TIME frames are recorded, forwarded and answered; slots are armed, fire at their target and end their pulses. Out of reset, on
an UP port that accepts TIME frames, a good frame with reserved fields zero, of a stream not skipped or at an _FS block. SYNC
of the followed master (not this device) is recorded, counted and puts the device in STATE following with its port and SEQ_ID.
PDELAY_REQ is answered on its port with the stamps, T_TX within 1,200 cycles, PDELAY_RESP recorded. ACTION_ARM of a disarmed
slot whose checks pass arms it for TIME; a failing check leaves it disarmed with the status. ACTION_DISARM disarms and changes
nothing else of the slot. ACTION_FIRE of an armed slot whose target is in TB's past by less than one INC, not stepped over and
not late, with no lower slot due, counts; by KIND it adds a pulse of WIDTH on pin INDEX or pulses term 1,064 + INDEX in the
next cycle; a slot that is not periodic is disarmed; before its target nothing happens. PULSE_END removes the pulses of its
pin that are over and returns the pin when none remains on it. (R306, R307, R308, R309, R310, R311, R313, R314, R316, R317) -/
def Obligations.TimeFramesAndScheduledActionsTakeEffect : Prop :=
  ∀ (s : State) (p : Fin 16) (n : Fin 128) (k : Fin 4) (f : Frame) (ago v : Nat), Awake s →
    (s.portUp p.val = true → roleAccepts (s.reg .OPX_PCTRL_ROLE p.val) 5 = true → s.reg .OPX_PSTAT_SAME_SYS p.val = 0 →
      frameGood 5 f = true → ((s.port p.val).skipN = true → f.fs = true) → f.len = 4 → f.seq % 64 = 0 →
      let m := timeOf f.payload
      let recorded := fun (x : State) => Counted s x .TB_TRXIDX_TOTAL 0 1 ∧ Counted s x .TB_TRXIDX_NEXT 0 1 ∧ SameBytes s x
      (m.msg = 1 → m.reqRx = 0 → s.reg .TB_MASTER_SELF = 0 → s.reg .TB_MASTER_VALID = 1 → m.origin = s.reg .TB_MASTER_SYS →
        Leads (.sync p f ago) s fun x => recorded x ∧ Counted s x .TB_CNT_TIME_SYNC_RX 0 1 ∧ x.reg .TB_STATE_STATE = 2 ∧
          x.reg .TB_STATE_SYNC_PORT = p.val ∧ x.reg .TB_STATE_SYNC_SEQ = m.seqId ∧ x.tb.syncAt = some s.cycle ∧
          (s.reg .TB_FWD_MASK = 0 → x.out = s.out)) ∧
      (m.msg = 2 → m.reqRx = 0 → Leads (.pdelayReq p f ago) s fun x => Counted s x .TB_CNT_TIME2_RESP_SENT 0 1 ∧ SameBytes s x ∧
        x.tb = s.tb ∧ ∃ d < 65536000, x.out = .frame p.val 5 0 (timePayload 3 (s.reg .CHIP_SYSID_ID) 0 m.seqId
          ((s.reg .TB_EPOCH_COUNT + (s.tb.tb + d) / 2 ^ 64) % 2 ^ 32) ((s.tb.tb + d) % 2 ^ 64) m.tx
          (s.tbAt32 (32 * s.cycle - ago)).1) s.cycle false true :: s.out) ∧
      (m.msg = 3 → Leads (.pdelayResp p f ago) s fun x => recorded x ∧ x.tb = s.tb ∧ x.out = s.out)) ∧
    (s.reg .TB_ACTSTAT_ARMED n.val ≠ 1 →
      let s1 := actFields.foldl (fun (x : State) (a : Reg × Nat) => x.setReg a.1 n.val (bits v a.2 a.1.width)) s
      (s1.armStatus n.val ≠ 0 → Leads (.actionArm n v) s fun x => x.reg .TB_ACTSTAT_ARMED n.val = 0 ∧
        x.reg .TB_ACTSTAT_STATUS n.val = s1.armStatus n.val ∧ SameBytes s x) ∧
      (s1.armStatus n.val = 0 → Leads (.actionArm n v) s fun x => x.reg .TB_ACTSTAT_ARMED n.val = 1 ∧
        x.reg .TB_ACTCTL_ARM n.val = 1 ∧ x.reg .TB_ACTSTAT_STATUS n.val = 0 ∧ SameBytes s x ∧
        x.reg .TB_ACTNEXT_NEXT n.val = s.reg .TB_ACT_TIME n.val % 2 ^ 64 ∧
        (∀ a ∈ actFields, x.reg a.1 n.val = bits v a.2 a.1.width))) ∧
    (Leads (.actionDisarm n) s fun x => x.reg .TB_ACTSTAT_ARMED n.val = 0 ∧ x.reg .TB_ACTCTL_ARM n.val = 0 ∧ SameBytes s x ∧
      (∀ r j, (r, j) ∉ [(Reg.TB_ACTSTAT_ARMED, n.val), (.TB_ACTCTL_ARM, n.val)] → x.reg r j = s.reg r j)) ∧
    (let d := sdiff 64 s.tb.tb (s.reg .TB_ACTNEXT_NEXT n.val)
     (s.reg .TB_ACTSTAT_ARMED n.val = 1 → 0 ≤ d → (∀ a ∈ s.tb.fireNext, a.1 ≠ n.val) → s.tb.stepAt = none →
      (∀ j < n.val, s.slotDue j = false) →
      d * 2 ^ 32 < s.reg .TB_INC_INC →
      Leads (.actionFire n) s fun x => Counted s x .TB_ACTSTAT_FIRES n.val 1 ∧ x.reg .TB_ACTSTAT_LATE n.val = 0 ∧ SameBytes s x ∧
        x.reg .TB_ACTSTAT_ARMED n.val = (if s.reg .TB_ACTCTL_PERIODIC n.val = 1 then 1 else 0) ∧
        (s.reg .TB_ACTCTL_KIND n.val = 0 → ∃ q ∈ x.tb.pulses, q.pin = s.reg .TB_ACTCTL_INDEX n.val ∧
          q.end32 = q.start32 + 32 * max 1 (s.reg .TB_ACTCTL_WIDTH n.val)) ∧
        (s.reg .TB_ACTCTL_KIND n.val = 1 →
          ∃ q ∈ x.spb.pulses, q.term = 1064 + s.reg .TB_ACTCTL_INDEX n.val ∧ q.cyc = s.cycle + 1) ∧
        (s.reg .TB_ACTCTL_KIND n.val ≠ 0 → x.tb.pulses = s.tb.pulses)) ∧
     (d < 0 ∨ s.reg .TB_ACTSTAT_ARMED n.val ≠ 1 → exec (.actionFire n) s = .next s)) ∧
    (Leads (.pulseEnd k) s fun x => x.regs = s.regs ∧ SameBytes s x ∧
      x.tb.pulses = s.tb.pulses.filter (fun q => !(q.pin == k.val && decide (q.end32 ≤ 32 * s.cycle))) ∧
      ((∀ q ∈ x.tb.pulses, q.pin = k.val → 32 * s.cycle < q.start32) →
        (∃ q ∈ s.tb.pulses, q.pin = k.val ∧ q.end32 ≤ 32 * s.cycle) →
        ∃ at_, x.out = .pin 3 k.val (b2n (bitAt (s.reg .TB_PULSECFG_POLARITY) k.val)) at_ :: s.out))

/-- ACT, precharge and refresh keep the rows, and bursts read and write the host window where a row is open. Out of reset, on a
channel. With none of the checked times pending: ACT on a bank without an open row opens it, PREpb and PREab close, REFab and
REFpb are counted. A row already open is replaced and counted; a command that comes too soon is counted and has no other
effect. With WCK synchronised and a row open, RD16 and RD32 put the window's words at the row, bank, channel and column (a
multiple of the burst), as they were before a device's write of this cycle, on the data balls and count the burst; without
WCK, or without a row, they return the pattern words and the violation is counted. WR16, WR32 and MWR into the command slots
store the bytes whose mask bit is set, and no other byte. RFM in time changes nothing. (R320, R321, R322, R324, R325, R326,
R337) -/
def Obligations.DramCommandsKeepRowsAndMoveBursts : Prop :=
  ∀ (s : State) (ch : Fin 2) (b : Fin 16) (row col mask : Nat) (data : List Nat), Awake s →
    let c := s.dram ch.val
    let soon := fun (k : Nat) => s.bankBusy c k || s.early (c.preAt.get? k) 180 || s.early c.preAllAt 210
    let open_ := fun (k : Nat) => (c.rows.get? k).isSome && s.early (c.actAt.get? k) 420
    let goes := fun (x : DramCh) => s.setDram ch.val x
    let tooSoon := fun (i : Instr) => Leads i s fun x =>
      x.dram ch.val = c ∧ Counted s x .HST_CNT_VIOL_TIMING 0 1 ∧ x.out = s.out ∧ SameBytes s x
    (c.rows.get? b.val = none →
      (soon b.val = false → exec (.act ch b row) s =
        .next (goes { c with rows := c.rows.put b.val row, actAt := c.actAt.put b.val s.cycle })) ∧
      (soon b.val = true → tooSoon (.act ch b row))) ∧
    (∀ old, c.rows.get? b.val = some old → Leads (.act ch b row) s fun x => (x.dram ch.val).rows.get? b.val = some row ∧
      Counted s x .HST_CNT_VIOL_STATE 0 1 ∧ SameBytes s x) ∧
    ((s.bankBusy c b.val || open_ b.val) = false → exec (.prepb ch b) s =
      .next (goes { c with rows := c.rows.del b.val, preAt := c.preAt.put b.val s.cycle })) ∧
    ((∀ k < 16, (s.bankBusy c k || open_ k) = false) → exec (.preab ch) s = .next (goes { c with rows := [], preAllAt := some s.cycle })) ∧
    ((∀ k < 16, soon k = false) → exec (.refab ch) s = .next ((goes { c with refAllAt := some s.cycle }).bump .HST_CNT_REF_REFAB)) ∧
    (soon b.val = false → exec (.refpb ch b) s =
      .next ((goes { c with refAt := c.refAt.put b.val s.cycle }).bump .HST_CNT_REF_REFPB)) ∧
    (soon b.val = false → exec (.rfm ch b) s = .next s) ∧
    ((s.bankBusy c b.val || open_ b.val) = true → tooSoon (.prepb ch b)) ∧
    ((∃ k < 16, (s.bankBusy c k || open_ k) = true) → tooSoon (.preab ch)) ∧
    ((∃ k < 16, soon k = true) → tooSoon (.refab ch)) ∧
    (soon b.val = true → tooSoon (.refpb ch b) ∧ tooSoon (.rfm ch b)) ∧
    (∀ (i : Instr) (n : Nat), (i, n) ∈ [(Instr.rd16 ch b col, 32), (.rd32 ch b col, 64)] →
      let a := winAddr ch.val b.val (c.rows.getD b.val 0) (col / n * n)
      let count := fun (x : State) => Counted s x (if ch.val = 0 then .HST_CNT_BURST_CH0 else .HST_CNT_BURST_CH1) 0 1 ∧ SameBytes s x
      (c.wck = true → (c.rows.get? b.val).isSome = true → s.bankBusy c b.val = false → s.early (c.actAt.get? b.val) 180 = false →
        winRegion a = .cmd → Leads i s fun x => x.out = .dq ch.val (dqWords ((List.range n).map fun k =>
          (s.beforeDevice (a + k)).getD (nth 0 (s.winRd a n) k))) :: s.out ∧ count x) ∧
      (c.wck = false → Leads i s fun x => x.out = .dq ch.val (patternWords 5 a n) :: s.out ∧ count x ∧
        Counted s x .HST_CNT_VIOL2_WCK 0 1) ∧
      (c.wck = true → c.rows.get? b.val = none → Leads i s fun x => x.out = .dq ch.val (patternWords 4 a n) :: s.out ∧ count x ∧
        Counted s x .HST_CNT_VIOL_STATE 0 1)) ∧
    (∀ (i : Instr) (n m : Nat), (i, n, m) ∈ [(Instr.wr16 ch b col data, 32, 2 ^ 32 - 1), (.wr32 ch b col data, 64, 2 ^ 64 - 1),
        (.mwr ch b col data mask, 32, mask)] →
      let a := winAddr ch.val b.val (c.rows.getD b.val 0) (col / n * n)
      c.wck = true → (c.rows.get? b.val).isSome = true → s.bankBusy c b.val = false → s.early (c.actAt.get? b.val) 180 = false →
      winRegion a = .cmd → MemOk s → Leads i s fun x => x.mem = s.mem ∧ x.cores = s.cores ∧
        (∀ j < n, cellGet x.win (a + j) = if bitAt m j = true then BitVec.ofNat 8 (data.getD j 0) else cellGet s.win (a + j)) ∧
        (∀ q, q < a ∨ a + n ≤ q → cellGet x.win q = cellGet s.win q))

/-- CAS, mode registers, training and power commands set their channel's state, and a mode register reads what was written. Out of
reset, on a channel: CAS synchronises WCK or ends it, and with Write X or data copy is counted as not supported; MRW keeps a
writable supported register, which MRR then reads, initialises the channel, leaves MR4 to MR8, and counts any other; MRR puts
the value on the balls; ZQ commands change nothing, WRITE FIFO keeps the last eight bursts, READ FIFO returns them in turn, DQ
calibration returns some pattern, any other MPC is counted; SRE in time and PDE enter self refresh or power down and stop WCK,
SRX and PDX leave them; SRE with deep sleep is not supported, and too soon it is discarded and counted. (R320, R323, R324,
R325) -/
def Obligations.DramModesAndPowerTakeEffect : Prop :=
  ∀ (s : State) (ch : Fin 2) (mr v : Nat) (op : CasOp) (d : List Nat), Awake s →
    let c := s.dram ch.val
    let soon := fun (k : Nat) => s.bankBusy c k || s.early (c.preAt.get? k) 180 || s.early c.preAllAt 210
    (op ≠ .writeX → op ≠ .dataCopy → exec (.cas ch op) s = .next (s.setDram ch.val { c with wck := decide (op ≠ .wsOff) })) ∧
    (op = .writeX ∨ op = .dataCopy → exec (.cas ch op) s = .next (s.bump .HST_CNT_VIOL2_UNSUPPORTED)) ∧
    (4 ≤ mr → mr ≤ 8 → exec (.mrw ch mr v) s = .next (s.setDram ch.val { c with initDone := true })) ∧
    (mrWritable mr = true → mrUnsupported mr v = false → Leads (.mrw ch mr v) s fun x => (x.dram ch.val).initDone = true ∧
      x.mrValue ch.val mr = v ∧ SameBytes s x ∧ x.out = s.out) ∧
    (mrWritable mr = false ∨ mrUnsupported mr v = true → ¬ (4 ≤ mr ∧ mr ≤ 8) → Leads (.mrw ch mr v) s fun x =>
      x.dram ch.val = { c with initDone := true } ∧ Counted s x .HST_CNT_VIOL2_UNSUPPORTED 0 1 ∧ SameBytes s x) ∧
    exec (.mrr ch mr) s = .next { s with out := .mrr ch.val mr (s.mrValue ch.val mr) :: s.out } ∧
    s.mrValue ch.val 8 = 0x18 ∧ s.mrValue ch.val 6 = s.reg .CHIP_STEP_STEP ∧
    exec (.mpc ch .zqStart) s = .next s ∧ exec (.mpc ch .zqLatch) s = .next s ∧
    exec (.mpc ch (.writeFifo d)) s = .next (s.setDram ch.val { c with fifo := lastN 8 (c.fifo ++ [bytesAt d 0 32]) }) ∧
    (∀ e es, c.fifo = e :: es → Leads (.mpc ch .readFifo) s fun x => x.out = .dq ch.val (dqWords e) :: s.out ∧
      x.dram ch.val = { c with fifo := es ++ [e] } ∧ x.regs = s.regs ∧ SameBytes s x) ∧
    (Leads (.mpc ch .readDqCal) s fun x => (∃ w, x.out = .dq ch.val w :: s.out) ∧ x.regs = s.regs ∧ x.host = s.host ∧ SameBytes s x) ∧
    exec (.mpc ch (.other v)) s = .next (s.bump .HST_CNT_VIOL2_UNSUPPORTED) ∧
    exec (.sre ch true) s = .next (s.bump .HST_CNT_VIOL2_UNSUPPORTED) ∧
    ((∀ k < 16, soon k = false) → exec (.sre ch false) s = .next (s.setDram ch.val { c with selfRefresh := true, wck := false })) ∧
    ((∃ k < 16, soon k = true) → Leads (.sre ch false) s fun x =>
      x.dram ch.val = c ∧ Counted s x .HST_CNT_VIOL_TIMING 0 1 ∧ SameBytes s x) ∧
    exec (.pde ch) s = .next (s.setDram ch.val { c with powerDown := true, wck := false }) ∧
    (c.selfRefresh = true → exec (.srx ch) s = .next (s.setDram ch.val { c with selfRefresh := false, exitAt := some s.cycle })) ∧
    exec (.pdx ch) s = .next (s.setDram ch.val { c with powerDown := false })

/-- Slots are scanned in order, and NOP, register commands, THAW and ACT_ARM run when they head the queue and are answered. Out of
reset. A reply written by core 0 frees the packet's slot, is counted, and stands in the reply slot with its SEQ, opcode,
length, status, tag and result; memory and the cores are as before; a command of core 1 reports to core 0's mailbox first.
SLOT_SCAN with firmware running and core 0 not frozen examines slots 0 to 63 in order; a busy slot, and one whose SEQ was
taken before, starts nothing. For a command whose packet heads the queue: NOP returns its parameters, REG_READ of register
words the capture word and their values, REG_WRITE whose entries pass applies them in order, an entry that fails is answered
with its status and none is applied; THAW of a frozen master thaws it, of one not frozen answers NOT_FROZEN, of a reserved
address OWNERSHIP; ACT_ARM writes TIME, PERIOD and control and answers the slot's status. (R24, R29, R31, R313, R333, R335,
R336, R338, R340, R344) -/
def Obligations.HostCommandsRunAndAreAnswered : Prop :=
  ∀ (s : State) (hs : Nat), Awake s →
    (∀ (p : Packet) (st : Nat) (res : List Nat), MemOk s →
      let x := s.replyNow p st res
      let a := replySlot p.slot
      x.host.busy.get? p.slot = none ∧ Counted s x .HST_CNT_CMD_REPLIED 0 1 ∧ x.mem = s.mem ∧ x.cores = s.cores ∧
      leNat (cellsRead x.win a 4) = p.seq % 2 ^ 32 ∧ leNat (cellsRead x.win (a + 4) 2) = p.opcode % 2 ^ 16 ∧
      leNat (cellsRead x.win (a + 8) 2) = min res.length 232 ∧ leNat (cellsRead x.win (a + 10) 2) = st % 2 ^ 16 ∧
      leNat (cellsRead x.win (a + 12) 4) = p.tag % 2 ^ 32 ∧ cellsRead x.win (a + 16) 232 = (bytesAt res 0 232).map (· % 256) ∧
      (∀ q, q < a ∨ a + 256 ≤ q → cellGet x.win q = cellGet s.win q)) ∧
    (∀ (p : Packet) (st : Nat) (res : List Nat), let x := s.replyP p st res
      (coreOneOpcode (p.opcode % 4096) = false → x = s.replyNow p st res) ∧
      (coreOneOpcode (p.opcode % 4096) = true → x.host.busy.get? p.slot = some { p with outcome := some (st, res) } ∧
        (x.ctl.getD 0 {}).mbox = (s.ctl.getD 0 {}).mbox ++ [p.slot] ∧ x.regs = s.regs ∧ SameBytes s x)) ∧
    (s.isFrozen 0 = true → exec .slotScan s = .next s) ∧
    (s.isFrozen 0 = false → s.reg .BOOT_STATE_STATE = 5 → exec .slotScan s = Effect s ((List.range 64).foldl State.scanSlot s)) ∧
    (∀ q, s.host.busy.get? hs = some q → s.scanSlot hs = { s with host := { s.host with scanAt := hs } }) ∧
    (∀ p, s.ordPacket hs 0x001 = some p → exec (.nop hs) s = Effect s (s.reply p .ok (bytesAt p.params 0 p.plen))) ∧
    (∀ p, s.ordPacket hs 0x010 = some p →
      let as := (List.range (pU8 p 8)).map fun i => pU64 p 0 + 8 * i
      (pU64 p 0 % 8 ≠ 0 → exec (.regRead hs) s = Effect s (s.reply p .field)) ∧
      (pU64 p 0 % 8 = 0 → (∃ x ∈ as, secKey x = true ∨ isRegWord x = false) → exec (.regRead hs) s = Effect s (s.reply p .ownership)) ∧
      (pU64 p 0 % 8 = 0 → (∀ x ∈ as, secKey x = false ∧ isRegWord x = true) → exec (.regRead hs) s =
        Effect s (s.reply p .ok (leBytes 8 s.captureWord ++ as.flatMap fun x => leBytes 8 (s.wordRead x))))) ∧
    (∀ p, s.ordPacket hs 0x011 = some p →
      ((∀ e ∈ regEntries p, entryCheck e = none) → exec (.regWrite hs) s =
        Effect s (((regEntries p).foldl (fun (x : State) (e : Nat × Nat × Nat) => x.writeReg e.1 (x.unpoked e.1 e.2.1) e.2.2) s).reply p .ok)) ∧
      (∀ old e rest st, regEntries p = old ++ e :: rest → (∀ o ∈ old, entryCheck o = none) → entryCheck e = some st →
        exec (.regWrite hs) s = Effect s ((if st = .regRo then s.bump .HST_CNT_ACCESS_WRITE_RO else s).reply p st))) ∧
    (∀ p st, s.ordPacket hs 0x030 = some p → thawTarget (pU16 p 0) = .error st → exec (.thaw hs) s = Effect s (s.reply p st)) ∧
    (∀ p m, s.ordPacket hs 0x030 = some p → thawTarget (pU16 p 0) = .ok m →
      (s.isFrozen m = false → exec (.thaw hs) s = Effect s (s.reply p .notFrozen)) ∧
      (s.isFrozen m = true → Leads (.thaw hs) s fun x => x.isFrozen m = false ∧ x.host.busy.get? p.slot = none ∧ x.mem = s.mem ∧
        (∀ k, k ≠ m → x.isFrozen k = s.isFrozen k))) ∧
    (∀ p, s.ordPacket hs 0x400 = some p →
      let n := pU8 p 0
      let x := actionArm ((s.actTimeWrite .TB_ACT_TIME n (2 ^ 64 - 1) (pU64 p 8)).actTimeWrite .TB_ACTP_PERIOD n (2 ^ 64 - 1) (pU64 p 16))
        n (pU64 p 24)
      exec (.actArm hs) s = Effect s (x.replyP p (x.reg .TB_ACTSTAT_STATUS n)))

/-- A mover copies stack bytes, maps, flushes and releases staging pages, and its command is answered when it is done. Out of
reset. MOVER_DISPATCH starts the oldest waiting command on the lowest free mover. For a command that a mover runs, without an
outcome: MOVE within the stack, allowed, no dirty source page and no bad word, copies its bytes and no others; STAGE_MAP of
one absent page with a frame free makes it FILLING; STAGE_FLUSH of one dirty page writes its 4,096 bytes to the stack and
leaves it RESIDENT; STAGE_RELEASE of one page leaves it ABSENT; each comes to outcome OK. MOVER_DONE, core 0 not frozen and no
page of the command being filled by another mover, answers the outcome, frees the slot and makes the filled pages RESIDENT.
(R329, R330, R336, R341, R342, R343) -/
def Obligations.MoversCopyAndStagingPagesFollow : Prop :=
  ∀ (s : State) (hs n : Nat), Awake s →
    (∀ rest p, s.host.moverQ = hs :: rest → s.freeMover = some n → s.host.busy.get? hs = some p →
      exec .moverDispatch s = .next { s with host := { s.host with
        moverQ := rest, busy := s.host.busy.put hs { p with mover := some n } } }) ∧
    (∀ (m : Fin 4) p st res, s.moverPacket m.val = some p → p.outcome = some (st, res) → coreOneOpcode (p.opcode % 4096) = false →
      s.isFrozen 0 = false → (∀ q ∈ p.waits, s.pageSt q ≠ some .filling) → Leads (.moverDone m) s fun x =>
      x.host.busy.get? p.slot = none ∧ Counted s x .HST_CNT_CMD_REPLIED 0 1 ∧ x.mem = s.mem ∧ x.cores = s.cores ∧
      (∀ q ∈ p.fills, s.host.pages.get? q = some .filling → x.host.pages.get? q = some .resident)) ∧
    (∀ op p, s.packetIn hs op = some p → p.mover = some n → p.outcome = none → s.host.moverQ.head? ≠ some hs → p.slot = hs → MemOk s →
      let done := fun (x : State) (res : List Nat) => ∃ f w,
        x.host.busy.get? hs = some { p with outcome := some (0, res), fills := f, waits := w }
      let q := pU32 p 0 / 4096
      let base := s.reg .MEM_STAGE_BASE + 4096 * q
      let one := pU32 p 0 % 4096 = 0 ∧ pU32 p 4 = 4096 ∧ pU32 p 0 + 4096 ≤ 0x10000000
      (op = 0x100 → pU8 p 20 = 0 → s.moveBad p = false → inStack (pU64 p 0) (pU32 p 16) = true →
        (∀ k ∈ s.stackPages (pU64 p 0) (pU32 p 16), s.pageSt k ≠ some .dirty) →
        (∀ w ∈ stackWords (pU64 p 0) (pU32 p 16), w ∉ s.poison ∧ w ∉ s.ue) → Leads (.move hs) s fun x =>
          done x (moveResult (pU32 p 16) []) ∧ x.cores = s.cores ∧ x.win = s.win ∧
          (∀ j < pU32 p 16, cellGet x.mem (pU64 p 8 + j) = cellGet s.mem (pU64 p 0 + j)) ∧
          (∀ a, a < pU64 p 8 ∨ pU64 p 8 + pU32 p 16 ≤ a → cellGet x.mem a = cellGet s.mem a)) ∧
      (op = 0x101 → one → s.pageSt q = none → s.host.pages.length < 1024 → Leads (.stageMap hs) s fun x =>
        x.pageSt q = some .filling ∧ done x (leBytes 4 1) ∧ x.cores = s.cores ∧ x.win = s.win ∧
        (pU8 p 8 = 1 → ∀ k < 4096, cellGet x.mem (base + k) = 0) ∧
        (∀ a, a < base ∨ base + 4096 ≤ a ∨ pU8 p 8 ≠ 1 → cellGet x.mem a = cellGet s.mem a)) ∧
      (op = 0x102 → one → s.pageSt q = some .dirty → Leads (.stageFlush hs) s fun x =>
        x.pageSt q = some .resident ∧ done x (leBytes 4 1) ∧ x.cores = s.cores ∧ x.win = s.win ∧
        (∀ k < 4096, cellGet x.mem (base + k) = BitVec.ofNat 8 (s.frameByte (4096 * q + k))) ∧
        (∀ a, a < base ∨ base + 4096 ≤ a → cellGet x.mem a = cellGet s.mem a)) ∧
      (op = 0x103 → one → s.pageSt q = some .resident → Leads (.stageRelease hs) s fun x =>
        x.pageSt q = none ∧ done x (leBytes 4 1) ∧ SameBytes s x))

/-- A staged write changes nothing in force; a commit is prepared, confirmed and broadcast, and cycle C puts all that is staged in
force. Out of reset. REGISTER_WRITE by a master that is not frozen: outside its ownership set it freezes the master and writes
nothing; within, a masked write on one staged field, which no POKE wrote in this cycle, stages its new value and changes
nothing else, one on a read-only field is counted only, one where no field stands does nothing. CHIP_SYSID is taken while no
peer port is in use, else nothing changes. A mailbox message moves its command on; a tick captures every field. COMMIT heading
the queue is held while older events drain, refused when a rule is broken, else prepared; CONFIRM adds a region that must, a
lead after its placement's others; COMMIT_ABORT after 49 µs ends it with all that is staged kept; COMMIT_BROADCAST fixes C at
least 4,096 cycles behind the last confirmation, later than every mark given, and the next epoch; HELD_COMMIT prepares when
the events have drained. COMMIT_CYCLE at C, no remap and no restore since C, takes the epoch, the staged channel table and
every staged verdict-unit field, keeps the others, and leaves nothing staged; a restore in its cycle moves C on. (R5, R6, R21,
R24, R25, R29, R30, R32, R33, R34, R35, R37) -/
def Obligations.RegisterWritesWaitForTheirCommit : Prop :=
  ∀ (s : State) (master a mask v : Nat), Awake s →
    let w := a / 8 * 8
    (s.isFrozen master = true → exec (.registerWrite a mask v master) s = .next s) ∧
    (s.isFrozen master = false → s.owned master w = false →
      exec (.registerWrite a mask v master) s = Effect s (s.freeze master w (s.keptOf master))) ∧
    (s.isFrozen master = false → s.owned master w = true →
      exec (.registerWrite a mask v master) s =
        Effect s ((if maskRo w mask then s.bump .HST_CNT_ACCESS_WRITE_RO else s).writeReg w (s.unpoked w mask) v) ∧
      (regPieces w = [] → exec (.registerWrite a mask v master) s = .next s) ∧
      ∀ (p : Piece) (mk vl : Nat), s.unpoked w mask = mask → maskedPieces w mask v = [(p, mk, vl)] →
        let new := pieceNew (s.stagedReg p.reg p.inst) (p, mk, vl)
        (p.reg.info.acc = .rw → p.reg.info.imm = false → p.reg ∉ lctrlFields → exec (.registerWrite a mask v master) s =
          .next { s with staged := s.staged.put (p.reg, p.inst) (new % 2 ^ p.reg.width) }) ∧
        (p.reg.info.acc = .ro ∨ p.reg.info.acc = .rs →
          exec (.registerWrite a mask v master) s = .next (s.bump .HST_CNT_ACCESS_WRITE_RO))) ∧
    (let free := ∀ p < 16, s.reg .OPX_PCTRL_ROLE p = 1 → s.portSt p = 0 ∨ s.portSt p = 4
     (free → exec (.chipSysid v) s = .next (s.setReg .CHIP_SYSID_ID 0 v)) ∧ (¬ free → exec (.chipSysid v) s = .next s)) ∧
    (∀ (k : Fin 2), let c := s.ctl.getD k.val {}
     (c.mbox = [] ∨ s.isFrozen k.val = true → exec (.mailboxMessage k) s = .next s) ∧
     (∀ m rest, c.mbox = m :: rest → s.isFrozen k.val = false →
       let taken : State := { s with ctl := s.ctl.put k.val { c with mbox := rest } }
       (s.host.busy.get? m = none → exec (.mailboxMessage k) s = .next taken) ∧
       (∀ p, s.host.busy.get? m = some p → k = 1 → loaderOpcode (p.opcode % 4096) = true →
         exec (.mailboxMessage k) s = .next { taken with host := { s.host with loaderQ := s.host.loaderQ ++ [m] } }) ∧
       (∀ p, s.host.busy.get? m = some p → k = 1 → loaderOpcode (p.opcode % 4096) = false →
         exec (.mailboxMessage k) s = .next { taken with host := { s.host with handed := s.host.handed ++ [m] } }) ∧
       (∀ p st res, s.host.busy.get? m = some p → p.outcome = some (st, res) → k = 0 →
         exec (.mailboxMessage k) s = Effect s (taken.replyNow p st res)))) ∧
    ((s.cycle % 65536 ≠ 0 → exec .snapshotTick s = .next s) ∧
     (s.cycle % 65536 = 0 → Leads .snapshotTick s fun x => x.snapOther = s.snap ∧ Counted s x .CHIP_SNAP_SEQ 0 1 ∧
       x.snap.epoch = s.epoch ∧ SameBytes s x ∧ (∀ r i, r ≠ .CHIP_SNAP_SEQ → x.reg r i = s.reg r i) ∧
       (∀ r i, (∀ e ∈ viewFields, e.1 ≠ r) → x.snapField r i = x.reg r i))) ∧
    (∀ p, s.ordPacket a 0x020 = some p → s.commit = .idle →
      (s.cycle < s.oldUntil → Leads (.commit a) s fun x => x.commit = .held p.slot ∧ x.regs = s.regs ∧ x.staged = s.staged) ∧
      (s.oldUntil ≤ s.cycle → (s.started p).commitBreach = none → Leads (.commit a) s fun x =>
        x.commit = .prepared p.slot s.cycle (s.started p).commitRegions [] s.cycle ∧ x.regs = s.regs ∧ x.staged = s.staged) ∧
      (s.oldUntil ≤ s.cycle → ∀ b, (s.started p).commitBreach = some b → Leads (.commit a) s fun x =>
        x.commit = .idle ∧ x.staged = s.staged ∧ x.regs = s.regs ∧ (x.ctl.getD 0 {}).mbox = (s.ctl.getD 0 {}).mbox ++ [p.slot] ∧
        x.host.busy.get? p.slot = some { p with outcome := some (Status.commitRule.val, leBytes 8 b.addr ++ leBytes 2 b.status) })) ∧
    (∀ slot since rs done_ last, s.commit = .prepared slot since rs done_ last →
      (∀ r : Fin 8, r.val ∈ rs → r.val ∉ done_ → s.isFrozen (8 + r.val) = false → s.leadReady r.val done_ = true →
        s.cycle ≤ since + 61200 → Leads (.confirm r) s fun x =>
        x.commit = .prepared slot since rs (r.val :: done_) s.cycle ∧ x.regs = s.regs ∧ x.staged = s.staged) ∧
      ((∃ r ∈ rs, r ∉ done_) → since + 58800 ≤ s.cycle → s.isFrozen 1 = false → Leads .commitAbort s fun x =>
        x.commit = .idle ∧ x.staged = s.staged ∧ x.epoch = s.epoch) ∧
      ((∀ r ∈ rs, r ∈ done_) → s.isFrozen 1 = false → (s.cond.dirty = true → s.unconverted = false) → s.replayOnRemap = false →
        exec .commitBroadcast s = .next { s with
          commit := .broadcast (max (max (last + 4096) (s.cycle + 1)) (s.lastMark + 1)) (epochAfter s.epoch) })) ∧
    (∀ slot p, s.commit = .held slot → s.host.busy.get? slot = some p → s.oldUntil ≤ s.cycle → s.isFrozen 1 = false →
      s.commitBreach = none → Leads .heldCommit s fun x => x.commit = .prepared p.slot s.cycle s.commitRegions [] s.cycle ∧
        x.regs = s.regs ∧ x.staged = s.staged) ∧
    (∀ c e, s.commit = .broadcast c e → c ≤ s.cycle → s.ints.remap = none →
      (s.restoredIn s.cycle = true → exec .commitCycle s = .next { s with commit := .broadcast (s.cycle + 1) e }) ∧
      ((∀ y ∈ s.memS.restored, y.2 < c) →
      Leads .commitCycle s fun x => x.commit = .idle ∧ x.epoch = e % 2 ^ 16 ∧ x.staged = [] ∧ x.cond.committed = s.cond.staged ∧
        (∃ m, x.cfgOld = some (s.epoch, m)) ∧
        (∀ r ∈ [Reg.VRD_DEFAULT_RESULT, .VRD_CTRL_PIN_WIDTH, .VRD_CTRL_INC_POLICY, .VRD_PORTS_MAP, .VRD_INGRESS_SLACK], ∀ i,
          x.reg r i = (s.staged.get? (r, i)).getD (s.reg r i))))

/-- Loader commands run at the head of their queue: checks refuse, step 10 stages, UNLOAD, PROMOTE and CANCEL stage and give up.
Out of reset, for a command that heads the loader's queue with control core 1 not frozen. LOAD and BANK_LOAD wait while an
image is in step 10; else an unreadable image, or one a check refuses, is counted, comes to its status and changes no slot,
and an image that passes waits for step 10. SHADOW_WRITE waits for jobs and restores in the way; then it stages the network (a
full image as a load, a bank image as a bank), counts the load, comes to status 0, and a single pass data record's bytes stand
in its cluster's SRAM, no byte elsewhere changing but in its golden copy. UNLOAD of a live idle slot stages VRD_CTRL.ENABLE 0
and VRD_LNET 0; PROMOTE of a staged bank stages its register writes; CANCEL of a staged load drops its fields and no others;
each is refused in the wrong state. KEY_REGISTER stores a valid new key, any other comes to its status. What a command comes
to is told to core 0's mailbox. SLOT_DRAIN_END empties the slot Lnet + 20 cycles after C. A write of NSL_CTRL.SIG_REQUIRED is
ignored while it is 1. The drain clause and the order of page states follow log 29 and log 68. (R24, R68, R192, R194, R195,
R201, R203, R204, R206, R209, R218, R263) -/
def Obligations.LoaderLoadsUnloadsPromotesAndCancels : Prop :=
  ∀ (s : State) (hs : Nat) (k : Fin 16), Awake s →
    let told := fun (x : State) (p : Packet) (st : Nat) => (∃ res, x.host.busy.get? p.slot = some { p with outcome := some (st, res) }) ∧
      (x.ctl.getD 0 {}).mbox = (s.ctl.getD 0 {}).mbox ++ [p.slot]
    let answered := fun (x : State) (p : Packet) (st : Nat) => told x p st ∧ x.cores = s.cores ∧ x.reg .NSL_LAST_STATUS 0 = st % 2 ^ 16 ∧ x.reg .NSL_LAST_SLOT 0 = pU8 p 0 % 16
    (∀ (bank : Bool) (p : Packet), s.loaderPacket hs (if bank then 0x201 else 0x200) = some p →
      let c : Instr := if bank then .bankLoad hs else .load hs
      let slot := pU8 p 0
      let refused := fun (f : LoadFail) => Leads c s fun x => answered x p f.status ∧ Counted s x .NSL_CNT_REFUSED slot 1 ∧
        x.reg .NSL_LOAD_STATUS slot = f.status % 2 ^ 16 ∧ x.nets = s.nets ∧ x.staged = s.staged ∧ x.mem = s.mem
      (s.nets.any (fun (e : Nat × SlotNet) => e.2.loading.isSome) = true → exec c s = .next s) ∧
      (s.nets.any (fun (e : Nat × SlotNet) => e.2.loading.isSome) = false →
        (∀ f, (s.stagedImage (pU32 p 4)).1 = .error f → refused f) ∧
        (∀ bs, (s.stagedImage (pU32 p 4)).1 = .ok bs →
          (∀ f, (s.stagedImage (pU32 p 4)).2.checkImage slot bank bs = .error f → refused f) ∧
          (∀ i, (s.stagedImage (pU32 p 4)).2.checkImage slot bank bs = .ok i → Leads c s fun x =>
            x.netSlot slot = { s.netSlot slot with loading := some i } ∧ (∀ j, j ≠ slot → x.netSlot j = s.netSlot j) ∧
            x.host = s.host ∧ x.staged = s.staged ∧ SameBytes s x)))) ∧
    (∀ i p, (s.netSlot k.val).loading = some i → s.host.loaderQ.head?.bind s.host.busy.get? = some p → pU8 p 0 = k.val →
      p.opcode % 4096 = 0x200 ∨ p.opcode % 4096 = 0x201 → s.isFrozen 1 = false → s.broadcasting = false →
      (s.jobsInWay i ≠ [] → Leads (.shadowWrite k) s fun x => x.nets = s.nets ∧ x.host = s.host ∧ x.staged = s.staged) ∧
      (s.jobsInWay i = [] → s.restoreInWay i = true → exec (.shadowWrite k) s = .next s) ∧
      (s.jobsInWay i = [] → s.restoreInWay i = false →
        let isBank := kindOf (leBytes 4 i.magic ++ List.replicate 34 0 ++ leBytes 2 i.flags) = .bank
        Leads (.shadowWrite k) s fun x => (x.netSlot k.val).loading = none ∧ (x.netSlot k.val).live = (s.netSlot k.val).live ∧
          told x p 0 ∧ Counted s x .NSL_CNT_LOADS k.val 1 ∧
          x.reg .NSL_LOAD_STATUS k.val = 0 ∧ x.reg .NSL_LAST_STATUS 0 = 0 ∧ x.reg .NSL_LAST_SLOT 0 = k.val ∧ x.epoch = s.epoch ∧
          (¬ isBank → (∃ net, (x.netSlot k.val).staged = some (.load net) ∧ net.img = i) ∧
            x.staged.get? (.VRD_CTRL_ENABLE, k.val) = some 1 ∧
            x.staged.get? (.VRD_LNET_LNET, k.val) = some (i.lnet % 2 ^ Reg.width .VRD_LNET_LNET) ∧ x.staged.get? (.VRD_VSTREAM_STREAM, k.val) = some (i.vstream % 2 ^ Reg.width .VRD_VSTREAM_STREAM)) ∧
          (∀ l, isBank → (s.netSlot k.val).live = some l →
            (x.netSlot k.val).staged = some (.bank (s.withBank k.val l i) false) ∧ x.staged = s.staged) ∧
          (∀ d : PassChunk, i.passData = [d] → i.fawn = [] → MemOk s →
            let st := UnitAddr.steward (d.unit % 4096)
            let a := sramOf st + d.off
            let g := s.goldenAddr st d.off
            (∀ j < d.data.length, cellGet x.mem (a + j) = BitVec.ofNat 8 (d.data.getD j 0)) ∧
            (∀ q, q < a ∨ a + d.data.length ≤ q → q < g ∨ g + d.data.length ≤ q → cellGet x.mem q = cellGet s.mem q)))) ∧
    (∀ p, s.loaderPacket hs 0x202 = some p →
      let n := s.netSlot (pU8 p 0)
      let idle := n.live.isSome ∧ n.staged = none ∧ n.loading = none ∧ n.unload = false
      (idle → Leads (.unload hs) s fun x => answered x p 0 ∧ x.netSlot (pU8 p 0) = { n with unload := true } ∧ x.mem = s.mem ∧
        x.staged.get? (.VRD_CTRL_ENABLE, pU8 p 0) = some 0 ∧ x.staged.get? (.VRD_LNET_LNET, pU8 p 0) = some 0) ∧
      (¬ idle → Leads (.unload hs) s fun x => answered x p lsState ∧ x.nets = s.nets ∧ x.staged = s.staged ∧ x.mem = s.mem)) ∧
    (∀ p, s.loaderPacket hs 0x203 = some p →
      let n := s.netSlot (pU8 p 0)
      (∀ b, n.staged = some (.bank b false) → s.draining = false → n.live.isSome → Leads (.promote hs) s fun x => answered x p 0 ∧
        x.netSlot (pU8 p 0) = { n with staged := some (.bank b true) } ∧ x.staged = (s.stageAll (bankWrites b)).staged ∧ x.mem = s.mem) ∧
      ((∀ b, n.staged ≠ some (.bank b false)) ∨ s.draining = true ∨ n.live = none → Leads (.promote hs) s fun x =>
        answered x p lsState ∧ x.nets = s.nets ∧ x.staged = s.staged ∧ x.mem = s.mem)) ∧
    (∀ p, s.loaderPacket hs 0x204 = some p →
      let n := s.netSlot (pU8 p 0)
      (∀ net, n.staged = some (.load net) → Leads (.cancel hs) s fun x => answered x p 0 ∧ x.mem = s.mem ∧
        x.netSlot (pU8 p 0) = { n with staged := none } ∧ (∀ f ∈ netFields (pU8 p 0) net.img, x.staged.get? f = none) ∧
        (∀ f, f ∉ netFields (pU8 p 0) net.img → x.staged.get? f = s.staged.get? f)) ∧
      (∀ b pr, n.staged = some (.bank b pr) → Leads (.cancel hs) s fun x => answered x p 0 ∧ x.mem = s.mem ∧
        x.netSlot (pU8 p 0) = { n with staged := none } ∧ (pr = false → x.staged = s.staged)) ∧
      (n.staged = none → Leads (.cancel hs) s fun x => answered x p lsState ∧ x.nets = s.nets ∧
        x.staged = s.staged ∧ x.mem = s.mem)) ∧
    (∀ p, s.loaderPacket hs 0x210 = some p →
      let off := pU32 p 4
      let a := s.reg .MEM_STAGE_BASE + off
      (s.stageDirty off 1793 = true → exec (.keyRegister hs) s = Effect s (s.reply p .stageDirty)) ∧
      (s.stageDirty off 1793 = false → off + 1793 ≤ stageBytes → inStack a 1793 = true →
        (∀ w ∈ stackWords a 1793, w ∉ s.poison ∧ w ∉ s.ue) →
        let valid := Config.falconKeyValid (s.rd a 1793) = true
        let isNew := s.keys.any (·.id == pU32 p 0) = false
        let refused := fun (st : Status) => Leads (.keyRegister hs) s fun x => x.keys = s.keys ∧ told x p st.val ∧ SameBytes s x
        (valid → isNew → s.keys.length < 8 → Leads (.keyRegister hs) s fun x =>
          x.keys = s.keys ++ [{ id := pU32 p 0, key := s.rd a 1793 }] ∧ told x p 0 ∧ SameBytes s x ∧
          x.reg .NSL_KEYS_COUNT 0 = (s.keys.length + 1) % 2 ^ Reg.width .NSL_KEYS_COUNT) ∧
        (¬ valid → refused .keyFormat) ∧ (valid → ¬ isNew → refused .keyDuplicate) ∧
        (valid → isNew → 8 ≤ s.keys.length → refused .keySpace))) ∧
    (∀ c o, (s.netSlot k.val).drainC = some c → (s.netSlot k.val).old = some o → (s.netSlot k.val).live = none →
      (c + o.img.lnet + 20 ≤ s.cycle → Leads (.slotDrainEnd k) s fun x =>
        x.netSlot k.val = { s.netSlot k.val with old := none, drainC := none } ∧ x.staged = s.staged ∧ SameBytes s x) ∧
      (s.cycle < c + o.img.lnet + 20 → exec (.slotDrainEnd k) s = .next s)) ∧
    (s.flag .NSL_CTRL_SIG_REQUIRED = true → exec (.sigRequired hs) s = .next s) ∧
    (s.flag .NSL_CTRL_SIG_REQUIRED = false → exec (.sigRequired hs) s = .next (s.setReg .NSL_CTRL_SIG_REQUIRED 0 hs))

/-- Samples reach their ring or are dropped; jobs start, take their clusters, train by R219 to R222, write a candidate and end.
Out of reset. SAMPLE_WRITE of a slot's oldest selected event: older than 4,096 cycles, or with no ring placed, it is dropped;
in its turn, not retained it is lost; retained and readable, with an empty ring that has room, its record is stored at the
ring's next position and nowhere else, NEXT moves on by one, and a record too long is dropped. SAMPLE_DROP drops an event of
4,096 cycles or more. REF_START refuses fields out of range and a job under way; a checked image makes the job WAITING
(SUSPENDED under a drain) with its fields zeroed. REF_CANCEL aborts. JOB_STEP_START ends a job whose base has gone or whose
samples read poisoned, lets a granted cluster join, and starts the step; with no cluster it waits. JOB_STEP_END within the
limit moves SEQ on by BATCH, counts the step, keeps the constants, takes the only block of the only cluster to W - LR x M/(R +
EPS) in binary32, requantised or, of scale codes, rounded, and at the last pass writes the candidate, which must fit CAND_LEN.
Past its limit it abandons the step as JOB_STEP_ABANDON does, the blocks kept. Orders and roundings the rules leave open
follow log 69 to log 72; free values stand for what they do not state. (R210, R212, R213, R214, R215, R216, R217, R218, R219,
R222, R224, R227) -/
def Obligations.JobsStartTrainAndEndAndSamplersCopy : Prop :=
  ∀ (s : State) (hs : Nat) (k : Fin 16) (j : Fin 8) (grads : List (List (List Word))) (consts : List (Nat × Nat × Nat)), Awake s →
    (∀ q rest, (s.sampler k.val).waiting = q :: rest → q.slot = k.val →
      let gone := fun (x : State) (r : Reg) => (x.sampler k.val).waiting = rest ∧ Counted s x r k.val 1 ∧ x.mem = s.mem ∧
        (x.sampler k.val).recs = (s.sampler k.val).recs ∧ x.cores = s.cores ∧ x.win = s.win
      let cap := s.reg .NSL_SMP_RLEN_LEN k.val * 64
      let seq := s.reg .NSL_SMP_SEQ_NEXT k.val
      let pos := if (s.sampler k.val).nextPos < cap then (s.sampler k.val).nextPos else 0
      let base := s.reg .NSL_SMP_RING_BASE k.val
      (base = 0 ∨ q.cyc + 4096 < s.cycle → Leads (.sampleWrite k) s fun x => gone x .NSL_SMP_CNT3_DROPPED) ∧
      (base ≠ 0 → s.cycle ≤ q.cyc + 4096 → s.memTurn 5 = false → exec (.sampleWrite k) s = .next s) ∧
      (base ≠ 0 → s.memTurn 5 = true → s.cycle ≤ q.cyc + 4096 → s.retFind k.val q.tag q.epoch q.ingressTB = none → Leads (.sampleWrite k) s fun x =>
        gone x .NSL_SMP_CNT2_LOST ∧ Counted s x .MEM_CNT_RET2_MISSING 0 1) ∧
      (∀ e, base ≠ 0 → s.memTurn 5 = true → s.cycle ≤ q.cyc + 4096 → s.retFind k.val q.tag q.epoch q.ingressTB = some e →
        ((∃ w ∈ stackWords e.pos e.len, w ∈ s.poison) → Leads (.sampleWrite k) s fun x => gone x .NSL_SMP_CNT2_LOST) ∧
        ((∀ w ∈ stackWords e.pos e.len, w ∉ s.poison ∧ w ∉ s.ue) →
          let ntok := leAt (s.rd e.pos e.len) 14 2
          let bs := s.sampleBytes q seq ntok (bytesAt (s.rd e.pos e.len) 64 (48 * ntok))
          (cap < bs.length → Leads (.sampleWrite k) s fun x => gone x .NSL_SMP_CNT3_DROPPED) ∧
          (pos + bs.length ≤ cap → (s.sampler k.val).recs = [] → MemOk s → Leads (.sampleWrite k) s fun x =>
            (x.sampler k.val).waiting = rest ∧ (x.sampler k.val).recs = [{ seq := seq, pos := pos, len := bs.length }] ∧
            (x.sampler k.val).nextPos = (pos + bs.length) % cap ∧ x.reg .NSL_SMP_SEQ_NEXT k.val = (seq + 1) % 2 ^ 32 ∧
            Counted s x (if q.accepted then .NSL_SMP_CNT_ACCEPTED else .NSL_SMP_CNT_REJECTED) k.val 1 ∧
            (∀ n < bs.length, cellGet x.mem (base + pos + n) = BitVec.ofNat 8 (bs.getD n 0)) ∧
            (∀ a, a < base + pos ∨ base + pos + bs.length ≤ a → cellGet x.mem a = cellGet s.mem a) ∧ x.cores = s.cores))) ∧
      (q.cyc + 4096 ≤ s.cycle → Leads (.sampleDrop k) s fun x => gone x .NSL_SMP_CNT3_DROPPED) ∧
      (s.cycle < q.cyc + 4096 → exec (.sampleDrop k) s = .next s)) ∧
    (∀ p, s.loaderPacket hs 0x300 = some p →
      let told := fun (x : State) (p : Packet) (st : Nat) => (∃ res, x.host.busy.get? p.slot = some { p with outcome := some (st, res) }) ∧
        (x.ctl.getD 0 {}).mbox = (s.ctl.getD 0 {}).mbox ++ [p.slot]
      let n := pU8 p 0
      let busy := s.reg .NSL_JOB_STATE_STATE n = 1 ∨ s.reg .NSL_JOB_STATE_STATE n = 2 ∨ s.reg .NSL_JOB_STATE_STATE n = 3
      (jobFieldsOk p = false → exec (.refStart hs) s = Effect s (s.reply p .field)) ∧
      (jobFieldsOk p = true → busy → exec (.refStart hs) s = Effect s (s.reply p .jobState)) ∧
      (jobFieldsOk p = true → ¬ busy →
        (∀ f, (s.jobImage (pU64 p 16)).1 = .error f → Leads (.refStart hs) s fun x => x.jobs = s.jobs ∧ x.mem = s.mem ∧
          told x p f.status ∧ x.cores = s.cores) ∧
        (∀ bs i c, (s.jobImage (pU64 p 16)).1 = .ok bs → (s.jobImage (pU64 p 16)).2.jobChecks (pU8 p 1) bs = .ok (i, c) →
          Leads (.refStart hs) s fun x => (∃ base, x.jobs.get? n = some (jobOf p i c base)) ∧ told x p 0 ∧
            x.reg .NSL_JOB_STATE_STATE n = (if s.draining then 3 else 1) ∧ x.reg .NSL_JOB_STATE_CLUSTERS n = 0 ∧
            x.reg .NSL_JOB_STATE_STEPS n = 0 ∧ x.reg .NSL_JOB_POS_PASS n = 0 ∧ x.reg .NSL_JOB_POS_SEQ n = pU32 p 4 % 2 ^ 32 ∧
            x.mem = s.mem ∧ x.cores = s.cores))) ∧
    (∀ p, s.ordPacket hs 0x301 = some p →
      let st := s.reg .NSL_JOB_STATE_STATE (pU8 p 0)
      (st = 1 ∨ st = 2 ∨ st = 3 → Leads (.refCancel hs) s fun x => x.reg .NSL_JOB_STATE_STATE (pU8 p 0) = 5 ∧
        x.reg .NSL_JOB_STATE_STATUS (pU8 p 0) = 0x4302 ∧ (x.jobs.getD (pU8 p 0) {}).joined = [] ∧ x.host.busy.get? p.slot = none ∧
        x.mem = s.mem ∧ ∀ g ∈ x.power.granted, ¬ (g.cls = 4 ∧ g.work = pU8 p 0)) ∧
      (¬ (st = 1 ∨ st = 2 ∨ st = 3) → exec (.refCancel hs) s = Effect s (s.reply p .jobState))) ∧
    (∀ b, s.jobs.get? j.val = some b →
      let st := s.reg .NSL_JOB_STATE_STATE j.val
      let ends := fun (c : Instr) (status : Nat) => Leads c s fun x => x.reg .NSL_JOB_STATE_STATE j.val = (if status = 0 then 4 else 5) ∧
        x.reg .NSL_JOB_STATE_STATUS j.val = status ∧ (x.jobs.getD j.val {}).joined = [] ∧ (x.jobs.getD j.val {}).stepStart = none
      (st = 0 ∨ st = 4 ∨ st = 5 ∨ b.stepStart.isSome ∨ s.draining = true → exec (.jobStepStart j) s = .next s) ∧
      (st = 1 ∨ st = 2 ∨ st = 3 → b.stepStart = none → s.draining = false →
        (s.jobBase b = none → ends (.jobStepStart j) 0x4301) ∧
        ((s.jobBase b).isSome → s.power.granted = [] →
          (b.joined = [] → Leads (.jobStepStart j) s fun x => x.jobs = s.jobs ∧ SameBytes s x ∧
            x.reg .NSL_JOB_STATE_STATE j.val = if st = 3 then 3 else 1) ∧
          (b.joined ≠ [] → (b.fixed = true → b.joined.length = b.count) → b.blocks ≠ [] →
            ((s.takeSamples j.val b).1 = false → Leads (.jobStepStart j) s fun x => x.reg .NSL_JOB_STATE_STATE j.val = 2 ∧
              x.jobs.get? j.val = some { b with stepStart := some s.cycle, revoked := false } ∧ SameBytes s x) ∧
            ((s.takeSamples j.val b).1 = true → ends (.jobStepStart j) 0x5302))) ∧
        ((s.jobBase b).isSome → ∀ (g : Leave) (r : Fin 8) (c : Fin 16), s.power.granted = [g] → g.cls = 4 → g.work = j.val →
          g.region = some r.val → g.cyc ≤ s.cycle → b.joined = [] → b.count = 1 → b.blocks ≠ [] → (s.sampler b.slot).recs = [] →
          s.clusterFree b.img (17 * r.val + c.val) = true → (∀ c' < c.val, s.clusterFree b.img (17 * r.val + c') = false) →
          Leads (.jobStepStart j) s fun x => x.reg .NSL_JOB_STATE_STATE j.val = 2 ∧ x.reg .NSL_JOB_STATE_CLUSTERS j.val = 1 ∧
            x.jobs.get? j.val = some { b with joined := [17 * r.val + c.val], stepStart := some s.cycle, revoked := false })) ∧
      (b.stepStart = none ∨ st ≠ 2 → exec (.jobStepEnd j grads consts) s = .next s) ∧
      (∀ c, b.stepStart = some c → st = 2 →
        let count := (b.last + 2 ^ 32 - b.first % 2 ^ 32) % 2 ^ 32 + 1
        let at_ := (s.reg .NSL_JOB_POS_SEQ j.val + 2 ^ 32 - b.first % 2 ^ 32) % 2 ^ 32 + b.batch
        let passes := s.reg .NSL_JOB_POS_PASS j.val + at_ / count
        let inTime := s.cycle ≤ c + s.reg .NSL_JOB_LIMIT_CYCLES j.val
        (c + s.reg .NSL_JOB_LIMIT_CYCLES j.val < s.cycle → exec (.jobStepEnd j grads consts) s = exec (.jobStepAbandon j) s) ∧
        (s.jobBase b = none → ends (.jobStepEnd j grads consts) 0x4301) ∧
        ((s.jobBase b).isSome → inTime → passes < b.passes → b.leaving = [] → b.joined ≠ [] → Leads (.jobStepEnd j grads consts) s fun x =>
          (x.jobs.getD j.val {}).stepStart = none ∧ (x.jobs.getD j.val {}).joined = b.joined ∧
          (x.jobs.getD j.val {}).consts = (keepConsts b consts).consts ∧
          Counted s x .NSL_JOB_STATE_STEPS j.val 1 ∧ x.reg .NSL_JOB_POS_SEQ j.val = (b.first + at_ % count) % 2 ^ 32 ∧
          x.reg .NSL_JOB_POS_PASS j.val = passes % 2 ^ 16 ∧ SameBytes s x ∧
          (∀ pb cl, b.blocks = [pb] → b.joined = [cl] →
            let g := (List.range 64).map fun e => nth 0 (nth [] (nth [] grads 0) 0) e
            (∀ w ∈ g, fDec w ≠ .nan) →
            let f := fun (n : Nat) => BitVec.ofNat 32 n
            let e := gradExp g
            let u := (List.range 64).map fun n =>
              let gq := expand (clampI (-127) 127 (scaledInt (nth 0 g n) e 0)) e
              let m := fAdd (fMul (f b.beta1) (moment (nth 0 pb.mCodes n) pb.mCode (-12))) (fMul (fSub 0x3F800000 (f b.beta1)) gq)
              let r0 := moment (nth 0 pb.rCodes n) pb.rCode (-10)
              let r := fSqrt (fAdd (fMul (fMul (f b.beta2) r0) r0) (fMul (fMul (fSub 0x3F800000 (f b.beta2)) gq) gq))
              fSub (nth 0 pb.w n) (fDiv (fMul (f b.lr) m) (fAdd r (f b.eps)))
            (∀ w ∈ u, fDec w ≠ .nan) → pb.w.length = 64 → ∃ z, (x.jobs.getD j.val {}).blocks = [z] ∧
              (pb.isScale = false → z.w = (requantBlock { pb with w := u } fun _ => 0).1.w) ∧
              (pb.isScale = true → z.w = u.map fun w => fRound false (trainedCode w 0) 0))) ∧
        (∀ live l0 l1 rs o0 o1 o2 o3, s.jobBase b = some live → inTime → b.passes ≤ passes → MemOk s →
          readLayout (nth [] b.layouts 0) = some (l0, o0) → readLayout (nth [] b.layouts 1) = some (l1, o1) →
          readAll readScale b.scaleRecs = some (rs, o2, o3) →
          let y := ((({ s with jobs := s.jobs.put j.val (keepConsts b consts) } : State).trainStep j.val grads).advanceJob j.val).2
          let bs := y.candidate (y.jobs.getD j.val {}) live (if y.layoutUsed l0 then l1 else l0) rs
          (b.candLen < bs.length → ends (.jobStepEnd j grads consts) 0x3301) ∧
          (bs.length ≤ b.candLen → ends (.jobStepEnd j grads consts) 0 ∧ Leads (.jobStepEnd j grads consts) s fun x =>
            x.reg .NSL_JOB_STATE_DET j.val = (if b.fixed && !b.hasV then 1 else 0) ∧
            (∀ n < bs.length, cellGet x.mem (b.cand + n) = BitVec.ofNat 8 (bs.getD n 0)) ∧
            (∀ a, a < b.cand ∨ b.cand + bs.length ≤ a → cellGet x.mem a = cellGet s.mem a)))) ∧
      (∀ c, b.stepStart = some c →
        (s.cycle ≤ c + s.reg .NSL_JOB_LIMIT_CYCLES j.val → exec (.jobStepAbandon j) s = .next s) ∧
        (c + s.reg .NSL_JOB_LIMIT_CYCLES j.val < s.cycle →
          (s.jobBase b = none → ends (.jobStepAbandon j) 0x4301) ∧
          ((s.jobBase b).isSome → b.leaving = [] → b.joined ≠ [] → Leads (.jobStepAbandon j) s fun x =>
            x.jobs.get? j.val = some { b with stepStart := none, leaving := [] } ∧ Counted s x .NSL_JOB_CNT_REVOKES j.val 1 ∧
            x.reg .NSL_JOB_STATE_STEPS j.val = s.reg .NSL_JOB_STATE_STEPS j.val ∧ SameBytes s x))))

/-- Pins, rails and the trip put the device in and out of internal reset, in which every other command changes nothing. For every
state. RESET_ASSERT, UNDERVOLTAGE, JUNCTION_COLD and THERMAL_TRIP lose every register and memory content and hold the device;
the trip acts in every state, and RESETn's low time goes on counting for it. TRIP_RELEASE needs RESETn low for 10 microseconds
(12,000 cycles) and leaves the device in RESETn's reset. RESET_RELEASE of a device held by anything but the trip starts it at
cycle 0 with its straps sampled, STATE ROM (MONITOR for a SERIAL strap) and every other register at its reset value. In
internal reset every command but these six answers the state it found, for it is not acted on. That the journal, the queue and
the count of free values stay is the model's choice (log 6, log 8), and what a low RESETn counts under the trip is log 94.
(R2, R346, R347, R454, R459, R460, R462) -/
def Obligations.ResetPinsAndTripMoveTheDevice : Prop :=
  ∀ (s : State) (b : Nat) (d : Bool) (i : Instr),
    let lost := fun (why : ResetPhase) =>
      ({ stepping := s.stepping, pending := s.pending, out := s.out, freeIdx := s.freeIdx, cycle := s.cycle, phase := why } : State)
    let held := s.phase = .undervolt ∨ s.phase = .cold
    (Awake s ∨ held → exec .resetAssert s = .next (lost (.resetn s.cycle))) ∧
    (s.phase = .tripped none → exec .resetAssert s = .next { s with phase := .tripped (some s.cycle) }) ∧
    (∀ c, s.phase = .tripped (some c) ∨ s.phase = .resetn c → exec .resetAssert s = .next s) ∧
    (Awake s → exec .undervoltage s = .next (lost .undervolt) ∧ exec .junctionCold s = .next (lost .cold)) ∧
    (¬ Awake s → exec .undervoltage s = .next s ∧ exec .junctionCold s = .next s) ∧
    (Awake s ∨ held → exec .thermalTrip s = .next (lost (.tripped none))) ∧
    (∀ c, s.phase = .resetn c → exec .thermalTrip s = .next (lost (.tripped (some c)))) ∧
    (∀ c, s.phase = .tripped c → exec .thermalTrip s = .next s) ∧
    (∀ c, s.phase = .tripped (some c) →
      (c + 12000 ≤ s.cycle → exec .tripRelease s = .next { s with phase := .resetn c }) ∧
      (s.cycle < c + 12000 → exec .tripRelease s = .next s)) ∧
    ((∀ c, s.phase ≠ .tripped (some c)) → exec .tripRelease s = .next s) ∧
    ((∃ c, s.phase = .tripped c) ∨ Awake s → exec (.resetRelease b d) s = .next s) ∧
    (held ∨ (∃ c, s.phase = .resetn c) → Leads (.resetRelease b d) s fun x =>
      x.phase = .running ∧ x.cycle = 0 ∧ x.boot.bootSrc = b % 4 ∧ x.boot.devMode = d ∧ x.stepping = s.stepping ∧ x.pending = s.pending ∧
      x.reg .BOOT_STATE_STATE = (if b % 4 = 0 then 1 else 7) ∧ x.reg .BOOT_STATE_BOOT_SRC = b % 4 ∧
      x.reg .BOOT_STATE_DEV_MODE = (if d then 1 else 0) ∧ (∀ r k, r ≠ .BOOT_STATE_STATE → x.reg r k = x.resetVal r k) ∧
      x.staged = [] ∧ x.mem = [] ∧ x.win = [] ∧ x.cores = [] ∧ x.nets = [] ∧ x.jobs = [] ∧ x.frozen = [] ∧ x.keys = []) ∧
    (¬ Awake s → i ≠ .resetAssert → (∀ b' d', i ≠ .resetRelease b' d') → i ≠ .undervoltage → i ≠ .thermalTrip → i ≠ .junctionCold →
      i ≠ .tripRelease → exec i s = .next s)

/-- ROM commands restore or enrol an identity, take a key and an image whose checks pass, and reports are signed and counted. Out
of reset. For the ROM command in the boot slot. BOOT_HELPER waits for no identity in hand, refuses helper data of a wrong
format, and restores the seed only when its fingerprint agrees: then STATE, PUF_STATE, IDENTITY and the fingerprints are set;
else STATE says that it failed. BOOT_ENROL takes a new seed, stores its helper data at 0x2000 and sets the identity.
BOOT_DEVKEY is for development mode after an identity. BOOT_CHUNK needs an identity, a waiting ROM, a legal length and the
next offset; it stores its bytes, refuses an image whose header or body fails, with the intake cleared and the refusal
counted, and starts a verified image. ATTEST counts the report and, with firmware running, stores it at the offset given; in
the ROM it stores it in transfer half A. The seed and what the keys compute are free functions of the device (Config), and the
report's number is read as log 88 says. (R348, R349, R350, R351, R352, R353, R354, R360, R361) -/
def Obligations.BootGivesAnIdentityAndAnImage : Prop :=
  ∀ (s : State) (hs : Nat), Awake s →
    (∀ p, s.romPacket 0x500 = some p →
      let h := s.winRd 0x2000 4096
      let good := leAt h 0 4 = 0x31485654 ∧ leAt h 5 1 = 1 ∧ leAt h 6 2 = 4096 ∧ bytesAt h 4032 64 = shake256 (bytesAt h 0 4032) 64
      let failed := Leads .bootHelper s fun x => x.reg .BOOT_STATE_STATE = 6 ∧ x.reg .SEC_STATUS_PUF_STATE = 2 ∧ x.boot = s.boot ∧
        x.host.busy.get? p.slot = none ∧ x.mem = s.mem ∧ x.cores = s.cores
      (s.waitsIdentity = false → exec .bootHelper s = Effect s (s.reply p .fwStageState)) ∧
      (s.waitsIdentity = true → ¬ good → exec .bootHelper s = Effect s (s.reply p .helperFormat)) ∧
      (s.waitsIdentity = true → good → Config.pufRestore (bytesAt h 64 3968) = none → failed) ∧
      (∀ seed, s.waitsIdentity = true → good → Config.pufRestore (bytesAt h 64 3968) = some seed →
        (shake256 (Config.falconPublic seed) 32 ≠ bytesAt h 8 32 → failed) ∧
        (shake256 (Config.falconPublic seed) 32 = bytesAt h 8 32 → Leads .bootHelper s fun x =>
          x.reg .BOOT_STATE_STATE = 2 ∧ x.reg .SEC_STATUS_PUF_STATE = 1 ∧ x.reg .SEC_STATUS_IDENTITY = 1 ∧ x.boot.seed = seed ∧
          (∀ k < 4, x.reg .SEC_IDFP_VALUE k = leAt (shake256 (Config.falconPublic seed) 32) (8 * k) 8 % 2 ^ 64) ∧
          (∀ k < 4, x.reg .SEC_KEMFP_VALUE k = leAt (shake256 (Config.kemPublic seed) 32) (8 * k) 8 % 2 ^ 64) ∧
          x.host.busy.get? p.slot = none ∧ x.mem = s.mem ∧ x.cores = s.cores))) ∧
    (∀ p, s.romPacket 0x501 = some p →
      let seed := Config.pufSeed s.freeIdx
      (s.waitsIdentity = false → exec .bootEnrol s = Effect s (s.reply p .fwStageState)) ∧
      (s.waitsIdentity = true → Leads .bootEnrol s fun x => x.reg .BOOT_STATE_STATE = 2 ∧ x.reg .SEC_STATUS_PUF_STATE = 3 ∧
        x.reg .SEC_STATUS_IDENTITY = 1 ∧ x.boot.seed = seed ∧ x.freeIdx = s.freeIdx + 1 ∧ x.host.busy.get? p.slot = none ∧
        x.mem = s.mem ∧ x.cores = s.cores ∧
        (MemOk s → p.slot = 64 → ∀ j < (helperBytes seed).length,
          cellGet x.win (0x2000 + j) = BitVec.ofNat 8 ((helperBytes seed).getD j 0)))) ∧
    (∀ p, s.romPacket 0x502 = some p →
      (s.boot.devMode = false → exec .bootDevkey s = Effect s (s.reply p .devOnly)) ∧
      (s.boot.devMode = true → s.waitsIdentity = true → exec .bootDevkey s = Effect s (s.reply p .fwStageState)) ∧
      (s.boot.devMode = true → s.waitsIdentity = false → Leads .bootDevkey s fun x => x.reg .SEC_STATUS_DEV_KEY = 1 ∧
        x.boot = { s.boot with devKey := s.winRd (0x8000 + 0x4000 * pU8 p 0) 1793 } ∧ x.host.busy.get? p.slot = none ∧
        x.mem = s.mem ∧ x.cores = s.cores)) ∧
    (∀ p, s.romPacket 0x503 = some p →
      let st := s.reg .BOOT_STATE_STATE
      let n := pU32 p 8
      let img := s.boot.intake ++ s.winRd (0x8000 + 0x4000 * pU8 p 0) n
      let head := if s.boot.intake = [] then fwStep1 img <|> s.fwStep26 img else none
      let refused := Leads .bootChunk s fun x => x.boot.intake = [] ∧ x.reg .BOOT_STATE_STATE = 2 ∧ Counted s x .BOOT_CNT_REFUSED 0 1 ∧
        Counted s x .SEC_CNT_FAILED 0 1 ∧ x.boot.running = s.boot.running ∧ x.host.busy.get? p.slot = none ∧ x.mem = s.mem
      (s.flag .SEC_STATUS_IDENTITY = false → exec .bootChunk s = Effect s (s.reply p .noIdentity)) ∧
      (s.flag .SEC_STATUS_IDENTITY = true → st ≠ 2 → st ≠ 3 → exec .bootChunk s = Effect s (s.reply p .fwStageState)) ∧
      (s.flag .SEC_STATUS_IDENTITY = true → st = 2 ∨ st = 3 →
        (n = 0 ∨ 16384 < n → exec .bootChunk s = Effect s (s.reply p .field)) ∧
        (0 < n → n ≤ 16384 → pU32 p 4 ≠ s.boot.intake.length ∨ (s.boot.intake = [] ∧ n < 4096) →
          exec .bootChunk s = Effect s (s.reply p .bootSeq)) ∧
        (0 < n → n ≤ 16384 → pU32 p 4 = s.boot.intake.length → (s.boot.intake = [] → 4096 ≤ n) →
          (head ≠ none ∨ fwTotal img < img.length → refused) ∧
          (head = none → img.length < fwTotal img → Leads .bootChunk s fun x => x.boot = { s.boot with intake := img } ∧
            x.reg .BOOT_STATE_STATE = 3 ∧ x.host.busy.get? p.slot = none ∧ x.mem = s.mem ∧ x.cores = s.cores) ∧
          (head = none → img.length = fwTotal img →
            let y : State := { s with boot := { s.boot with intake := img } }
            (∀ e, y.fwStep79 img none = .error e → refused) ∧
            (∀ f, y.fwStep79 img none = .ok f → Leads .bootChunk s fun x => x.reg .BOOT_STATE_STATE = 5 ∧ x.boot.running = some f ∧
              x.boot.intake = [] ∧ x.reg .BOOT_FWVER_VERSION = f.version % 2 ^ 32 ∧ x.reg .BOOT_FWVER_ID = f.id % 2 ^ 32 ∧
              (x.ctl.getD 0 {}).pc = f.entry0 ∧ (x.ctl.getD 1 {}).pc = f.entry1 ∧ Counted s x .SEC_CNT_VERIFIED 0 1 ∧
              x.host.busy.get? p.slot = none ∧
              (MemOk s → ∀ j < f.data1.length, cellGet x.mem (0x70040000 + j) = BitVec.ofNat 8 (f.data1.getD j 0))))))) ∧
    (∀ p, s.fwRunning = true → s.ordPacket hs 0x520 = some p →
      let off := pU32 p 32
      let r := s.attestReport (bytesAt p.params 0 32)
      let a := s.reg .MEM_STAGE_BASE + off
      (off % 4096 ≠ 0 ∨ stageBytes < off + 4096 → exec (.attest hs) s = Effect s (s.reply p .field)) ∧
      (off % 4096 = 0 → off + 4096 ≤ stageBytes → MemOk s → Leads (.attest hs) s fun x => Counted s x .SEC_ATTEST_SEQ 0 1 ∧
        x.boot.revertedSince = false ∧ x.host.busy.get? p.slot = none ∧ x.cores = s.cores ∧
        (∀ j < r.1.length, cellGet x.mem (a + j) = BitVec.ofNat 8 (r.1.getD j 0)) ∧
        (∀ q, q < a ∨ a + r.1.length ≤ q → cellGet x.mem q = cellGet s.mem q))) ∧
    (∀ p, s.fwRunning = false → s.romPacket 0x520 = some p →
      let r := s.attestReport (bytesAt p.params 0 32)
      (s.flag .SEC_STATUS_IDENTITY = false → exec (.attest 64) s = Effect s (s.reply p .noIdentity)) ∧
      (s.flag .SEC_STATUS_IDENTITY = true → MemOk s → p.slot = 64 → Leads (.attest 64) s fun x => Counted s x .SEC_ATTEST_SEQ 0 1 ∧
        x.boot.revertedSince = false ∧ x.host.busy.get? 64 = none ∧ x.mem = s.mem ∧ x.cores = s.cores ∧
        (∀ j < r.1.length, cellGet x.win (0x8000 + j) = BitVec.ofNat 8 (r.1.getD j 0))))

/-- Live replacement stages, verifies, activates at a quiescent point, confirms or aborts, and reverts in time or by force. Out of
reset. FW_STAGE in IDLE or STAGED takes an image whose header passes to STAGED, names it and keeps its bytes; one refused
empties the intake, goes to IDLE and is counted; a wrong stage is answered with FW_STAGE_STATE. FW_VERIFY takes the staged
image to VERIFIED or drops it. FW_ACTIVATE of a verified image waits; BANK_SWITCH at a quiescent point in time runs the
candidate, keeps the image before it, asks for confirmation with a nonce and counts; QUIESCE_TIMEOUT gives it up. FW_CONFIRM
with the nonce ends the confirmation, with another value is refused; FW_ABORT drops a candidate or asks for a revert, as
CONFIRM_TIMEOUT does when the time is over. REVERT at a quiescent point, and FORCED_REVERT 10 ms after the request, run the
image before, set REVERTED and count it; the forced one ends every command in progress. BOOT_REVERTED_CLEAR clears REVERTED.
The nonce is a free value; which commands wait in which order is log 87. (R353, R356, R357, R358, R362, R363) -/
def Obligations.FirmwareIsReplacedConfirmedOrReverted : Prop :=
  ∀ (s : State) (hs : Nat), Awake s →
    let answered := fun (x : State) (p : Packet) (st : Status) => x.host.busy.get? p.slot = none ∧ Counted s x .HST_CNT_CMD_REPLIED 0 1 ∧
      x.reg .BOOT_STATE_LAST_STATUS = st.val % 2 ^ 16
    let same := fun (x : State) => x.boot = s.boot ∧ x.fwStage = s.fwStage ∧ x.mem = s.mem ∧ x.cores = s.cores
    let dropped := fun (x : State) => x.boot.intake = [] ∧ x.boot.cand = none ∧ x.fwStage = 0 ∧ x.boot.running = s.boot.running ∧
      x.reg .BOOT_FWSTAGED_VERSION = 0 ∧ x.mem = s.mem ∧ x.cores = s.cores
    let reverted := fun (x : State) => x.boot.running = some (s.boot.prev.getD {}) ∧ x.boot.prev = none ∧ x.boot.revertAt = none ∧
      x.boot.revertedSince = true ∧ x.fwStage = 0 ∧ x.reg .BOOT_FWSTAT_REVERTED = 1 ∧ Counted s x .BOOT_CNT_REVERTS 0 1 ∧
      (x.ctl.getD 0 {}).pc = (s.boot.prev.getD {}).entry0 ∧ (x.ctl.getD 1 {}).pc = (s.boot.prev.getD {}).entry1
    (∀ p, s.ordPacket hs 0x510 = some p →
      let off := pU32 p 0
      let n := pU32 p 4
      let a := s.reg .MEM_STAGE_BASE + off
      let img := s.rd a n
      let readable := s.stageDirty off n = false ∧ 4096 ≤ n ∧ off + n ≤ stageBytes ∧ inStack a n = true ∧
        (∀ w ∈ stackWords a n, w ∉ s.poison ∧ w ∉ s.ue ∧ w ∉ s.ce)
      let idle := s.switching = false ∧ s.fwStage < 2
      (¬ idle → Leads (.fwStage hs) s fun x => answered x p .fwStageState ∧ same x) ∧
      (idle → s.stageDirty off n = true → Leads (.fwStage hs) s fun x => answered x p .stageDirty ∧ dropped x) ∧
      (idle → readable → fwStep1 img = none → n = fwTotal img → s.fwStep26 img = none → Leads (.fwStage hs) s fun x =>
        answered x p .ok ∧ x.boot = { s.boot with intake := img, cand := none } ∧ x.fwStage = 1 ∧
        x.reg .BOOT_FWSTAGED_VERSION = leAt img 12 4 % 2 ^ 32 ∧ x.reg .BOOT_FWSTAGED_ID = leAt img 48 4 % 2 ^ 32 ∧
        x.mem = s.mem ∧ x.cores = s.cores) ∧
      (∀ e, idle → readable → fwStep1 img = some e → Leads (.fwStage hs) s fun x => answered x p e ∧ dropped x ∧
        Counted s x .BOOT_CNT_REFUSED 0 1) ∧
      (∀ e, idle → readable → fwStep1 img = none → n = fwTotal img → s.fwStep26 img = some e → Leads (.fwStage hs) s fun x =>
        answered x p e ∧ dropped x ∧ Counted s x .BOOT_CNT_REFUSED 0 1)) ∧
    (∀ p, s.ordPacket hs 0x511 = some p →
      let at1 := s.switching = false ∧ s.fwStage = 1
      let r := s.fwStep79 s.boot.intake (some (s.boot.running.getD {}).abi)
      (¬ at1 → Leads (.fwVerify hs) s fun x => answered x p .fwStageState ∧ same x) ∧
      (∀ e, at1 → r = .error e → Leads (.fwVerify hs) s fun x => answered x p e ∧ dropped x ∧ Counted s x .BOOT_CNT_REFUSED 0 1 ∧
        Counted s x .SEC_CNT_FAILED 0 1) ∧
      (∀ f, at1 → r = .ok f → Leads (.fwVerify hs) s fun x => answered x p .ok ∧ x.boot = { s.boot with cand := some f } ∧
        x.fwStage = 2 ∧ Counted s x .SEC_CNT_VERIFIED 0 1 ∧ x.mem = s.mem ∧ x.cores = s.cores)) ∧
    (∀ p, s.ordPacket hs 0x512 = some p →
      let at2 := s.switching = false ∧ s.fwStage = 2
      (¬ at2 → Leads (.fwActivate hs) s fun x => answered x p .fwStageState ∧ same x) ∧
      (at2 → Leads (.fwActivate hs) s fun x => x.boot = { s.boot with activating := some (s.cycle, p.slot) } ∧ x.regs = s.regs ∧
        x.host.cmdQ = s.host.cmdQ.filter (· != p.slot) ∧ x.host.busy = s.host.busy ∧ SameBytes s x)) ∧
    (∀ since slot, s.boot.activating = some (since, slot) →
      (∀ f, s.boot.cand = some f → s.quiescent = true → s.cycle ≤ since + s.quiesceMs * 1200000 → Leads .bankSwitch s fun x =>
        x.boot.running = some f ∧ x.boot.prev = s.boot.running ∧ x.boot.cand = none ∧ x.boot.intake = [] ∧ x.boot.activating = none ∧
        x.boot.activatedAt = some s.cycle ∧ x.fwStage = 3 ∧ x.reg .BOOT_FWSTAT_CONFIRM_NONCE = Config.freeValue s.freeIdx % 2 ^ 32 ∧
        x.reg .BOOT_FWVER_VERSION = f.version % 2 ^ 32 ∧ (x.ctl.getD 0 {}).pc = f.entry0 ∧ (x.ctl.getD 1 {}).pc = f.entry1 ∧
        Counted s x .BOOT_CNT_ACTIVATIONS 0 1 ∧ x.mem = s.mem ∧ x.cores = s.cores ∧
        ∀ p, s.host.busy.get? slot = some p → p.opcode % 4096 = 0x512 → x.host.busy.get? p.slot = none) ∧
      (s.quiescent = false ∨ since + s.quiesceMs * 1200000 < s.cycle → exec .bankSwitch s = .next s) ∧
      (since + s.quiesceMs * 1200000 ≤ s.cycle → Leads .quiesceTimeout s fun x => x.boot = { s.boot with activating := none } ∧
        x.fwStage = s.fwStage ∧ x.mem = s.mem ∧ x.cores = s.cores ∧
        ∀ p, s.host.busy.get? slot = some p → p.opcode % 4096 = 0x512 → answered x p .fwBusy) ∧
      (s.cycle < since + s.quiesceMs * 1200000 → exec .quiesceTimeout s = .next s)) ∧
    (∀ p, s.ordPacket hs 0x513 = some p →
      let at3 := s.switching = false ∧ s.fwStage = 3
      (¬ at3 → Leads (.fwConfirm hs) s fun x => answered x p .fwStageState ∧ same x) ∧
      (at3 → pU32 p 0 ≠ s.reg .BOOT_FWSTAT_CONFIRM_NONCE → Leads (.fwConfirm hs) s fun x => answered x p .confirmNonce ∧ same x) ∧
      (at3 → pU32 p 0 = s.reg .BOOT_FWSTAT_CONFIRM_NONCE → Leads (.fwConfirm hs) s fun x => answered x p .ok ∧ x.fwStage = 0 ∧
        x.boot = { s.boot with prev := none, activatedAt := none } ∧ x.reg .BOOT_FWSTAT_CONFIRM_NONCE = 0 ∧
        x.mem = s.mem ∧ x.cores = s.cores)) ∧
    (∀ p, s.ordPacket hs 0x514 = some p →
      (s.switching = true ∨ s.fwStage = 0 → Leads (.fwAbort hs) s fun x => answered x p .fwStageState ∧ same x) ∧
      (s.switching = false → s.fwStage = 1 ∨ s.fwStage = 2 → Leads (.fwAbort hs) s fun x => answered x p .ok ∧ dropped x) ∧
      (s.switching = false → s.fwStage = 3 → Leads (.fwAbort hs) s fun x => x.regs = s.regs ∧ SameBytes s x ∧
        x.boot = { s.boot with revertAt := some (s.cycle, p.slot) })) ∧
    (∀ c, s.boot.activatedAt = some c →
      (s.fwStage = 3 → s.boot.revertAt = none → c + s.confirmMs * 1200000 ≤ s.cycle →
        exec .confirmTimeout s = .next { s with boot := { s.boot with revertAt := some (s.cycle, 64) } }) ∧
      (s.cycle < c + s.confirmMs * 1200000 → exec .confirmTimeout s = .next s)) ∧
    (∀ since slot, s.boot.revertAt = some (since, slot) →
      (s.quiescent = true → Leads .revert s fun x => reverted x ∧ x.mem = s.mem ∧ x.cores = s.cores) ∧
      (s.quiescent = false → exec .revert s = .next s) ∧
      (since + 12000000 ≤ s.cycle → Leads .forcedRevert s fun x => reverted x ∧ (∀ m < 2, (x.ctl.getD m {}).mbox = []) ∧ x.mem = s.mem ∧
        (∀ e ∈ x.nets, e.2.loading = none) ∧ ((∀ e ∈ s.host.busy, e.2.slot = e.1) → x.host.busy = [])) ∧
      (s.cycle < since + 12000000 → exec .forcedRevert s = .next s)) ∧
    exec .bootRevertedClear s = .next (s.setReg .BOOT_FWSTAT_REVERTED 0 0)

/-- Mismatches, replays, corrected entries, drains, remaps, injections, signatures and lock-step have the effects of their rules.
Out of reset. SEQ_MISMATCH is counted: at a control core it halts the core and starts the drain, at a unit with an event it
posts, at one without it makes a suspect, for whom a decision starts. REPLAY_START takes the head request to a site idle with
leave, asks for leave, or ends the request with no site. REPLAY_COMPLETE of a run with its final token and one ELD_ACC post
decides row A, B or C by residue and value, counts it and issues the entry R380 gives; a fault of the site gives row G.
REPLAY_LIMIT ends the oldest request out of time. LATE_CORRECTED issues the only corrected entry of a slot whose verdict is
voided. DECIDE_TIMEOUT and INT_DRAIN start the drain with their cause, INT_REMAP stages a remap that passes its checks,
INT_INJECT arms failures of a unit the map has, refused for one it has not; what these three come to is told to core 0's
mailbox; SIGNATURE_WRITE stores the oldest signature in its ring. COMPARE holds the partner's entry, releases an equal
verdict, and captures a difference; LOCK_TIMEOUT diverges a stale entry; the re-arm clears VALID. What the rules leave to the
model is in log 29, 47, 59 to 63. (R23, R24, R368, R374, R377, R380, R381, R388, R392, R395, R397, R410) -/
def Obligations.FailuresAreReplayedDecidedAndCompared : Prop :=
  ∀ (s : State) (hs u : Nat) (k : Fin 8) (slot : Fin 16) (f : Frame), Awake s →
    let told := fun (x : State) (p : Packet) (st : Status) =>
      (∃ res, x.host.busy.get? p.slot = some { p with outcome := some (st.val, res) }) ∧
        (x.ctl.getD 0 {}).mbox = (s.ctl.getD 0 {}).mbox ++ [p.slot]
    let unused := fun (x : State) => x.flag .INT_STATE_DRAIN = false
    (Leads (.seqMismatch u false) s fun x => Counted s x .INT_CNT_SEQ_MISMATCH 0 1 ∧ x.mem = s.mem ∧
      (∀ m < 2, u = 0xFF00 + m → x.isFrozen m = true ∧ x.reg .INT_STATE_DRAIN = 1 ∧ (unused s → x.reg .INT_STATE_DRAIN_CAUSE = 3)) ∧
      (∀ e, u < 0xFF00 → s.eventAt u = some e → x.ints.suspects = s.ints.suspects ∧ x.freeIdx = s.freeIdx + 1 ∧
        ∃ p, x.fab.checkPosts = s.fab.checkPosts ++ [p] ∧ p.unit = u ∧ p.cls = 4 ∧ p.tag = e.1 ∧ p.slot = s.seqSlot u e.2.1 ∧
          p.cyc = s.cycle + 20 ∧ (p.injected = true ↔ 0 < s.ints.inject.getD (u, 4) 0)) ∧
      (u < 0xFF00 → s.eventAt u = none → x.ints.suspects.any (fun y => y.unit == u && y.block == false) = true ∧
        (s.ints.suspects.any (fun y => y.unit == u && y.block == false) = false → s.atIdleSpare u = false → unused s →
          s.flag .INT_STATE_DECIDING = false → x.reg .INT_STATE_DECIDING = 1 ∧
          x.ints.decideBy = some (s.cycle + max 1 (s.reg .INT_CTRL_DECIDE_MS) * 1200000)))) ∧
    (s.ints.queue = [] → exec .replayStart s = .next s) ∧
    (∀ q rest, s.ints.queue = q :: rest →
      let order := regionsFrom (replayRegion q)
      ((∀ r ∈ order, s.siteUsable r = false) → Leads .replayStart s fun x => x.ints.queue = rest ∧
        Counted s x .INT_CNT_ARB2_NO_REPLAY 0 1 ∧ SameBytes s x ∧
        ∃ c, x.ints.corrected = s.ints.corrected ++ [c] ∧ c.entry = s.defaultCorrected q ∧ c.slot = q.slot ∧ c.tag = q.tag) ∧
      (∀ r e, order.find? (fun r => s.siteIdle r && s.leaveGranted 2 (0x1000 + r)) = some r → s.epochHeld q.epoch = true →
        s.retFind q.slot q.tag q.epoch q.ingressTB = some e → (∀ w ∈ stackWords e.pos e.len, w ∉ s.poison ∧ w ∉ s.ue) →
        Leads .replayStart s fun x => x.ints.queue = rest ∧ x.ints.active = s.ints.active ++ [{ q with site := some r }] ∧
          x.reg .INT_REPLAY_QUEUED = rest.length % 2 ^ 5 ∧ SameBytes s x) ∧
      (∀ r, (∀ y ∈ order, s.siteIdle y = true → s.leaveGranted 2 (0x1000 + y) = false) → order.find? s.siteIdle = some r →
        (∀ g ∈ s.power.pending ++ s.power.granted, g.cls ≠ 2) →
        exec .replayStart s = .next (s.askLeave { cls := 2, req := 0x1000 + r, units := s.reg .INT_REPLAY_LEAVE, region := some r }))) ∧
    (∀ q (rr : ReplayResult), s.ints.active.find? (fun x => x.site == some k.val) = some q →
      (s.leaveGranted 2 (0x1000 + k.val) = false ∨ s.isFrozen (8 + k.val) = true → exec (.replayComplete k rr) s = .next s) ∧
      (s.leaveGranted 2 (0x1000 + k.val) = true → s.isFrozen (8 + k.val) = false → s.epochHeld q.epoch = true →
        (∀ bad : Fin 16, rr.fault = some bad → Leads (.replayComplete k rr) s fun x =>
          x.ints.suspects.any (fun y => y.unit == UnitAddr.mk k.val 16 bad.val && y.block == false) = true ∧
          (∀ y ∈ x.ints.active, y.site ≠ some k.val) ∧ Counted s x .INT_CNT_ARB2_NO_REPLAY 0 1 ∧ SameBytes s x) ∧
        (∀ n e p t rv wv, rr.fault = none → s.netFor q.slot (q.epoch % 256) = some n →
          s.retFind q.slot q.tag q.epoch q.ingressTB = some e → q.posts = [p] → q.overflow = false → p.cls = 1 →
          let w := s.soloRun q n (s.retTokens e)
          (s.replayTouchAll (s.replayLoads ((s.cfgOf (q.epoch % 256)).getD s.regs) n)).1 = false → Solo_badWords w = [] →
          w.s.soloFinal q n = some t → Solo_value w p = some (rv, wv) → Leads (.replayComplete k rr) s fun x =>
            let rowA := rv = p.resMain ∧ wv = p.wordMain
            let rowB := ¬ rowA ∧ rv = p.resPred
            (rowA → Counted s x .INT_CNT_ARB_MAIN 0 1 ∧ ∃ c ∈ x.ints.corrected, c.slot = q.slot ∧ c.tag = q.tag ∧
              c.entry = VEntry_bits { VEntry_of q.entry with late := true }) ∧
            (rowB → Counted s x .INT_CNT_ARB_REPLAY 0 1 ∧ ∃ c ∈ x.ints.corrected, c.slot = q.slot ∧ c.tag = q.tag ∧
              c.entry = s.replayedEntry q w t) ∧
            (¬ rowA → ¬ rowB → Counted s x .INT_CNT_ARB2_NONE 0 1 ∧ ∃ c ∈ x.ints.corrected, c.slot = q.slot ∧ c.tag = q.tag ∧
              c.entry = s.defaultCorrected q)))) ∧
    (let late := fun (q : Replay) => decide (q.validCyc + max 50 (s.reg .INT_CTRL_REPLAY_LIMIT) * 1200 ≤ s.cycle)
     ((∀ q ∈ s.ints.active ++ s.ints.queue, late q = false) → exec .replayLimit s = .next s) ∧
     (∀ q, (∀ y ∈ s.ints.active, late y = false) → s.ints.queue.find? late = some q → Leads .replayLimit s fun x =>
       x.ints.queue = removeFirst (· == q) s.ints.queue ∧ Counted s x .INT_CNT_ARB2_NO_REPLAY 0 1 ∧ SameBytes s x) ∧
     (∀ q r, s.ints.active.find? late = some q → q.site = some r → Leads .replayLimit s fun x => x.ints.queue = s.ints.queue ∧
       (∀ y ∈ x.ints.active, y.site ≠ some r) ∧ Counted s x .INT_CNT_ARB2_NO_REPLAY 0 1 ∧ SameBytes s x)) ∧
    ((∀ c ∈ s.ints.corrected, c.slot ≠ slot.val) → exec (.lateCorrected slot) s = .next s) ∧
    (∀ c, s.ints.corrected = [c] → c.slot = slot.val →
      (∀ e ∈ (s.unitV slot.val).events, ¬ (e.num = c.num ∧ e.markTB = c.markTB ∧ e.entry.isSome)) → Leads (.lateCorrected slot) s fun x =>
        x.ints.corrected = [] ∧ Counted s x .VRD_CNT_VOID_CORRECTED slot.val 1 ∧ SameBytes s x) ∧
    (∀ c, s.ints.decideBy = some c →
      (s.cycle < c ∨ s.flag .INT_STATE_DECIDING = false → exec .decideTimeout s = .next s) ∧
      (c ≤ s.cycle → s.flag .INT_STATE_DECIDING = true → unused s → Leads .decideTimeout s fun x => x.reg .INT_STATE_DRAIN = 1 ∧
        x.reg .INT_STATE_DRAIN_CAUSE = 2 ∧ x.reg .INT_STATE_DECIDING = 0 ∧ x.ints.drainFrom = some s.cycle)) ∧
    (∀ p, s.ordPacket hs 0x600 = some p → Leads (.intDrain hs) s fun x => x.reg .INT_STATE_DRAIN = 1 ∧ told x p .ok ∧
      (unused s → x.reg .INT_STATE_DRAIN_CAUSE = 1 ∧ x.ints.drainFrom = some s.cycle ∧ x.reg .INT_DRAIN_TB_TB = s.tb.tb % 2 ^ 64)) ∧
    (∀ p, s.loaderPacket hs 0x601 = some p →
      let r := pU8 p 0
      let c := pU8 p 1
      let free := s.ints.remap = none ∧ s.ints.spare.get? r = none ∧ bitAt (s.reg .INT_STATE_SPARE_BAD) r = false
      let shorts := s.placements.flatMap fun x => (s.step9 x.1 x.2 s.nextCfg (s.ints.spare.put r c)).shorts
      (¬ free → exec (.intRemap hs) s = Effect s (s.reply p .remapSpare)) ∧
      (∀ e, free → shortFail [] shorts = some e → exec (.intRemap hs) s = Effect s (s.reply p .remapShortfall (loadResult e 0 0 0))) ∧
      (free → shortFail [] shorts = none → s.remapSourceOk r c = false → exec (.intRemap hs) s = Effect s (s.reply p .remapSource)) ∧
      (free → shortFail [] shorts = none → s.remapSourceOk r c = true → Leads (.intRemap hs) s fun x =>
        (∃ y, x.ints.remap = some y ∧ y.region = r ∧ y.cluster = c) ∧ told x p .ok ∧ x.staged = s.staged ∧
        x.mem = s.mem ∧ x.cores = s.cores)) ∧
    (∀ p, s.ordPacket hs 0x602 = some p →
      (UnitAddr.legal (pU16 p 0) = false → exec (.intInject hs) s = Effect s (s.reply p .ownership)) ∧
      (UnitAddr.legal (pU16 p 0) = true → s.unitLive (pU16 p 0) = true → s.boot.devMode = false →
        exec (.intInject hs) s = Effect s (s.reply p .injectLive)) ∧
      (UnitAddr.legal (pU16 p 0) = true → s.unitLive (pU16 p 0) = false ∨ s.boot.devMode = true → Leads (.intInject hs) s fun x =>
        x.ints.inject.getD (pU16 p 0, pU8 p 2) 0 = pU8 p 3 ∧ told x p .ok ∧ x.mem = s.mem ∧ x.cores = s.cores ∧
        ∀ y, y ≠ (pU16 p 0, pU8 p 2) → x.ints.inject.getD y 0 = s.ints.inject.getD y 0)) ∧
    (∀ g rest, s.ints.sigs = g :: rest → MemOk s →
      let len := s.reg .INT_SIG_LEN
      let a := s.reg .INT_SIG_BASE + 256 * (s.reg .INT_SIGIDX_NEXT % len)
      (len = 0 → Leads .signatureWrite s fun x => x.ints.sigs = rest ∧ x.regs = s.regs ∧ SameBytes s x) ∧
      (0 < len → Leads .signatureWrite s fun x => x.ints.sigs = rest ∧ Counted s x .INT_SIGIDX_TOTAL 0 1 ∧
        x.reg .INT_SIGIDX_NEXT = (s.reg .INT_SIGIDX_NEXT % len + 1) % len % 2 ^ 32 ∧ x.cores = s.cores ∧
        (∀ j < 256, cellGet x.mem (a + j) = BitVec.ofNat 8 ((leBytes 2 g.bytes.length ++ g.bytes).getD j 0)) ∧
        (∀ q, q < a ∨ a + 256 ≤ q → cellGet x.mem q = cellGet s.mem q))) ∧
    (let head := leAt f.payload 0 8
     let w := leAt (bytesAt f.payload 8 16) 0 8
     let e := lockOf (bytesAt f.payload 8 16) s.cycle
     s.portUp slot.val = true → frameGood 6 f = true → s.seqNext slot.val 6 f = true →
      ((s.port slot.val).skipN = false ∨ f.fs = true) → s.reg .OPX_PCTRL_ROLE slot.val = 1 →
      s.reg .OPX_PSTAT_SAME_SYS slot.val = 0 → s.lockActive = true → s.reg .CHIP_LOCK_CTRL_PORT = slot.val → f.len = 3 →
      bits head 0 6 = 1 → bits head 6 2 = 0 → bits head 14 50 = 0 → bits w 36 2 = 1 → bits w 38 3 = 0 → bits w 42 22 = 0 →
      s.lockSlot e.slot = true → s.lock.partner = [] →
      (s.lock.mine = [] → Leads (.compare slot f) s fun x => x.lock.partner = [e] ∧ x.lock.mine = [] ∧ SameBytes s x) ∧
      (∀ a, s.lock.mine = [a] → a.kind = 1 → a.slot = e.slot → a.event = e.event → a.voided = false → e.voided = false →
        verdictExcluded a.value = false → verdictExcluded e.value = false → Leads (.compare slot f) s fun x =>
          x.lock.partner = [] ∧ x.lock.mine = [] ∧ Counted s x .CHIP_LOCK_CNT_COMPARED 0 1 ∧ SameBytes s x ∧
          (setBits a.value 22 1 0 = setBits e.value 22 1 0 → x.reg .CHIP_LOCK_CNT2_DIVERGED = s.reg .CHIP_LOCK_CNT2_DIVERGED) ∧
          (setBits a.value 22 1 0 ≠ setBits e.value 22 1 0 → Counted s x .CHIP_LOCK_CNT2_DIVERGED 0 1 ∧
            (s.reg .CHIP_LOCK_DIV0_VALID = 0 → x.reg .CHIP_LOCK_DIV0_VALID = 1 ∧ x.reg .CHIP_LOCK_DIV0_KIND = 1 ∧
              x.reg .CHIP_LOCK_DIV0_SLOT = e.slot ∧ x.reg .CHIP_LOCK_DIV1_LOCAL = a.value % 2 ^ 64 ∧
              x.reg .CHIP_LOCK_DIV2_PARTNER = e.value % 2 ^ 64)))) ∧
    (s.lock.mine = [] → s.lock.partner = [] → exec .lockTimeout s = .next s) ∧
    (∀ e, s.lock.mine = [e] → s.lock.partner = [] → e.cyc + 1200 * max 1 (s.reg .CHIP_LOCK_CTRL_TIMEOUT) ≤ s.cycle →
      Leads .lockTimeout s fun x => x.lock.mine = [] ∧ Counted s x .CHIP_LOCK_CNT2_MISSING 0 1 ∧
        Counted s x .CHIP_LOCK_CNT2_DIVERGED 0 1 ∧ (s.reg .CHIP_LOCK_DIV0_VALID = 0 → x.reg .CHIP_LOCK_DIV0_KIND = 3) ∧ SameBytes s x) ∧
    exec .chipLockDiv0Rearm s = .next (s.setReg .CHIP_LOCK_DIV0_VALID 0 0)

/-- Leave is asked for, granted within the budget and released; heat sets its level and drain; records reach their rings. Out of
reset. LEAVE_REQUEST makes the request its work needs and none otherwise. LEAVE_ROUND acts every 16 cycles with control core 1
not frozen: of the only request, made 8 cycles before, it grants what fits P - 496 - R - reserved - granted and the region's
cap (a restore draws on the reserve first), counts one that does not fit as blocked, and at heat level 2 passes by all but
restores. LEAVE_RELEASE gives back ended work's grant. THERMAL_SAMPLE takes the hottest valid reading, 125 with fewer than 8,
sets level, peak, counts, revokes at 2 all but restores and drains at 3; THM_RESUME ends the drain below 110 degrees, LV_QUERY
answers, THM_PEAK_CLEAR clears. Raising a record changes the collector and its merge count alone. LOG_WRITE every 16 cycles
stores the next record, alarms first, in its class's ring slot; SUMMARY enters the intake after 1 ms; LOG_ALARM and
LOG_ALARM_ACK never lower the count; LOG_MARK raises INFO. Level 3 staying and what an overwritten alarm counts follow log 90
and log 91; the layout of LV_QUERY's answer is the model's choice (log 31). (R415, R416, R421, R422, R423, R425, R426, R427,
R428, R433, R434, R436) -/
def Obligations.LeaveHeatAndLogsFollowTheirRules : Prop :=
  ∀ (s : State) (hs cls req work v : Nat) (region : Option Nat) (rs : List SensorReading), Awake s →
    (s.leaveWanted cls req region work = false → exec (.leaveRequest cls req region work) s = .next s) ∧
    (cls = 1 → region = some (UnitAddr.region req) → s.leaveCount 1 req < s.restoresOf req → exec (.leaveRequest cls req region work) s =
      .next (s.askLeave { cls := 1, req := req, units := 1, region := region, work := work })) ∧
    (cls = 5 → region = none → req = 0x4000 → s.reg .MEM_CTRL_SCRUB_EN = 1 → s.memS.scrubDue ≤ s.cycle → s.leaveCount 5 req = 0 →
      exec (.leaveRequest cls req region work) s =
        .next (s.askLeave { cls := 5, req := req, units := max 1 (s.reg .LV_SIZE_SCRUB), region := none, work := work })) ∧
    (s.cycle % 16 ≠ 0 ∨ s.isFrozen 1 = true → exec .leaveRound s = .next s) ∧
    (∀ q, s.cycle % 16 = 0 → s.isFrozen 1 = false → s.power.pending = [q] →
      let free : Int := ((min 1400 (max 560 (s.reg .LV_PLIMIT_UNITS)) : Nat) : Int) - 496
        - ((min 64 (max 1 (s.reg .LV_RESERVE_RESTORE)) : Nat) : Int) - s.leaveReserved - s.grantedWhere (fun g => !g.reserve)
      let fits := (q.units : Int) ≤ free ∧ ∀ r, q.region = some r → s.leaveHeld r + q.units ≤ min 160 (s.reg .LV_RGN_CAP_CAP r)
      let granted := fun (g : Leave) => Leads .leaveRound s fun x => x.power.pending = [] ∧
        x.power.granted = s.power.granted ++ [{ g with cyc := s.cycle + 8 }] ∧ Counted s x .LV_CNT_GRANTS 0 1 ∧ SameBytes s x
      (s.cycle < q.cyc + 8 → exec .leaveRound s = .next s) ∧
      (q.cyc + 8 ≤ s.cycle → 2 ≤ s.reg .THM_STATUS_LEVEL → q.cls ≠ 1 → exec .leaveRound s = .next s) ∧
      (q.cyc + 8 ≤ s.cycle → s.reg .THM_STATUS_LEVEL < 2 → q.cls ≠ 1 → fits → granted q) ∧
      (q.cyc + 8 ≤ s.cycle → q.cls = 1 → s.grantedWhere (·.reserve) + q.units ≤ min 64 (max 1 (s.reg .LV_RESERVE_RESTORE)) →
        granted { q with reserve := true }) ∧
      (q.cyc + 8 ≤ s.cycle → s.reg .THM_STATUS_LEVEL < 2 → q.cls ≠ 1 → ¬ fits →
        exec .leaveRound s = .next (s.bump .LV_CNT2_BLOCKED))) ∧
    (s.workEnded cls req = false → exec (.leaveRelease cls req) s = .next s) ∧
    (s.workEnded cls req = true → Leads (.leaveRelease cls req) s fun x => SameBytes s x ∧
      x.power = { s.power with granted := removeFirst (fun g => g.cls == cls && g.req == req) s.power.granted }) ∧
    (rs.length = 16 → (∀ y ∈ rs, ∀ d, y = some d → -128 ≤ d ∧ d ≤ 127) → Leads (.thermalSample rs) s fun x =>
      let old := s.reg .THM_STATUS_LEVEL
      let new := x.reg .THM_STATUS_LEVEL
      let tj := sx 8 (x.reg .THM_STATUS_TJ)
      x.mem = s.mem ∧ ((rs.filter (·.isSome)).length < 8 → tj = 125) ∧
      (8 ≤ (rs.filter (·.isSome)).length → some tj ∈ rs ∧ ∀ d, some d ∈ rs → d ≤ tj) ∧
      (∀ n d, rs[n]? = some (some d) → x.reg .THM_SENS_DEG n = ux 8 d) ∧
      new = (if old = 3 ∨ 125 ≤ tj then 3 else if 115 ≤ tj ∨ (old = 2 ∧ 110 ≤ tj) then 2
        else if 105 ≤ tj ∨ (1 ≤ old ∧ 100 ≤ tj) then 1 else 0) ∧
      (sx 8 (s.reg .THM_PEAK_TJ) < tj → sx 8 (x.reg .THM_PEAK_TJ) = tj) ∧ (old = 0 → 1 ≤ new → Counted s x .THM_CNT_WARN 0 1) ∧
      (old < 2 → 2 ≤ new → Counted s x .THM_CNT_REVOKE 0 1 ∧ ∀ g ∈ x.power.granted, g.cls = 1) ∧
      (old < 3 → new = 3 → x.reg .THM_STATUS_DRAIN = 1 ∧ Counted s x .THM_CNT_DRAIN 0 1 ∧ x.reg .THM_DRAIN_TB_TB = s.tb.tb % 2 ^ 64) ∧
      (new < 3 → x.reg .THM_STATUS_DRAIN = s.reg .THM_STATUS_DRAIN)) ∧
    (∀ p, s.ordPacket hs 0x700 = some p →
      (s.flag .THM_STATUS_DRAIN = false → exec (.thmResume hs) s = Effect s (s.reply p .thmNoDrain)) ∧
      (s.flag .THM_STATUS_DRAIN = true → 110 ≤ sx 8 (s.reg .THM_STATUS_TJ) → exec (.thmResume hs) s = Effect s (s.reply p .thmHot)) ∧
      (s.flag .THM_STATUS_DRAIN = true → sx 8 (s.reg .THM_STATUS_TJ) < 110 → Leads (.thmResume hs) s fun x =>
        x.reg .THM_STATUS_DRAIN = 0 ∧ x.reg .THM_STATUS_LEVEL = (if 100 ≤ sx 8 (s.reg .THM_STATUS_TJ) then 1 else 0) ∧
        x.host.busy.get? p.slot = none ∧ x.mem = s.mem ∧ x.cores = s.cores)) ∧
    (∀ p, s.ordPacket hs 0x701 = some p → exec (.lvQuery hs) s = Effect s (s.reply p .ok (leBytes 2 (s.freeLeaveIn s.regs).toNat ++
      leBytes 2 s.leaveReserved ++ leBytes 2 (s.grantedWhere fun _ => true) ++ [s.reg .THM_STATUS_LEVEL]))) ∧
    exec .thmPeakClear s = .next (s.setReg .THM_PEAK_TJ 0 0) ∧
    (∀ (src : Src) (code unit : Nat) (args : List Nat),
      let x := s.raise cls src code unit args
      x = { s with logs := x.logs, regs := x.regs } ∧ ∀ r k, r ≠ .LOG_CNT2_MERGED → x.reg r k = s.reg r k) ∧
    (s.cycle % 16 ≠ 0 ∨ (s.logs.alarm = [] ∧ s.logs.intake = []) → exec .logWrite s = .next s) ∧
    (∀ r rest, s.cycle % 16 = 0 → s.logs.alarm = r :: rest ∨ (s.logs.alarm = [] ∧ s.logs.intake = r :: rest) → MemOk s →
      let t := s.logs.total.getD r.cls 0
      let a := ringBase r.cls + 64 * (t % ringLen r.cls)
      Leads .logWrite s fun x => Counted s x .LOG_CNT_WRITTEN 0 1 ∧ x.logs.total.getD r.cls 0 = t + 1 ∧
        x.logs.seq = (s.logs.seq + 1) % 2 ^ 32 ∧ x.mem = s.mem ∧ x.cores = s.cores ∧
        (s.logs.alarm = r :: rest → x.logs.alarm = rest ∧ x.logs.intake = s.logs.intake) ∧
        (s.logs.alarm = [] → x.logs.alarm = [] ∧ x.logs.intake = rest) ∧
        (∀ j < 64, cellGet x.win (a + j) = BitVec.ofNat 8 ((logBytes r s.logs.seq).getD j 0)) ∧
        (∀ q, q < a ∨ a + 64 ≤ q → cellGet x.win q = cellGet s.win q) ∧
        (s.logs.total.getD 0 0 < 256 → x.logs.alarmLost = s.logs.alarmLost)) ∧
    (∀ w, s.logs.unreported.get? cls = some w →
      (s.logs.intake.length < 60 → w.since + 1200000 ≤ s.cycle → Leads (.summary cls) s fun x =>
        x.logs.intake = s.logs.intake ++ [logSummaryRec cls w s.cycle s.epoch] ∧ x.logs.unreported.get? cls = none ∧
        x.regs = s.regs ∧ SameBytes s x) ∧
      (60 ≤ s.logs.intake.length ∨ s.cycle < w.since + 1200000 → exec (.summary cls) s = .next s)) ∧
    (s.logs.unreported.get? cls = none → exec (.summary cls) s = .next s) ∧
    (let n := min v (s.logs.total.getD 0 0)
     (n < s.reg .LOG_ALARM_ACK → exec (.logAlarm v) s = .next s) ∧
     (s.reg .LOG_ALARM_ACK ≤ n → exec (.logAlarm v) s = .next (s.setReg .LOG_ALARM_ACK 0 n))) ∧
    (∀ p, s.ordPacket hs 0x800 = some p →
      let n := min (pU64 p 0) (s.logs.total.getD 0 0)
      Leads (.logAlarmAck hs) s fun x => x.host.busy.get? p.slot = none ∧ x.mem = s.mem ∧ x.cores = s.cores ∧
        x.reg .LOG_ALARM_ACK = if n < s.reg .LOG_ALARM_ACK then s.reg .LOG_ALARM_ACK else n % 2 ^ 64) ∧
    (∀ p, s.ordPacket hs 0x801 = some p → s.logs.intake = [] → Leads (.logMark hs) s fun x =>
      x.host.busy.get? p.slot = none ∧ x.mem = s.mem ∧ x.cores = s.cores ∧
      ∃ r ∈ x.logs.intake, r.cls = clsInfo ∧ r.code = 0x1E ∧ r.args = (List.range 5).map fun k => pU64 p (8 * k) % 2 ^ 64)

/-- Every monitor command is counted and answered with its words and status; PEEK, POKE, BAUD, THAW and SERIAL boot have their
effect. Out of reset. Every monitor command is counted and gets one answer: data words and a status. ID gives the identity
block; BAUD a legal rate in force after the reply, else SYNTAX, and BAUD_TIMEOUT goes back after 5 s. PEEK needs an aligned
address and 1 to 256 words; in production mode a register word of a block reads as the host reads it and memory is out of
range; in development mode scratch reads. POKE is for development mode, needs an aligned address, writes memory bytes under
the mask and no others, refuses addresses out of range and read-only fields, and writes registers as REG_WRITE does. LOG and
FAULTS give the newest records, FROZEN the frozen masters, INSPECT a frozen master's state (a region manager's sequencer
counter as a free value, log 12), THAW frees one. HELPER, ENROL, DEVKEY (development mode only) and IMAGE are for a SERIAL
boot in its state, with the CRC right: they do as their boot commands, and a verified image starts. The form of the answers is
the model's choice (log 93, log 96), which addresses are reached log 92. (R355, R440, R441, R442, R443, R444) -/
def Obligations.TheMonitorAnswersItsCommands : Prop :=
  ∀ (s : State) (a n mask v crc : Nat) (bs : List Nat), Awake s →
    let answers := fun (c : Instr) (st : Status) (data : List Nat) (P : State → Prop) => Leads c s fun x =>
      x.out = .monitor data st.val :: s.out ∧ Counted s x .LOG_CNT2_MON_CMDS 0 1 ∧ P x
    let same := fun (x : State) => SameBytes s x ∧ x.frozen = s.frozen ∧ x.boot = s.boot ∧ x.staged = s.staged
    answers .id .ok (dqWords (bytesAt s.identityBlock 0 128)) same ∧
    (∀ k, baudRates[k]? = some n → answers (.baud n) .ok [] fun x => same x ∧ x.reg .LOG_MON_BAUD = k ∧ x.logs.baudSince = some s.cycle) ∧
    (n ∉ baudRates → answers (.baud n) .monSyntax [] fun x => same x ∧ x.reg .LOG_MON_BAUD = s.reg .LOG_MON_BAUD) ∧
    (∀ c, s.logs.baudSince = some c →
      (c + 6000000000 ≤ s.cycle → Leads .baudTimeout s fun x => x.reg .LOG_MON_BAUD = 0 ∧ x.logs.baudSince = none ∧ same x) ∧
      (s.cycle < c + 6000000000 → exec .baudTimeout s = .next s)) ∧
    (a % 8 ≠ 0 ∨ n = 0 ∨ 256 < n → answers (.peek a n) .monSyntax [] same) ∧
    (a % 8 = 0 →
      (s.boot.devMode = false → 0x20000000 ≤ a → addrKind a = .block → monReg a = true → answers (.peek a 1) .ok [s.wordLive a] same) ∧
      (s.boot.devMode = false → 0x20000000 ≤ a → addrKind a = .stack → answers (.peek a 1) .monRange [] same) ∧
      (∀ u off, s.boot.devMode = true → addrKind a = .unit u off → off < 0x14000 → UnitAddr.isFawn u = true →
        answers (.peek a 1) .ok [s.rdLe a 8] same)) ∧
    (s.boot.devMode = false → answers (.poke a mask v) .monDevOnly [] same) ∧
    (s.boot.devMode = true →
      (a % 8 ≠ 0 → answers (.poke a mask v) .monSyntax [] same) ∧
      (a % 8 = 0 → pokeMemory a = true → MemOk s → answers (.poke a mask v) .ok [] fun x => x.cores = s.cores ∧ x.win = s.win ∧
        (∀ k < 8, bits mask (8 * k) 8 = 255 → cellGet x.mem (a + k) = BitVec.ofNat 8 (bits v (8 * k) 8)) ∧
        (∀ k < 8, bits mask (8 * k) 8 = 0 → cellGet x.mem (a + k) = cellGet s.mem (a + k)) ∧
        (∀ q, q < a ∨ a + 8 ≤ q → cellGet x.mem q = cellGet s.mem q)) ∧
      (a % 8 = 0 → pokeMemory a = false → monReg a = false → answers (.poke a mask v) .monRange [] same) ∧
      (a % 8 = 0 → pokeMemory a = false → monReg a = true → maskRo a mask = true → answers (.poke a mask v) .regRo [] fun x =>
        same x ∧ Counted s x .HST_CNT_ACCESS_WRITE_RO 0 1) ∧
      (a % 8 = 0 → pokeMemory a = false → monReg a = true → maskRo a mask = false →
        exec (.poke a mask v) s = Effect s (((s.writeReg a mask v).poked a mask).monAnswer .ok))) ∧
    (4 < a ∨ n = 0 ∨ 256 < n → answers (.log a n) .monSyntax [] same) ∧
    (a ≤ 4 → 1 ≤ n → n ≤ 256 → answers (.log a n) .ok (s.newestRecords a n) same) ∧
    answers .faults .ok (s.newestRecords 1 256) same ∧
    answers .frozen .ok s.frozenList same ∧
    ((∀ e, inspectTarget v = .error e → answers (.inspect v) e [] same) ∧
     (∀ m, inspectTarget v = .ok m →
      (s.frozen.find? (·.master == m) = none → answers (.inspect v) .notFrozen [] same) ∧
      (∀ f, s.frozen.find? (·.master == m) = some f → isManager m = false → answers (.inspect v) .ok (s.inspectData f) same) ∧
      (∀ f, s.frozen.find? (·.master == m) = some f → isManager m = true →
        answers (.inspect v) .ok [Config.freeValue s.freeIdx % 2 ^ 32, s.managerServes] same))) ∧
    ((∀ e, thawTarget v = .error e → answers (.monThaw v) e [] same) ∧
     (∀ m, thawTarget v = .ok m →
      (s.isFrozen m = false → answers (.monThaw v) .notFrozen [] same) ∧
      (s.isFrozen m = true → answers (.monThaw v) .ok [] fun x => x.isFrozen m = false ∧ x.mem = s.mem ∧
        ∀ k, k ≠ m → x.isFrozen k = s.isFrozen k))) ∧
    (let id := s.boot.bootSrc ≠ 0 ∧ s.waitsIdentity = true
     (¬ id → answers (.helper bs crc) .monState [] same ∧ answers .enrol .monState [] same) ∧
     (id → crc32c bs ≠ crc → answers (.helper bs crc) .monCrc [] same) ∧
     (id → crc32c bs = crc → answers (.helper bs crc) (s.helperWith bs).1 [] fun x => SameBytes s x ∧
       x.boot.seed = (s.helperWith bs).2.boot.seed ∧ x.reg .BOOT_STATE_STATE = (s.helperWith bs).2.reg .BOOT_STATE_STATE ∧
       x.reg .BOOT_STATE_LAST_STATUS = (s.helperWith bs).1.val % 2 ^ 16) ∧
     (id → answers .enrol .ok (helperBytes (Config.pufSeed s.freeIdx)) fun x => x.boot.seed = Config.pufSeed s.freeIdx ∧
       x.reg .BOOT_STATE_STATE = 2 ∧ x.reg .SEC_STATUS_IDENTITY = 1 ∧ x.mem = s.mem ∧ x.cores = s.cores)) ∧
    (let ready := s.boot.bootSrc ≠ 0 ∧ s.reg .BOOT_STATE_STATE = 2
     (¬ ready → answers (.devkey bs crc) .monState [] same) ∧
     (ready → s.boot.devMode = false → answers (.devkey bs crc) .monDevOnly [] same) ∧
     (ready → s.boot.devMode = true → crc32c bs ≠ crc → answers (.devkey bs crc) .monCrc [] same) ∧
     (ready → s.boot.devMode = true → crc32c bs = crc → answers (.devkey bs crc) .ok [] fun x => SameBytes s x ∧
       x.boot = { s.boot with devKey := bs } ∧ x.reg .SEC_STATUS_DEV_KEY = 1) ∧
     (¬ ready → answers (.image n bs crc) .monState [] same) ∧
     (ready → n < 4096 → answers (.image n bs crc) .fwFormat [] fun x => x.boot.intake = [] ∧ Counted s x .BOOT_CNT_REFUSED 0 1 ∧
       SameBytes s x) ∧
     (∀ f, ready → 4096 ≤ n → fwStep1 bs = none → s.fwStep26 bs = none → n = fwTotal bs →
       (crc32c bs ≠ crc → answers (.image n bs crc) .monCrc [] same) ∧
       (crc32c bs = crc → s.fwStep79 bs none = .ok f → answers (.image n bs crc) .ok [] fun x => x.reg .BOOT_STATE_STATE = 5 ∧
         x.boot.running = some f ∧ (x.ctl.getD 0 {}).pc = f.entry0 ∧ (x.ctl.getD 1 {}).pc = f.entry1)))

/-- A step runs the command at the front of the queue with the queue's rest; with none waiting an FCLK cycle passes. For every
state and command c: if c stands at the front of the queue, the step is what exec answers for c on the state whose queue is
the rest; if no command waits, the step answers the state one FCLK cycle on. That commands queue and that an empty queue lets
a cycle pass are the model's own choices (log 1, log 2). (R10, R13) -/
def Obligations.StepRunsTheFrontCommand : Prop :=
  ∀ (s : State) (c : Instr) (rest : List Instr),
    (s.pending = c :: rest → step s = exec c { s with pending := rest }) ∧
    (s.pending = [] → step s = .next (tick s) ∧ (tick s).cycle = s.cycle + 1 ∧ (tick s).pending = [] ∧ (tick s).phase = s.phase)

/-- Every command completes, only the six reset commands touch time and reset, and a legal state stays legal at every step. From
every state, each command answers a next state; unless it is one of the six reset commands, that state has the cycle, the
queue, the stepping, the straps and the reset phase of the state it found. A state is legal when its stepping is A2 or B0, its
BOOT_SRC strap is a two-bit value, every waiting command is well-formed, and, while the device is in internal reset, no
register but at its reset value, no memory, no core, no network, no frozen unit and no staged write is held. Every step from a
legal state goes on to a legal state. That a held device keeps only the model's own fields is log 6. (R2, R13, R346, R452,
R454, R459, R460) -/
def Obligations.EveryStepGoesOnFromALegalState : Prop :=
  ∀ (s : State) (i : Instr),
    let straps := fun (x : State) => (x.boot.bootSrc, x.boot.devMode)
    let legal := fun (x : State) => (x.stepping = 0xA2 ∨ x.stepping = 0xB0) ∧ x.boot.bootSrc < 4 ∧ (∀ c ∈ x.pending, c.wf = true) ∧
      (x.phase ≠ .running → x.regs = [] ∧ x.staged = [] ∧ x.mem = [] ∧ x.win = [] ∧ x.cores = [] ∧ x.nets = [] ∧ x.jobs = [] ∧
        x.frozen = [] ∧ x.keys = [])
    let resets := i = .resetAssert ∨ (∃ b d, i = .resetRelease b d) ∨ i = .undervoltage ∨ i = .thermalTrip ∨ i = .junctionCold ∨
      i = .tripRelease
    (∃ t, exec i s = .next t ∧ (¬ resets → t.cycle = s.cycle ∧ t.pending = s.pending ∧ t.stepping = s.stepping ∧ straps t = straps s ∧
      t.phase = s.phase)) ∧
    Goes s ∧ (∀ t, legal s → step s = .next t → legal t)

/-- Every step keeps both byte stores in their canonical form, so that equal contents are equal data. For every state whose
internal memory and host window list their bytes at strictly rising addresses with no zero byte, and every step from it, the
next state's internal memory and host window do so too. That an unlisted byte reads as zero is the model's choice (log 10).
(R322, R327) -/
def Obligations.EveryStepKeepsTheMemoryForm : Prop :=
  ∀ (s t : State), MemOk s → step s = .next t → MemOk t

/-- The state after reset: cycle 0, nothing staged or placed, both byte stores in form, every field at its reset value.
State.reset is out of internal reset at cycle 0 with an empty queue, both byte stores empty and in their canonical form, no
staged write, network, job, key, core or frozen unit. Every register field reads its reset value, among them STATE = ROM,
EPOCH 0, TB_INC 0xD555_5555_5555, CONFIRM_MS 5,000, QUIESCE_MS 100, DECIDE_MS and REPLAY_LIMIT 1,000, PLIMIT 1,400, RESERVE
16, region caps 144 and BAUD 0. Stepping B0, the straps HOST and PRODUCTION and zero where the tables give no value are the
model's choices (log 7, log 8). (R2, R6, R32, R347, R362, R398, R415, R429, R440) -/
def Obligations.ResetLeavesItsStatedValues : Prop :=
  let s := State.reset
  Awake s ∧ s.cycle = 0 ∧ s.pending = [] ∧ MemOk s ∧ s.mem = [] ∧ s.win = [] ∧ s.staged = [] ∧ s.nets = [] ∧ s.jobs = [] ∧
    s.keys = [] ∧ s.cores = [] ∧ s.frozen = [] ∧ s.commit = .idle ∧ s.stepping = 0xB0 ∧ s.boot.bootSrc = 0 ∧ s.boot.devMode = false ∧
    (∀ r i, s.reg r i = s.resetVal r i) ∧ s.reg .BOOT_STATE_STATE = 1 ∧ s.epoch = 0 ∧ s.reg .TB_INC_INC = 0xD55555555555 ∧
    s.reg .BOOT_FWCTL_CONFIRM_MS = 5000 ∧ s.reg .BOOT_FWCTL_QUIESCE_MS = 100 ∧ s.reg .INT_CTRL_DECIDE_MS = 1000 ∧
    s.reg .INT_CTRL_REPLAY_LIMIT = 1000 ∧ s.reg .LV_PLIMIT_UNITS = 1400 ∧ s.reg .LV_RESERVE_RESTORE = 16 ∧
    (∀ r, s.reg .LV_RGN_CAP_CAP r = 144) ∧ s.reg .LOG_MON_BAUD = 0 ∧ (∀ p, s.portSt p = 0)
end

