-- ==== Sys2Proof/Laws/State.lean ====
section
/-! SUPPORT. What each named update leaves unchanged and what it writes, field by field, so that no proof unfolds a record
update. -/
namespace Sys2Proof.Machine
open Sys2Proof
variable (s t : State)

/-! `setReg` -/
@[simp] theorem State.setReg_cycle (r : Reg) (i v : Nat) : (s.setReg r i v).cycle = s.cycle := rfl
@[simp] theorem State.setReg_pending (r : Reg) (i v : Nat) : (s.setReg r i v).pending = s.pending := rfl
@[simp] theorem State.setReg_out (r : Reg) (i v : Nat) : (s.setReg r i v).out = s.out := rfl
@[simp] theorem State.setReg_freeIdx (r : Reg) (i v : Nat) : (s.setReg r i v).freeIdx = s.freeIdx := rfl
@[simp] theorem State.setReg_stepping (r : Reg) (i v : Nat) : (s.setReg r i v).stepping = s.stepping := rfl
@[simp] theorem State.setReg_regs (r : Reg) (i v : Nat) : (s.setReg r i v).regs = s.regs.put (r, i) (v % 2 ^ r.width) := rfl
@[simp] theorem State.setReg_staged (r : Reg) (i v : Nat) : (s.setReg r i v).staged = s.staged := rfl
@[simp] theorem State.setReg_cfgOld (r : Reg) (i v : Nat) : (s.setReg r i v).cfgOld = s.cfgOld := rfl
@[simp] theorem State.setReg_oldUntil (r : Reg) (i v : Nat) : (s.setReg r i v).oldUntil = s.oldUntil := rfl
@[simp] theorem State.setReg_commit (r : Reg) (i v : Nat) : (s.setReg r i v).commit = s.commit := rfl
@[simp] theorem State.setReg_fab (r : Reg) (i v : Nat) : (s.setReg r i v).fab = s.fab := rfl
@[simp] theorem State.setReg_eland (r : Reg) (i v : Nat) : (s.setReg r i v).eland = s.eland := rfl
@[simp] theorem State.setReg_cores (r : Reg) (i v : Nat) : (s.setReg r i v).cores = s.cores := rfl
@[simp] theorem State.setReg_cond (r : Reg) (i v : Nat) : (s.setReg r i v).cond = s.cond := rfl
@[simp] theorem State.setReg_dsk (r : Reg) (i v : Nat) : (s.setReg r i v).dsk = s.dsk := rfl
@[simp] theorem State.setReg_vrd (r : Reg) (i v : Nat) : (s.setReg r i v).vrd = s.vrd := rfl
@[simp] theorem State.setReg_nets (r : Reg) (i v : Nat) : (s.setReg r i v).nets = s.nets := rfl
@[simp] theorem State.setReg_keys (r : Reg) (i v : Nat) : (s.setReg r i v).keys = s.keys := rfl
@[simp] theorem State.setReg_samplers (r : Reg) (i v : Nat) : (s.setReg r i v).samplers = s.samplers := rfl
@[simp] theorem State.setReg_jobs (r : Reg) (i v : Nat) : (s.setReg r i v).jobs = s.jobs := rfl
@[simp] theorem State.setReg_spb (r : Reg) (i v : Nat) : (s.setReg r i v).spb = s.spb := rfl
@[simp] theorem State.setReg_memS (r : Reg) (i v : Nat) : (s.setReg r i v).memS = s.memS := rfl
@[simp] theorem State.setReg_mem (r : Reg) (i v : Nat) : (s.setReg r i v).mem = s.mem := rfl
@[simp] theorem State.setReg_win (r : Reg) (i v : Nat) : (s.setReg r i v).win = s.win := rfl
@[simp] theorem State.setReg_ue (r : Reg) (i v : Nat) : (s.setReg r i v).ue = s.ue := rfl
@[simp] theorem State.setReg_ce (r : Reg) (i v : Nat) : (s.setReg r i v).ce = s.ce := rfl
@[simp] theorem State.setReg_poison (r : Reg) (i v : Nat) : (s.setReg r i v).poison = s.poison := rfl
@[simp] theorem State.setReg_ints (r : Reg) (i v : Nat) : (s.setReg r i v).ints = s.ints := rfl
@[simp] theorem State.setReg_opx (r : Reg) (i v : Nat) : (s.setReg r i v).opx = s.opx := rfl
@[simp] theorem State.setReg_tb (r : Reg) (i v : Nat) : (s.setReg r i v).tb = s.tb := rfl
@[simp] theorem State.setReg_host (r : Reg) (i v : Nat) : (s.setReg r i v).host = s.host := rfl
@[simp] theorem State.setReg_boot (r : Reg) (i v : Nat) : (s.setReg r i v).boot = s.boot := rfl
@[simp] theorem State.setReg_lock (r : Reg) (i v : Nat) : (s.setReg r i v).lock = s.lock := rfl
@[simp] theorem State.setReg_power (r : Reg) (i v : Nat) : (s.setReg r i v).power = s.power := rfl
@[simp] theorem State.setReg_logs (r : Reg) (i v : Nat) : (s.setReg r i v).logs = s.logs := rfl
@[simp] theorem State.setReg_frozen (r : Reg) (i v : Nat) : (s.setReg r i v).frozen = s.frozen := rfl
@[simp] theorem State.setReg_ctl (r : Reg) (i v : Nat) : (s.setReg r i v).ctl = s.ctl := rfl
@[simp] theorem State.setReg_snap (r : Reg) (i v : Nat) : (s.setReg r i v).snap = s.snap := rfl
@[simp] theorem State.setReg_snapOther (r : Reg) (i v : Nat) : (s.setReg r i v).snapOther = s.snapOther := rfl
@[simp] theorem State.setReg_phase (r : Reg) (i v : Nat) : (s.setReg r i v).phase = s.phase := rfl

/-! `bump` -/
@[simp] theorem State.bump_cycle (r : Reg) (i n : Nat) : (s.bump r i n).cycle = s.cycle := rfl
@[simp] theorem State.bump_pending (r : Reg) (i n : Nat) : (s.bump r i n).pending = s.pending := rfl
@[simp] theorem State.bump_out (r : Reg) (i n : Nat) : (s.bump r i n).out = s.out := rfl
@[simp] theorem State.bump_freeIdx (r : Reg) (i n : Nat) : (s.bump r i n).freeIdx = s.freeIdx := rfl
@[simp] theorem State.bump_stepping (r : Reg) (i n : Nat) : (s.bump r i n).stepping = s.stepping := rfl
@[simp] theorem State.bump_regs (r : Reg) (i n : Nat) : (s.bump r i n).regs = s.regs.put (r, i) ((s.reg r i + n) % 2 ^ r.width) := rfl
@[simp] theorem State.bump_staged (r : Reg) (i n : Nat) : (s.bump r i n).staged = s.staged := rfl
@[simp] theorem State.bump_cfgOld (r : Reg) (i n : Nat) : (s.bump r i n).cfgOld = s.cfgOld := rfl
@[simp] theorem State.bump_oldUntil (r : Reg) (i n : Nat) : (s.bump r i n).oldUntil = s.oldUntil := rfl
@[simp] theorem State.bump_commit (r : Reg) (i n : Nat) : (s.bump r i n).commit = s.commit := rfl
@[simp] theorem State.bump_fab (r : Reg) (i n : Nat) : (s.bump r i n).fab = s.fab := rfl
@[simp] theorem State.bump_eland (r : Reg) (i n : Nat) : (s.bump r i n).eland = s.eland := rfl
@[simp] theorem State.bump_cores (r : Reg) (i n : Nat) : (s.bump r i n).cores = s.cores := rfl
@[simp] theorem State.bump_cond (r : Reg) (i n : Nat) : (s.bump r i n).cond = s.cond := rfl
@[simp] theorem State.bump_dsk (r : Reg) (i n : Nat) : (s.bump r i n).dsk = s.dsk := rfl
@[simp] theorem State.bump_vrd (r : Reg) (i n : Nat) : (s.bump r i n).vrd = s.vrd := rfl
@[simp] theorem State.bump_nets (r : Reg) (i n : Nat) : (s.bump r i n).nets = s.nets := rfl
@[simp] theorem State.bump_keys (r : Reg) (i n : Nat) : (s.bump r i n).keys = s.keys := rfl
@[simp] theorem State.bump_samplers (r : Reg) (i n : Nat) : (s.bump r i n).samplers = s.samplers := rfl
@[simp] theorem State.bump_jobs (r : Reg) (i n : Nat) : (s.bump r i n).jobs = s.jobs := rfl
@[simp] theorem State.bump_spb (r : Reg) (i n : Nat) : (s.bump r i n).spb = s.spb := rfl
@[simp] theorem State.bump_memS (r : Reg) (i n : Nat) : (s.bump r i n).memS = s.memS := rfl
@[simp] theorem State.bump_mem (r : Reg) (i n : Nat) : (s.bump r i n).mem = s.mem := rfl
@[simp] theorem State.bump_win (r : Reg) (i n : Nat) : (s.bump r i n).win = s.win := rfl
@[simp] theorem State.bump_ue (r : Reg) (i n : Nat) : (s.bump r i n).ue = s.ue := rfl
@[simp] theorem State.bump_ce (r : Reg) (i n : Nat) : (s.bump r i n).ce = s.ce := rfl
@[simp] theorem State.bump_poison (r : Reg) (i n : Nat) : (s.bump r i n).poison = s.poison := rfl
@[simp] theorem State.bump_ints (r : Reg) (i n : Nat) : (s.bump r i n).ints = s.ints := rfl
@[simp] theorem State.bump_opx (r : Reg) (i n : Nat) : (s.bump r i n).opx = s.opx := rfl
@[simp] theorem State.bump_tb (r : Reg) (i n : Nat) : (s.bump r i n).tb = s.tb := rfl
@[simp] theorem State.bump_host (r : Reg) (i n : Nat) : (s.bump r i n).host = s.host := rfl
@[simp] theorem State.bump_boot (r : Reg) (i n : Nat) : (s.bump r i n).boot = s.boot := rfl
@[simp] theorem State.bump_lock (r : Reg) (i n : Nat) : (s.bump r i n).lock = s.lock := rfl
@[simp] theorem State.bump_power (r : Reg) (i n : Nat) : (s.bump r i n).power = s.power := rfl
@[simp] theorem State.bump_logs (r : Reg) (i n : Nat) : (s.bump r i n).logs = s.logs := rfl
@[simp] theorem State.bump_frozen (r : Reg) (i n : Nat) : (s.bump r i n).frozen = s.frozen := rfl
@[simp] theorem State.bump_ctl (r : Reg) (i n : Nat) : (s.bump r i n).ctl = s.ctl := rfl
@[simp] theorem State.bump_snap (r : Reg) (i n : Nat) : (s.bump r i n).snap = s.snap := rfl
@[simp] theorem State.bump_snapOther (r : Reg) (i n : Nat) : (s.bump r i n).snapOther = s.snapOther := rfl
@[simp] theorem State.bump_phase (r : Reg) (i n : Nat) : (s.bump r i n).phase = s.phase := rfl

/-! `stageReg` -/
@[simp] theorem State.stageReg_cycle (r : Reg) (i v : Nat) : (s.stageReg r i v).cycle = s.cycle := rfl
@[simp] theorem State.stageReg_pending (r : Reg) (i v : Nat) : (s.stageReg r i v).pending = s.pending := rfl
@[simp] theorem State.stageReg_out (r : Reg) (i v : Nat) : (s.stageReg r i v).out = s.out := rfl
@[simp] theorem State.stageReg_freeIdx (r : Reg) (i v : Nat) : (s.stageReg r i v).freeIdx = s.freeIdx := rfl
@[simp] theorem State.stageReg_stepping (r : Reg) (i v : Nat) : (s.stageReg r i v).stepping = s.stepping := rfl
@[simp] theorem State.stageReg_regs (r : Reg) (i v : Nat) : (s.stageReg r i v).regs = s.regs := rfl
@[simp] theorem State.stageReg_staged (r : Reg) (i v : Nat) : (s.stageReg r i v).staged = s.staged.put (r, i) (v % 2 ^ r.width) := rfl
@[simp] theorem State.stageReg_cfgOld (r : Reg) (i v : Nat) : (s.stageReg r i v).cfgOld = s.cfgOld := rfl
@[simp] theorem State.stageReg_oldUntil (r : Reg) (i v : Nat) : (s.stageReg r i v).oldUntil = s.oldUntil := rfl
@[simp] theorem State.stageReg_commit (r : Reg) (i v : Nat) : (s.stageReg r i v).commit = s.commit := rfl
@[simp] theorem State.stageReg_fab (r : Reg) (i v : Nat) : (s.stageReg r i v).fab = s.fab := rfl
@[simp] theorem State.stageReg_eland (r : Reg) (i v : Nat) : (s.stageReg r i v).eland = s.eland := rfl
@[simp] theorem State.stageReg_cores (r : Reg) (i v : Nat) : (s.stageReg r i v).cores = s.cores := rfl
@[simp] theorem State.stageReg_cond (r : Reg) (i v : Nat) : (s.stageReg r i v).cond = s.cond := rfl
@[simp] theorem State.stageReg_dsk (r : Reg) (i v : Nat) : (s.stageReg r i v).dsk = s.dsk := rfl
@[simp] theorem State.stageReg_vrd (r : Reg) (i v : Nat) : (s.stageReg r i v).vrd = s.vrd := rfl
@[simp] theorem State.stageReg_nets (r : Reg) (i v : Nat) : (s.stageReg r i v).nets = s.nets := rfl
@[simp] theorem State.stageReg_keys (r : Reg) (i v : Nat) : (s.stageReg r i v).keys = s.keys := rfl
@[simp] theorem State.stageReg_samplers (r : Reg) (i v : Nat) : (s.stageReg r i v).samplers = s.samplers := rfl
@[simp] theorem State.stageReg_jobs (r : Reg) (i v : Nat) : (s.stageReg r i v).jobs = s.jobs := rfl
@[simp] theorem State.stageReg_spb (r : Reg) (i v : Nat) : (s.stageReg r i v).spb = s.spb := rfl
@[simp] theorem State.stageReg_memS (r : Reg) (i v : Nat) : (s.stageReg r i v).memS = s.memS := rfl
@[simp] theorem State.stageReg_mem (r : Reg) (i v : Nat) : (s.stageReg r i v).mem = s.mem := rfl
@[simp] theorem State.stageReg_win (r : Reg) (i v : Nat) : (s.stageReg r i v).win = s.win := rfl
@[simp] theorem State.stageReg_ue (r : Reg) (i v : Nat) : (s.stageReg r i v).ue = s.ue := rfl
@[simp] theorem State.stageReg_ce (r : Reg) (i v : Nat) : (s.stageReg r i v).ce = s.ce := rfl
@[simp] theorem State.stageReg_poison (r : Reg) (i v : Nat) : (s.stageReg r i v).poison = s.poison := rfl
@[simp] theorem State.stageReg_ints (r : Reg) (i v : Nat) : (s.stageReg r i v).ints = s.ints := rfl
@[simp] theorem State.stageReg_opx (r : Reg) (i v : Nat) : (s.stageReg r i v).opx = s.opx := rfl
@[simp] theorem State.stageReg_tb (r : Reg) (i v : Nat) : (s.stageReg r i v).tb = s.tb := rfl
@[simp] theorem State.stageReg_host (r : Reg) (i v : Nat) : (s.stageReg r i v).host = s.host := rfl
@[simp] theorem State.stageReg_boot (r : Reg) (i v : Nat) : (s.stageReg r i v).boot = s.boot := rfl
@[simp] theorem State.stageReg_lock (r : Reg) (i v : Nat) : (s.stageReg r i v).lock = s.lock := rfl
@[simp] theorem State.stageReg_power (r : Reg) (i v : Nat) : (s.stageReg r i v).power = s.power := rfl
@[simp] theorem State.stageReg_logs (r : Reg) (i v : Nat) : (s.stageReg r i v).logs = s.logs := rfl
@[simp] theorem State.stageReg_frozen (r : Reg) (i v : Nat) : (s.stageReg r i v).frozen = s.frozen := rfl
@[simp] theorem State.stageReg_ctl (r : Reg) (i v : Nat) : (s.stageReg r i v).ctl = s.ctl := rfl
@[simp] theorem State.stageReg_snap (r : Reg) (i v : Nat) : (s.stageReg r i v).snap = s.snap := rfl
@[simp] theorem State.stageReg_snapOther (r : Reg) (i v : Nat) : (s.stageReg r i v).snapOther = s.snapOther := rfl
@[simp] theorem State.stageReg_phase (r : Reg) (i v : Nat) : (s.stageReg r i v).phase = s.phase := rfl

/-! `wr` -/
@[simp] theorem State.wr_cycle (a : Nat) (bs : List Nat) : (s.wr a bs).cycle = s.cycle := rfl
@[simp] theorem State.wr_pending (a : Nat) (bs : List Nat) : (s.wr a bs).pending = s.pending := rfl
@[simp] theorem State.wr_out (a : Nat) (bs : List Nat) : (s.wr a bs).out = s.out := rfl
@[simp] theorem State.wr_freeIdx (a : Nat) (bs : List Nat) : (s.wr a bs).freeIdx = s.freeIdx := rfl
@[simp] theorem State.wr_stepping (a : Nat) (bs : List Nat) : (s.wr a bs).stepping = s.stepping := rfl
@[simp] theorem State.wr_regs (a : Nat) (bs : List Nat) : (s.wr a bs).regs = s.regs := rfl
@[simp] theorem State.wr_staged (a : Nat) (bs : List Nat) : (s.wr a bs).staged = s.staged := rfl
@[simp] theorem State.wr_cfgOld (a : Nat) (bs : List Nat) : (s.wr a bs).cfgOld = s.cfgOld := rfl
@[simp] theorem State.wr_oldUntil (a : Nat) (bs : List Nat) : (s.wr a bs).oldUntil = s.oldUntil := rfl
@[simp] theorem State.wr_commit (a : Nat) (bs : List Nat) : (s.wr a bs).commit = s.commit := rfl
@[simp] theorem State.wr_fab (a : Nat) (bs : List Nat) : (s.wr a bs).fab = s.fab := rfl
@[simp] theorem State.wr_eland (a : Nat) (bs : List Nat) : (s.wr a bs).eland = s.eland := rfl
@[simp] theorem State.wr_cores (a : Nat) (bs : List Nat) : (s.wr a bs).cores = s.cores := rfl
@[simp] theorem State.wr_cond (a : Nat) (bs : List Nat) : (s.wr a bs).cond = s.cond := rfl
@[simp] theorem State.wr_dsk (a : Nat) (bs : List Nat) : (s.wr a bs).dsk = s.dsk := rfl
@[simp] theorem State.wr_vrd (a : Nat) (bs : List Nat) : (s.wr a bs).vrd = s.vrd := rfl
@[simp] theorem State.wr_nets (a : Nat) (bs : List Nat) : (s.wr a bs).nets = s.nets := rfl
@[simp] theorem State.wr_keys (a : Nat) (bs : List Nat) : (s.wr a bs).keys = s.keys := rfl
@[simp] theorem State.wr_samplers (a : Nat) (bs : List Nat) : (s.wr a bs).samplers = s.samplers := rfl
@[simp] theorem State.wr_jobs (a : Nat) (bs : List Nat) : (s.wr a bs).jobs = s.jobs := rfl
@[simp] theorem State.wr_spb (a : Nat) (bs : List Nat) : (s.wr a bs).spb = s.spb := rfl
@[simp] theorem State.wr_memS (a : Nat) (bs : List Nat) : (s.wr a bs).memS = s.memS := rfl
@[simp] theorem State.wr_mem (a : Nat) (bs : List Nat) : (s.wr a bs).mem = cellsWrite s.mem a bs := rfl
@[simp] theorem State.wr_win (a : Nat) (bs : List Nat) : (s.wr a bs).win = s.win := rfl
@[simp] theorem State.wr_ue (a : Nat) (bs : List Nat) : (s.wr a bs).ue = s.ue := rfl
@[simp] theorem State.wr_ce (a : Nat) (bs : List Nat) : (s.wr a bs).ce = s.ce := rfl
@[simp] theorem State.wr_poison (a : Nat) (bs : List Nat) : (s.wr a bs).poison = s.poison := rfl
@[simp] theorem State.wr_ints (a : Nat) (bs : List Nat) : (s.wr a bs).ints = s.ints := rfl
@[simp] theorem State.wr_opx (a : Nat) (bs : List Nat) : (s.wr a bs).opx = s.opx := rfl
@[simp] theorem State.wr_tb (a : Nat) (bs : List Nat) : (s.wr a bs).tb = s.tb := rfl
@[simp] theorem State.wr_host (a : Nat) (bs : List Nat) : (s.wr a bs).host = s.host := rfl
@[simp] theorem State.wr_boot (a : Nat) (bs : List Nat) : (s.wr a bs).boot = s.boot := rfl
@[simp] theorem State.wr_lock (a : Nat) (bs : List Nat) : (s.wr a bs).lock = s.lock := rfl
@[simp] theorem State.wr_power (a : Nat) (bs : List Nat) : (s.wr a bs).power = s.power := rfl
@[simp] theorem State.wr_logs (a : Nat) (bs : List Nat) : (s.wr a bs).logs = s.logs := rfl
@[simp] theorem State.wr_frozen (a : Nat) (bs : List Nat) : (s.wr a bs).frozen = s.frozen := rfl
@[simp] theorem State.wr_ctl (a : Nat) (bs : List Nat) : (s.wr a bs).ctl = s.ctl := rfl
@[simp] theorem State.wr_snap (a : Nat) (bs : List Nat) : (s.wr a bs).snap = s.snap := rfl
@[simp] theorem State.wr_snapOther (a : Nat) (bs : List Nat) : (s.wr a bs).snapOther = s.snapOther := rfl
@[simp] theorem State.wr_phase (a : Nat) (bs : List Nat) : (s.wr a bs).phase = s.phase := rfl

/-! `winWr` -/
@[simp] theorem State.winWr_cycle (a : Nat) (bs : List Nat) : (s.winWr a bs).cycle = s.cycle := rfl
@[simp] theorem State.winWr_pending (a : Nat) (bs : List Nat) : (s.winWr a bs).pending = s.pending := rfl
@[simp] theorem State.winWr_out (a : Nat) (bs : List Nat) : (s.winWr a bs).out = s.out := rfl
@[simp] theorem State.winWr_freeIdx (a : Nat) (bs : List Nat) : (s.winWr a bs).freeIdx = s.freeIdx := rfl
@[simp] theorem State.winWr_stepping (a : Nat) (bs : List Nat) : (s.winWr a bs).stepping = s.stepping := rfl
@[simp] theorem State.winWr_regs (a : Nat) (bs : List Nat) : (s.winWr a bs).regs = s.regs := rfl
@[simp] theorem State.winWr_staged (a : Nat) (bs : List Nat) : (s.winWr a bs).staged = s.staged := rfl
@[simp] theorem State.winWr_cfgOld (a : Nat) (bs : List Nat) : (s.winWr a bs).cfgOld = s.cfgOld := rfl
@[simp] theorem State.winWr_oldUntil (a : Nat) (bs : List Nat) : (s.winWr a bs).oldUntil = s.oldUntil := rfl
@[simp] theorem State.winWr_commit (a : Nat) (bs : List Nat) : (s.winWr a bs).commit = s.commit := rfl
@[simp] theorem State.winWr_fab (a : Nat) (bs : List Nat) : (s.winWr a bs).fab = s.fab := rfl
@[simp] theorem State.winWr_eland (a : Nat) (bs : List Nat) : (s.winWr a bs).eland = s.eland := rfl
@[simp] theorem State.winWr_cores (a : Nat) (bs : List Nat) : (s.winWr a bs).cores = s.cores := rfl
@[simp] theorem State.winWr_cond (a : Nat) (bs : List Nat) : (s.winWr a bs).cond = s.cond := rfl
@[simp] theorem State.winWr_dsk (a : Nat) (bs : List Nat) : (s.winWr a bs).dsk = s.dsk := rfl
@[simp] theorem State.winWr_vrd (a : Nat) (bs : List Nat) : (s.winWr a bs).vrd = s.vrd := rfl
@[simp] theorem State.winWr_nets (a : Nat) (bs : List Nat) : (s.winWr a bs).nets = s.nets := rfl
@[simp] theorem State.winWr_keys (a : Nat) (bs : List Nat) : (s.winWr a bs).keys = s.keys := rfl
@[simp] theorem State.winWr_samplers (a : Nat) (bs : List Nat) : (s.winWr a bs).samplers = s.samplers := rfl
@[simp] theorem State.winWr_jobs (a : Nat) (bs : List Nat) : (s.winWr a bs).jobs = s.jobs := rfl
@[simp] theorem State.winWr_spb (a : Nat) (bs : List Nat) : (s.winWr a bs).spb = s.spb := rfl
@[simp] theorem State.winWr_memS (a : Nat) (bs : List Nat) : (s.winWr a bs).memS = s.memS := rfl
@[simp] theorem State.winWr_mem (a : Nat) (bs : List Nat) : (s.winWr a bs).mem = s.mem := rfl
@[simp] theorem State.winWr_win (a : Nat) (bs : List Nat) : (s.winWr a bs).win = cellsWrite s.win a bs := rfl
@[simp] theorem State.winWr_ue (a : Nat) (bs : List Nat) : (s.winWr a bs).ue = s.ue := rfl
@[simp] theorem State.winWr_ce (a : Nat) (bs : List Nat) : (s.winWr a bs).ce = s.ce := rfl
@[simp] theorem State.winWr_poison (a : Nat) (bs : List Nat) : (s.winWr a bs).poison = s.poison := rfl
@[simp] theorem State.winWr_ints (a : Nat) (bs : List Nat) : (s.winWr a bs).ints = s.ints := rfl
@[simp] theorem State.winWr_opx (a : Nat) (bs : List Nat) : (s.winWr a bs).opx = s.opx := rfl
@[simp] theorem State.winWr_tb (a : Nat) (bs : List Nat) : (s.winWr a bs).tb = s.tb := rfl
@[simp] theorem State.winWr_host (a : Nat) (bs : List Nat) : (s.winWr a bs).host = s.host := rfl
@[simp] theorem State.winWr_boot (a : Nat) (bs : List Nat) : (s.winWr a bs).boot = s.boot := rfl
@[simp] theorem State.winWr_lock (a : Nat) (bs : List Nat) : (s.winWr a bs).lock = s.lock := rfl
@[simp] theorem State.winWr_power (a : Nat) (bs : List Nat) : (s.winWr a bs).power = s.power := rfl
@[simp] theorem State.winWr_logs (a : Nat) (bs : List Nat) : (s.winWr a bs).logs = s.logs := rfl
@[simp] theorem State.winWr_frozen (a : Nat) (bs : List Nat) : (s.winWr a bs).frozen = s.frozen := rfl
@[simp] theorem State.winWr_ctl (a : Nat) (bs : List Nat) : (s.winWr a bs).ctl = s.ctl := rfl
@[simp] theorem State.winWr_snap (a : Nat) (bs : List Nat) : (s.winWr a bs).snap = s.snap := rfl
@[simp] theorem State.winWr_snapOther (a : Nat) (bs : List Nat) : (s.winWr a bs).snapOther = s.snapOther := rfl
@[simp] theorem State.winWr_phase (a : Nat) (bs : List Nat) : (s.winWr a bs).phase = s.phase := rfl

/-! `setCore` -/
@[simp] theorem State.setCore_cycle (u : Nat) (c : FawnCore) : (s.setCore u c).cycle = s.cycle := rfl
@[simp] theorem State.setCore_pending (u : Nat) (c : FawnCore) : (s.setCore u c).pending = s.pending := rfl
@[simp] theorem State.setCore_out (u : Nat) (c : FawnCore) : (s.setCore u c).out = s.out := rfl
@[simp] theorem State.setCore_freeIdx (u : Nat) (c : FawnCore) : (s.setCore u c).freeIdx = s.freeIdx := rfl
@[simp] theorem State.setCore_stepping (u : Nat) (c : FawnCore) : (s.setCore u c).stepping = s.stepping := rfl
@[simp] theorem State.setCore_regs (u : Nat) (c : FawnCore) : (s.setCore u c).regs = s.regs := rfl
@[simp] theorem State.setCore_staged (u : Nat) (c : FawnCore) : (s.setCore u c).staged = s.staged := rfl
@[simp] theorem State.setCore_cfgOld (u : Nat) (c : FawnCore) : (s.setCore u c).cfgOld = s.cfgOld := rfl
@[simp] theorem State.setCore_oldUntil (u : Nat) (c : FawnCore) : (s.setCore u c).oldUntil = s.oldUntil := rfl
@[simp] theorem State.setCore_commit (u : Nat) (c : FawnCore) : (s.setCore u c).commit = s.commit := rfl
@[simp] theorem State.setCore_fab (u : Nat) (c : FawnCore) : (s.setCore u c).fab = s.fab := rfl
@[simp] theorem State.setCore_eland (u : Nat) (c : FawnCore) : (s.setCore u c).eland = s.eland := rfl
@[simp] theorem State.setCore_cores (u : Nat) (c : FawnCore) : (s.setCore u c).cores = s.cores.put u c := rfl
@[simp] theorem State.setCore_cond (u : Nat) (c : FawnCore) : (s.setCore u c).cond = s.cond := rfl
@[simp] theorem State.setCore_dsk (u : Nat) (c : FawnCore) : (s.setCore u c).dsk = s.dsk := rfl
@[simp] theorem State.setCore_vrd (u : Nat) (c : FawnCore) : (s.setCore u c).vrd = s.vrd := rfl
@[simp] theorem State.setCore_nets (u : Nat) (c : FawnCore) : (s.setCore u c).nets = s.nets := rfl
@[simp] theorem State.setCore_keys (u : Nat) (c : FawnCore) : (s.setCore u c).keys = s.keys := rfl
@[simp] theorem State.setCore_samplers (u : Nat) (c : FawnCore) : (s.setCore u c).samplers = s.samplers := rfl
@[simp] theorem State.setCore_jobs (u : Nat) (c : FawnCore) : (s.setCore u c).jobs = s.jobs := rfl
@[simp] theorem State.setCore_spb (u : Nat) (c : FawnCore) : (s.setCore u c).spb = s.spb := rfl
@[simp] theorem State.setCore_memS (u : Nat) (c : FawnCore) : (s.setCore u c).memS = s.memS := rfl
@[simp] theorem State.setCore_mem (u : Nat) (c : FawnCore) : (s.setCore u c).mem = s.mem := rfl
@[simp] theorem State.setCore_win (u : Nat) (c : FawnCore) : (s.setCore u c).win = s.win := rfl
@[simp] theorem State.setCore_ue (u : Nat) (c : FawnCore) : (s.setCore u c).ue = s.ue := rfl
@[simp] theorem State.setCore_ce (u : Nat) (c : FawnCore) : (s.setCore u c).ce = s.ce := rfl
@[simp] theorem State.setCore_poison (u : Nat) (c : FawnCore) : (s.setCore u c).poison = s.poison := rfl
@[simp] theorem State.setCore_ints (u : Nat) (c : FawnCore) : (s.setCore u c).ints = s.ints := rfl
@[simp] theorem State.setCore_opx (u : Nat) (c : FawnCore) : (s.setCore u c).opx = s.opx := rfl
@[simp] theorem State.setCore_tb (u : Nat) (c : FawnCore) : (s.setCore u c).tb = s.tb := rfl
@[simp] theorem State.setCore_host (u : Nat) (c : FawnCore) : (s.setCore u c).host = s.host := rfl
@[simp] theorem State.setCore_boot (u : Nat) (c : FawnCore) : (s.setCore u c).boot = s.boot := rfl
@[simp] theorem State.setCore_lock (u : Nat) (c : FawnCore) : (s.setCore u c).lock = s.lock := rfl
@[simp] theorem State.setCore_power (u : Nat) (c : FawnCore) : (s.setCore u c).power = s.power := rfl
@[simp] theorem State.setCore_logs (u : Nat) (c : FawnCore) : (s.setCore u c).logs = s.logs := rfl
@[simp] theorem State.setCore_frozen (u : Nat) (c : FawnCore) : (s.setCore u c).frozen = s.frozen := rfl
@[simp] theorem State.setCore_ctl (u : Nat) (c : FawnCore) : (s.setCore u c).ctl = s.ctl := rfl
@[simp] theorem State.setCore_snap (u : Nat) (c : FawnCore) : (s.setCore u c).snap = s.snap := rfl
@[simp] theorem State.setCore_snapOther (u : Nat) (c : FawnCore) : (s.setCore u c).snapOther = s.snapOther := rfl
@[simp] theorem State.setCore_phase (u : Nat) (c : FawnCore) : (s.setCore u c).phase = s.phase := rfl

/-! `setEng` -/
@[simp] theorem State.setEng_cycle (u : Nat) (e : ElandUnit) : (s.setEng u e).cycle = s.cycle := rfl
@[simp] theorem State.setEng_pending (u : Nat) (e : ElandUnit) : (s.setEng u e).pending = s.pending := rfl
@[simp] theorem State.setEng_out (u : Nat) (e : ElandUnit) : (s.setEng u e).out = s.out := rfl
@[simp] theorem State.setEng_freeIdx (u : Nat) (e : ElandUnit) : (s.setEng u e).freeIdx = s.freeIdx := rfl
@[simp] theorem State.setEng_stepping (u : Nat) (e : ElandUnit) : (s.setEng u e).stepping = s.stepping := rfl
@[simp] theorem State.setEng_regs (u : Nat) (e : ElandUnit) : (s.setEng u e).regs = s.regs := rfl
@[simp] theorem State.setEng_staged (u : Nat) (e : ElandUnit) : (s.setEng u e).staged = s.staged := rfl
@[simp] theorem State.setEng_cfgOld (u : Nat) (e : ElandUnit) : (s.setEng u e).cfgOld = s.cfgOld := rfl
@[simp] theorem State.setEng_oldUntil (u : Nat) (e : ElandUnit) : (s.setEng u e).oldUntil = s.oldUntil := rfl
@[simp] theorem State.setEng_commit (u : Nat) (e : ElandUnit) : (s.setEng u e).commit = s.commit := rfl
@[simp] theorem State.setEng_fab (u : Nat) (e : ElandUnit) : (s.setEng u e).fab = s.fab := rfl
@[simp] theorem State.setEng_eland (u : Nat) (e : ElandUnit) : (s.setEng u e).eland = s.eland.put u e := rfl
@[simp] theorem State.setEng_cores (u : Nat) (e : ElandUnit) : (s.setEng u e).cores = s.cores := rfl
@[simp] theorem State.setEng_cond (u : Nat) (e : ElandUnit) : (s.setEng u e).cond = s.cond := rfl
@[simp] theorem State.setEng_dsk (u : Nat) (e : ElandUnit) : (s.setEng u e).dsk = s.dsk := rfl
@[simp] theorem State.setEng_vrd (u : Nat) (e : ElandUnit) : (s.setEng u e).vrd = s.vrd := rfl
@[simp] theorem State.setEng_nets (u : Nat) (e : ElandUnit) : (s.setEng u e).nets = s.nets := rfl
@[simp] theorem State.setEng_keys (u : Nat) (e : ElandUnit) : (s.setEng u e).keys = s.keys := rfl
@[simp] theorem State.setEng_samplers (u : Nat) (e : ElandUnit) : (s.setEng u e).samplers = s.samplers := rfl
@[simp] theorem State.setEng_jobs (u : Nat) (e : ElandUnit) : (s.setEng u e).jobs = s.jobs := rfl
@[simp] theorem State.setEng_spb (u : Nat) (e : ElandUnit) : (s.setEng u e).spb = s.spb := rfl
@[simp] theorem State.setEng_memS (u : Nat) (e : ElandUnit) : (s.setEng u e).memS = s.memS := rfl
@[simp] theorem State.setEng_mem (u : Nat) (e : ElandUnit) : (s.setEng u e).mem = s.mem := rfl
@[simp] theorem State.setEng_win (u : Nat) (e : ElandUnit) : (s.setEng u e).win = s.win := rfl
@[simp] theorem State.setEng_ue (u : Nat) (e : ElandUnit) : (s.setEng u e).ue = s.ue := rfl
@[simp] theorem State.setEng_ce (u : Nat) (e : ElandUnit) : (s.setEng u e).ce = s.ce := rfl
@[simp] theorem State.setEng_poison (u : Nat) (e : ElandUnit) : (s.setEng u e).poison = s.poison := rfl
@[simp] theorem State.setEng_ints (u : Nat) (e : ElandUnit) : (s.setEng u e).ints = s.ints := rfl
@[simp] theorem State.setEng_opx (u : Nat) (e : ElandUnit) : (s.setEng u e).opx = s.opx := rfl
@[simp] theorem State.setEng_tb (u : Nat) (e : ElandUnit) : (s.setEng u e).tb = s.tb := rfl
@[simp] theorem State.setEng_host (u : Nat) (e : ElandUnit) : (s.setEng u e).host = s.host := rfl
@[simp] theorem State.setEng_boot (u : Nat) (e : ElandUnit) : (s.setEng u e).boot = s.boot := rfl
@[simp] theorem State.setEng_lock (u : Nat) (e : ElandUnit) : (s.setEng u e).lock = s.lock := rfl
@[simp] theorem State.setEng_power (u : Nat) (e : ElandUnit) : (s.setEng u e).power = s.power := rfl
@[simp] theorem State.setEng_logs (u : Nat) (e : ElandUnit) : (s.setEng u e).logs = s.logs := rfl
@[simp] theorem State.setEng_frozen (u : Nat) (e : ElandUnit) : (s.setEng u e).frozen = s.frozen := rfl
@[simp] theorem State.setEng_ctl (u : Nat) (e : ElandUnit) : (s.setEng u e).ctl = s.ctl := rfl
@[simp] theorem State.setEng_snap (u : Nat) (e : ElandUnit) : (s.setEng u e).snap = s.snap := rfl
@[simp] theorem State.setEng_snapOther (u : Nat) (e : ElandUnit) : (s.setEng u e).snapOther = s.snapOther := rfl
@[simp] theorem State.setEng_phase (u : Nat) (e : ElandUnit) : (s.setEng u e).phase = s.phase := rfl

/-! `setPort` -/
@[simp] theorem State.setPort_cycle (p : Nat) (x : OpxPort) : (s.setPort p x).cycle = s.cycle := rfl
@[simp] theorem State.setPort_pending (p : Nat) (x : OpxPort) : (s.setPort p x).pending = s.pending := rfl
@[simp] theorem State.setPort_out (p : Nat) (x : OpxPort) : (s.setPort p x).out = s.out := rfl
@[simp] theorem State.setPort_freeIdx (p : Nat) (x : OpxPort) : (s.setPort p x).freeIdx = s.freeIdx := rfl
@[simp] theorem State.setPort_stepping (p : Nat) (x : OpxPort) : (s.setPort p x).stepping = s.stepping := rfl
@[simp] theorem State.setPort_regs (p : Nat) (x : OpxPort) : (s.setPort p x).regs = s.regs := rfl
@[simp] theorem State.setPort_staged (p : Nat) (x : OpxPort) : (s.setPort p x).staged = s.staged := rfl
@[simp] theorem State.setPort_cfgOld (p : Nat) (x : OpxPort) : (s.setPort p x).cfgOld = s.cfgOld := rfl
@[simp] theorem State.setPort_oldUntil (p : Nat) (x : OpxPort) : (s.setPort p x).oldUntil = s.oldUntil := rfl
@[simp] theorem State.setPort_commit (p : Nat) (x : OpxPort) : (s.setPort p x).commit = s.commit := rfl
@[simp] theorem State.setPort_fab (p : Nat) (x : OpxPort) : (s.setPort p x).fab = s.fab := rfl
@[simp] theorem State.setPort_eland (p : Nat) (x : OpxPort) : (s.setPort p x).eland = s.eland := rfl
@[simp] theorem State.setPort_cores (p : Nat) (x : OpxPort) : (s.setPort p x).cores = s.cores := rfl
@[simp] theorem State.setPort_cond (p : Nat) (x : OpxPort) : (s.setPort p x).cond = s.cond := rfl
@[simp] theorem State.setPort_dsk (p : Nat) (x : OpxPort) : (s.setPort p x).dsk = s.dsk := rfl
@[simp] theorem State.setPort_vrd (p : Nat) (x : OpxPort) : (s.setPort p x).vrd = s.vrd := rfl
@[simp] theorem State.setPort_nets (p : Nat) (x : OpxPort) : (s.setPort p x).nets = s.nets := rfl
@[simp] theorem State.setPort_keys (p : Nat) (x : OpxPort) : (s.setPort p x).keys = s.keys := rfl
@[simp] theorem State.setPort_samplers (p : Nat) (x : OpxPort) : (s.setPort p x).samplers = s.samplers := rfl
@[simp] theorem State.setPort_jobs (p : Nat) (x : OpxPort) : (s.setPort p x).jobs = s.jobs := rfl
@[simp] theorem State.setPort_spb (p : Nat) (x : OpxPort) : (s.setPort p x).spb = s.spb := rfl
@[simp] theorem State.setPort_memS (p : Nat) (x : OpxPort) : (s.setPort p x).memS = s.memS := rfl
@[simp] theorem State.setPort_mem (p : Nat) (x : OpxPort) : (s.setPort p x).mem = s.mem := rfl
@[simp] theorem State.setPort_win (p : Nat) (x : OpxPort) : (s.setPort p x).win = s.win := rfl
@[simp] theorem State.setPort_ue (p : Nat) (x : OpxPort) : (s.setPort p x).ue = s.ue := rfl
@[simp] theorem State.setPort_ce (p : Nat) (x : OpxPort) : (s.setPort p x).ce = s.ce := rfl
@[simp] theorem State.setPort_poison (p : Nat) (x : OpxPort) : (s.setPort p x).poison = s.poison := rfl
@[simp] theorem State.setPort_ints (p : Nat) (x : OpxPort) : (s.setPort p x).ints = s.ints := rfl
@[simp] theorem State.setPort_opx (p : Nat) (x : OpxPort) : (s.setPort p x).opx = s.opx.put p x := rfl
@[simp] theorem State.setPort_tb (p : Nat) (x : OpxPort) : (s.setPort p x).tb = s.tb := rfl
@[simp] theorem State.setPort_host (p : Nat) (x : OpxPort) : (s.setPort p x).host = s.host := rfl
@[simp] theorem State.setPort_boot (p : Nat) (x : OpxPort) : (s.setPort p x).boot = s.boot := rfl
@[simp] theorem State.setPort_lock (p : Nat) (x : OpxPort) : (s.setPort p x).lock = s.lock := rfl
@[simp] theorem State.setPort_power (p : Nat) (x : OpxPort) : (s.setPort p x).power = s.power := rfl
@[simp] theorem State.setPort_logs (p : Nat) (x : OpxPort) : (s.setPort p x).logs = s.logs := rfl
@[simp] theorem State.setPort_frozen (p : Nat) (x : OpxPort) : (s.setPort p x).frozen = s.frozen := rfl
@[simp] theorem State.setPort_ctl (p : Nat) (x : OpxPort) : (s.setPort p x).ctl = s.ctl := rfl
@[simp] theorem State.setPort_snap (p : Nat) (x : OpxPort) : (s.setPort p x).snap = s.snap := rfl
@[simp] theorem State.setPort_snapOther (p : Nat) (x : OpxPort) : (s.setPort p x).snapOther = s.snapOther := rfl
@[simp] theorem State.setPort_phase (p : Nat) (x : OpxPort) : (s.setPort p x).phase = s.phase := rfl

/-! `setDsk` -/
@[simp] theorem State.setDsk_cycle (k : Nat) (d : DskSlot) : (s.setDsk k d).cycle = s.cycle := rfl
@[simp] theorem State.setDsk_pending (k : Nat) (d : DskSlot) : (s.setDsk k d).pending = s.pending := rfl
@[simp] theorem State.setDsk_out (k : Nat) (d : DskSlot) : (s.setDsk k d).out = s.out := rfl
@[simp] theorem State.setDsk_freeIdx (k : Nat) (d : DskSlot) : (s.setDsk k d).freeIdx = s.freeIdx := rfl
@[simp] theorem State.setDsk_stepping (k : Nat) (d : DskSlot) : (s.setDsk k d).stepping = s.stepping := rfl
@[simp] theorem State.setDsk_regs (k : Nat) (d : DskSlot) : (s.setDsk k d).regs = s.regs := rfl
@[simp] theorem State.setDsk_staged (k : Nat) (d : DskSlot) : (s.setDsk k d).staged = s.staged := rfl
@[simp] theorem State.setDsk_cfgOld (k : Nat) (d : DskSlot) : (s.setDsk k d).cfgOld = s.cfgOld := rfl
@[simp] theorem State.setDsk_oldUntil (k : Nat) (d : DskSlot) : (s.setDsk k d).oldUntil = s.oldUntil := rfl
@[simp] theorem State.setDsk_commit (k : Nat) (d : DskSlot) : (s.setDsk k d).commit = s.commit := rfl
@[simp] theorem State.setDsk_fab (k : Nat) (d : DskSlot) : (s.setDsk k d).fab = s.fab := rfl
@[simp] theorem State.setDsk_eland (k : Nat) (d : DskSlot) : (s.setDsk k d).eland = s.eland := rfl
@[simp] theorem State.setDsk_cores (k : Nat) (d : DskSlot) : (s.setDsk k d).cores = s.cores := rfl
@[simp] theorem State.setDsk_cond (k : Nat) (d : DskSlot) : (s.setDsk k d).cond = s.cond := rfl
@[simp] theorem State.setDsk_dsk (k : Nat) (d : DskSlot) : (s.setDsk k d).dsk = s.dsk.put k d := rfl
@[simp] theorem State.setDsk_vrd (k : Nat) (d : DskSlot) : (s.setDsk k d).vrd = s.vrd := rfl
@[simp] theorem State.setDsk_nets (k : Nat) (d : DskSlot) : (s.setDsk k d).nets = s.nets := rfl
@[simp] theorem State.setDsk_keys (k : Nat) (d : DskSlot) : (s.setDsk k d).keys = s.keys := rfl
@[simp] theorem State.setDsk_samplers (k : Nat) (d : DskSlot) : (s.setDsk k d).samplers = s.samplers := rfl
@[simp] theorem State.setDsk_jobs (k : Nat) (d : DskSlot) : (s.setDsk k d).jobs = s.jobs := rfl
@[simp] theorem State.setDsk_spb (k : Nat) (d : DskSlot) : (s.setDsk k d).spb = s.spb := rfl
@[simp] theorem State.setDsk_memS (k : Nat) (d : DskSlot) : (s.setDsk k d).memS = s.memS := rfl
@[simp] theorem State.setDsk_mem (k : Nat) (d : DskSlot) : (s.setDsk k d).mem = s.mem := rfl
@[simp] theorem State.setDsk_win (k : Nat) (d : DskSlot) : (s.setDsk k d).win = s.win := rfl
@[simp] theorem State.setDsk_ue (k : Nat) (d : DskSlot) : (s.setDsk k d).ue = s.ue := rfl
@[simp] theorem State.setDsk_ce (k : Nat) (d : DskSlot) : (s.setDsk k d).ce = s.ce := rfl
@[simp] theorem State.setDsk_poison (k : Nat) (d : DskSlot) : (s.setDsk k d).poison = s.poison := rfl
@[simp] theorem State.setDsk_ints (k : Nat) (d : DskSlot) : (s.setDsk k d).ints = s.ints := rfl
@[simp] theorem State.setDsk_opx (k : Nat) (d : DskSlot) : (s.setDsk k d).opx = s.opx := rfl
@[simp] theorem State.setDsk_tb (k : Nat) (d : DskSlot) : (s.setDsk k d).tb = s.tb := rfl
@[simp] theorem State.setDsk_host (k : Nat) (d : DskSlot) : (s.setDsk k d).host = s.host := rfl
@[simp] theorem State.setDsk_boot (k : Nat) (d : DskSlot) : (s.setDsk k d).boot = s.boot := rfl
@[simp] theorem State.setDsk_lock (k : Nat) (d : DskSlot) : (s.setDsk k d).lock = s.lock := rfl
@[simp] theorem State.setDsk_power (k : Nat) (d : DskSlot) : (s.setDsk k d).power = s.power := rfl
@[simp] theorem State.setDsk_logs (k : Nat) (d : DskSlot) : (s.setDsk k d).logs = s.logs := rfl
@[simp] theorem State.setDsk_frozen (k : Nat) (d : DskSlot) : (s.setDsk k d).frozen = s.frozen := rfl
@[simp] theorem State.setDsk_ctl (k : Nat) (d : DskSlot) : (s.setDsk k d).ctl = s.ctl := rfl
@[simp] theorem State.setDsk_snap (k : Nat) (d : DskSlot) : (s.setDsk k d).snap = s.snap := rfl
@[simp] theorem State.setDsk_snapOther (k : Nat) (d : DskSlot) : (s.setDsk k d).snapOther = s.snapOther := rfl
@[simp] theorem State.setDsk_phase (k : Nat) (d : DskSlot) : (s.setDsk k d).phase = s.phase := rfl

/-! `setDram` -/
@[simp] theorem State.setDram_cycle (k : Nat) (d : DramCh) : (s.setDram k d).cycle = s.cycle := rfl
@[simp] theorem State.setDram_pending (k : Nat) (d : DramCh) : (s.setDram k d).pending = s.pending := rfl
@[simp] theorem State.setDram_out (k : Nat) (d : DramCh) : (s.setDram k d).out = s.out := rfl
@[simp] theorem State.setDram_freeIdx (k : Nat) (d : DramCh) : (s.setDram k d).freeIdx = s.freeIdx := rfl
@[simp] theorem State.setDram_stepping (k : Nat) (d : DramCh) : (s.setDram k d).stepping = s.stepping := rfl
@[simp] theorem State.setDram_regs (k : Nat) (d : DramCh) : (s.setDram k d).regs = s.regs := rfl
@[simp] theorem State.setDram_staged (k : Nat) (d : DramCh) : (s.setDram k d).staged = s.staged := rfl
@[simp] theorem State.setDram_cfgOld (k : Nat) (d : DramCh) : (s.setDram k d).cfgOld = s.cfgOld := rfl
@[simp] theorem State.setDram_oldUntil (k : Nat) (d : DramCh) : (s.setDram k d).oldUntil = s.oldUntil := rfl
@[simp] theorem State.setDram_commit (k : Nat) (d : DramCh) : (s.setDram k d).commit = s.commit := rfl
@[simp] theorem State.setDram_fab (k : Nat) (d : DramCh) : (s.setDram k d).fab = s.fab := rfl
@[simp] theorem State.setDram_eland (k : Nat) (d : DramCh) : (s.setDram k d).eland = s.eland := rfl
@[simp] theorem State.setDram_cores (k : Nat) (d : DramCh) : (s.setDram k d).cores = s.cores := rfl
@[simp] theorem State.setDram_cond (k : Nat) (d : DramCh) : (s.setDram k d).cond = s.cond := rfl
@[simp] theorem State.setDram_dsk (k : Nat) (d : DramCh) : (s.setDram k d).dsk = s.dsk := rfl
@[simp] theorem State.setDram_vrd (k : Nat) (d : DramCh) : (s.setDram k d).vrd = s.vrd := rfl
@[simp] theorem State.setDram_nets (k : Nat) (d : DramCh) : (s.setDram k d).nets = s.nets := rfl
@[simp] theorem State.setDram_keys (k : Nat) (d : DramCh) : (s.setDram k d).keys = s.keys := rfl
@[simp] theorem State.setDram_samplers (k : Nat) (d : DramCh) : (s.setDram k d).samplers = s.samplers := rfl
@[simp] theorem State.setDram_jobs (k : Nat) (d : DramCh) : (s.setDram k d).jobs = s.jobs := rfl
@[simp] theorem State.setDram_spb (k : Nat) (d : DramCh) : (s.setDram k d).spb = s.spb := rfl
@[simp] theorem State.setDram_memS (k : Nat) (d : DramCh) : (s.setDram k d).memS = s.memS := rfl
@[simp] theorem State.setDram_mem (k : Nat) (d : DramCh) : (s.setDram k d).mem = s.mem := rfl
@[simp] theorem State.setDram_win (k : Nat) (d : DramCh) : (s.setDram k d).win = s.win := rfl
@[simp] theorem State.setDram_ue (k : Nat) (d : DramCh) : (s.setDram k d).ue = s.ue := rfl
@[simp] theorem State.setDram_ce (k : Nat) (d : DramCh) : (s.setDram k d).ce = s.ce := rfl
@[simp] theorem State.setDram_poison (k : Nat) (d : DramCh) : (s.setDram k d).poison = s.poison := rfl
@[simp] theorem State.setDram_ints (k : Nat) (d : DramCh) : (s.setDram k d).ints = s.ints := rfl
@[simp] theorem State.setDram_opx (k : Nat) (d : DramCh) : (s.setDram k d).opx = s.opx := rfl
@[simp] theorem State.setDram_tb (k : Nat) (d : DramCh) : (s.setDram k d).tb = s.tb := rfl
@[simp] theorem State.setDram_boot (k : Nat) (d : DramCh) : (s.setDram k d).boot = s.boot := rfl
@[simp] theorem State.setDram_lock (k : Nat) (d : DramCh) : (s.setDram k d).lock = s.lock := rfl
@[simp] theorem State.setDram_power (k : Nat) (d : DramCh) : (s.setDram k d).power = s.power := rfl
@[simp] theorem State.setDram_logs (k : Nat) (d : DramCh) : (s.setDram k d).logs = s.logs := rfl
@[simp] theorem State.setDram_frozen (k : Nat) (d : DramCh) : (s.setDram k d).frozen = s.frozen := rfl
@[simp] theorem State.setDram_ctl (k : Nat) (d : DramCh) : (s.setDram k d).ctl = s.ctl := rfl
@[simp] theorem State.setDram_snap (k : Nat) (d : DramCh) : (s.setDram k d).snap = s.snap := rfl
@[simp] theorem State.setDram_snapOther (k : Nat) (d : DramCh) : (s.setDram k d).snapOther = s.snapOther := rfl
@[simp] theorem State.setDram_phase (k : Nat) (d : DramCh) : (s.setDram k d).phase = s.phase := rfl

/-! `emit` -/
@[simp] theorem State.emit_cycle (o : Output) : (s.emit o).cycle = s.cycle := rfl
@[simp] theorem State.emit_pending (o : Output) : (s.emit o).pending = s.pending := rfl
@[simp] theorem State.emit_out (o : Output) : (s.emit o).out = o :: s.out := rfl
@[simp] theorem State.emit_freeIdx (o : Output) : (s.emit o).freeIdx = s.freeIdx := rfl
@[simp] theorem State.emit_stepping (o : Output) : (s.emit o).stepping = s.stepping := rfl
@[simp] theorem State.emit_regs (o : Output) : (s.emit o).regs = s.regs := rfl
@[simp] theorem State.emit_staged (o : Output) : (s.emit o).staged = s.staged := rfl
@[simp] theorem State.emit_cfgOld (o : Output) : (s.emit o).cfgOld = s.cfgOld := rfl
@[simp] theorem State.emit_oldUntil (o : Output) : (s.emit o).oldUntil = s.oldUntil := rfl
@[simp] theorem State.emit_commit (o : Output) : (s.emit o).commit = s.commit := rfl
@[simp] theorem State.emit_fab (o : Output) : (s.emit o).fab = s.fab := rfl
@[simp] theorem State.emit_eland (o : Output) : (s.emit o).eland = s.eland := rfl
@[simp] theorem State.emit_cores (o : Output) : (s.emit o).cores = s.cores := rfl
@[simp] theorem State.emit_cond (o : Output) : (s.emit o).cond = s.cond := rfl
@[simp] theorem State.emit_dsk (o : Output) : (s.emit o).dsk = s.dsk := rfl
@[simp] theorem State.emit_vrd (o : Output) : (s.emit o).vrd = s.vrd := rfl
@[simp] theorem State.emit_nets (o : Output) : (s.emit o).nets = s.nets := rfl
@[simp] theorem State.emit_keys (o : Output) : (s.emit o).keys = s.keys := rfl
@[simp] theorem State.emit_samplers (o : Output) : (s.emit o).samplers = s.samplers := rfl
@[simp] theorem State.emit_jobs (o : Output) : (s.emit o).jobs = s.jobs := rfl
@[simp] theorem State.emit_spb (o : Output) : (s.emit o).spb = s.spb := rfl
@[simp] theorem State.emit_memS (o : Output) : (s.emit o).memS = s.memS := rfl
@[simp] theorem State.emit_mem (o : Output) : (s.emit o).mem = s.mem := rfl
@[simp] theorem State.emit_win (o : Output) : (s.emit o).win = s.win := rfl
@[simp] theorem State.emit_ue (o : Output) : (s.emit o).ue = s.ue := rfl
@[simp] theorem State.emit_ce (o : Output) : (s.emit o).ce = s.ce := rfl
@[simp] theorem State.emit_poison (o : Output) : (s.emit o).poison = s.poison := rfl
@[simp] theorem State.emit_ints (o : Output) : (s.emit o).ints = s.ints := rfl
@[simp] theorem State.emit_opx (o : Output) : (s.emit o).opx = s.opx := rfl
@[simp] theorem State.emit_tb (o : Output) : (s.emit o).tb = s.tb := rfl
@[simp] theorem State.emit_host (o : Output) : (s.emit o).host = s.host := rfl
@[simp] theorem State.emit_boot (o : Output) : (s.emit o).boot = s.boot := rfl
@[simp] theorem State.emit_lock (o : Output) : (s.emit o).lock = s.lock := rfl
@[simp] theorem State.emit_power (o : Output) : (s.emit o).power = s.power := rfl
@[simp] theorem State.emit_logs (o : Output) : (s.emit o).logs = s.logs := rfl
@[simp] theorem State.emit_frozen (o : Output) : (s.emit o).frozen = s.frozen := rfl
@[simp] theorem State.emit_ctl (o : Output) : (s.emit o).ctl = s.ctl := rfl
@[simp] theorem State.emit_snap (o : Output) : (s.emit o).snap = s.snap := rfl
@[simp] theorem State.emit_snapOther (o : Output) : (s.emit o).snapOther = s.snapOther := rfl
@[simp] theorem State.emit_phase (o : Output) : (s.emit o).phase = s.phase := rfl

/-! `free` -/
@[simp] theorem State.free_cycle (n : Nat) : ((s.free n).2).cycle = s.cycle := rfl
@[simp] theorem State.free_pending (n : Nat) : ((s.free n).2).pending = s.pending := rfl
@[simp] theorem State.free_out (n : Nat) : ((s.free n).2).out = s.out := rfl
@[simp] theorem State.free_freeIdx (n : Nat) : ((s.free n).2).freeIdx = s.freeIdx + 1 := rfl
@[simp] theorem State.free_stepping (n : Nat) : ((s.free n).2).stepping = s.stepping := rfl
@[simp] theorem State.free_regs (n : Nat) : ((s.free n).2).regs = s.regs := rfl
@[simp] theorem State.free_staged (n : Nat) : ((s.free n).2).staged = s.staged := rfl
@[simp] theorem State.free_cfgOld (n : Nat) : ((s.free n).2).cfgOld = s.cfgOld := rfl
@[simp] theorem State.free_oldUntil (n : Nat) : ((s.free n).2).oldUntil = s.oldUntil := rfl
@[simp] theorem State.free_commit (n : Nat) : ((s.free n).2).commit = s.commit := rfl
@[simp] theorem State.free_fab (n : Nat) : ((s.free n).2).fab = s.fab := rfl
@[simp] theorem State.free_eland (n : Nat) : ((s.free n).2).eland = s.eland := rfl
@[simp] theorem State.free_cores (n : Nat) : ((s.free n).2).cores = s.cores := rfl
@[simp] theorem State.free_cond (n : Nat) : ((s.free n).2).cond = s.cond := rfl
@[simp] theorem State.free_dsk (n : Nat) : ((s.free n).2).dsk = s.dsk := rfl
@[simp] theorem State.free_vrd (n : Nat) : ((s.free n).2).vrd = s.vrd := rfl
@[simp] theorem State.free_nets (n : Nat) : ((s.free n).2).nets = s.nets := rfl
@[simp] theorem State.free_keys (n : Nat) : ((s.free n).2).keys = s.keys := rfl
@[simp] theorem State.free_samplers (n : Nat) : ((s.free n).2).samplers = s.samplers := rfl
@[simp] theorem State.free_jobs (n : Nat) : ((s.free n).2).jobs = s.jobs := rfl
@[simp] theorem State.free_spb (n : Nat) : ((s.free n).2).spb = s.spb := rfl
@[simp] theorem State.free_memS (n : Nat) : ((s.free n).2).memS = s.memS := rfl
@[simp] theorem State.free_mem (n : Nat) : ((s.free n).2).mem = s.mem := rfl
@[simp] theorem State.free_win (n : Nat) : ((s.free n).2).win = s.win := rfl
@[simp] theorem State.free_ue (n : Nat) : ((s.free n).2).ue = s.ue := rfl
@[simp] theorem State.free_ce (n : Nat) : ((s.free n).2).ce = s.ce := rfl
@[simp] theorem State.free_poison (n : Nat) : ((s.free n).2).poison = s.poison := rfl
@[simp] theorem State.free_ints (n : Nat) : ((s.free n).2).ints = s.ints := rfl
@[simp] theorem State.free_opx (n : Nat) : ((s.free n).2).opx = s.opx := rfl
@[simp] theorem State.free_tb (n : Nat) : ((s.free n).2).tb = s.tb := rfl
@[simp] theorem State.free_host (n : Nat) : ((s.free n).2).host = s.host := rfl
@[simp] theorem State.free_boot (n : Nat) : ((s.free n).2).boot = s.boot := rfl
@[simp] theorem State.free_lock (n : Nat) : ((s.free n).2).lock = s.lock := rfl
@[simp] theorem State.free_power (n : Nat) : ((s.free n).2).power = s.power := rfl
@[simp] theorem State.free_logs (n : Nat) : ((s.free n).2).logs = s.logs := rfl
@[simp] theorem State.free_frozen (n : Nat) : ((s.free n).2).frozen = s.frozen := rfl
@[simp] theorem State.free_ctl (n : Nat) : ((s.free n).2).ctl = s.ctl := rfl
@[simp] theorem State.free_snap (n : Nat) : ((s.free n).2).snap = s.snap := rfl
@[simp] theorem State.free_snapOther (n : Nat) : ((s.free n).2).snapOther = s.snapOther := rfl
@[simp] theorem State.free_phase (n : Nat) : ((s.free n).2).phase = s.phase := rfl

/-! `regPush` -/
@[simp] theorem State.regPush_cycle (u dir : Nat) (t : Token) (cyc : Nat) : (s.regPush u dir t cyc).cycle = s.cycle := rfl
@[simp] theorem State.regPush_pending (u dir : Nat) (t : Token) (cyc : Nat) : (s.regPush u dir t cyc).pending = s.pending := rfl
@[simp] theorem State.regPush_out (u dir : Nat) (t : Token) (cyc : Nat) : (s.regPush u dir t cyc).out = s.out := rfl
@[simp] theorem State.regPush_freeIdx (u dir : Nat) (t : Token) (cyc : Nat) : (s.regPush u dir t cyc).freeIdx = s.freeIdx := rfl
@[simp] theorem State.regPush_stepping (u dir : Nat) (t : Token) (cyc : Nat) : (s.regPush u dir t cyc).stepping = s.stepping := rfl
@[simp] theorem State.regPush_regs (u dir : Nat) (t : Token) (cyc : Nat) : (s.regPush u dir t cyc).regs = s.regs := rfl
@[simp] theorem State.regPush_staged (u dir : Nat) (t : Token) (cyc : Nat) : (s.regPush u dir t cyc).staged = s.staged := rfl
@[simp] theorem State.regPush_cfgOld (u dir : Nat) (t : Token) (cyc : Nat) : (s.regPush u dir t cyc).cfgOld = s.cfgOld := rfl
@[simp] theorem State.regPush_oldUntil (u dir : Nat) (t : Token) (cyc : Nat) : (s.regPush u dir t cyc).oldUntil = s.oldUntil := rfl
@[simp] theorem State.regPush_commit (u dir : Nat) (t : Token) (cyc : Nat) : (s.regPush u dir t cyc).commit = s.commit := rfl
@[simp] theorem State.regPush_eland (u dir : Nat) (t : Token) (cyc : Nat) : (s.regPush u dir t cyc).eland = s.eland := rfl
@[simp] theorem State.regPush_cores (u dir : Nat) (t : Token) (cyc : Nat) : (s.regPush u dir t cyc).cores = s.cores := rfl
@[simp] theorem State.regPush_cond (u dir : Nat) (t : Token) (cyc : Nat) : (s.regPush u dir t cyc).cond = s.cond := rfl
@[simp] theorem State.regPush_dsk (u dir : Nat) (t : Token) (cyc : Nat) : (s.regPush u dir t cyc).dsk = s.dsk := rfl
@[simp] theorem State.regPush_vrd (u dir : Nat) (t : Token) (cyc : Nat) : (s.regPush u dir t cyc).vrd = s.vrd := rfl
@[simp] theorem State.regPush_nets (u dir : Nat) (t : Token) (cyc : Nat) : (s.regPush u dir t cyc).nets = s.nets := rfl
@[simp] theorem State.regPush_keys (u dir : Nat) (t : Token) (cyc : Nat) : (s.regPush u dir t cyc).keys = s.keys := rfl
@[simp] theorem State.regPush_samplers (u dir : Nat) (t : Token) (cyc : Nat) : (s.regPush u dir t cyc).samplers = s.samplers := rfl
@[simp] theorem State.regPush_jobs (u dir : Nat) (t : Token) (cyc : Nat) : (s.regPush u dir t cyc).jobs = s.jobs := rfl
@[simp] theorem State.regPush_spb (u dir : Nat) (t : Token) (cyc : Nat) : (s.regPush u dir t cyc).spb = s.spb := rfl
@[simp] theorem State.regPush_memS (u dir : Nat) (t : Token) (cyc : Nat) : (s.regPush u dir t cyc).memS = s.memS := rfl
@[simp] theorem State.regPush_mem (u dir : Nat) (t : Token) (cyc : Nat) : (s.regPush u dir t cyc).mem = s.mem := rfl
@[simp] theorem State.regPush_win (u dir : Nat) (t : Token) (cyc : Nat) : (s.regPush u dir t cyc).win = s.win := rfl
@[simp] theorem State.regPush_ue (u dir : Nat) (t : Token) (cyc : Nat) : (s.regPush u dir t cyc).ue = s.ue := rfl
@[simp] theorem State.regPush_ce (u dir : Nat) (t : Token) (cyc : Nat) : (s.regPush u dir t cyc).ce = s.ce := rfl
@[simp] theorem State.regPush_poison (u dir : Nat) (t : Token) (cyc : Nat) : (s.regPush u dir t cyc).poison = s.poison := rfl
@[simp] theorem State.regPush_ints (u dir : Nat) (t : Token) (cyc : Nat) : (s.regPush u dir t cyc).ints = s.ints := rfl
@[simp] theorem State.regPush_opx (u dir : Nat) (t : Token) (cyc : Nat) : (s.regPush u dir t cyc).opx = s.opx := rfl
@[simp] theorem State.regPush_tb (u dir : Nat) (t : Token) (cyc : Nat) : (s.regPush u dir t cyc).tb = s.tb := rfl
@[simp] theorem State.regPush_host (u dir : Nat) (t : Token) (cyc : Nat) : (s.regPush u dir t cyc).host = s.host := rfl
@[simp] theorem State.regPush_boot (u dir : Nat) (t : Token) (cyc : Nat) : (s.regPush u dir t cyc).boot = s.boot := rfl
@[simp] theorem State.regPush_lock (u dir : Nat) (t : Token) (cyc : Nat) : (s.regPush u dir t cyc).lock = s.lock := rfl
@[simp] theorem State.regPush_power (u dir : Nat) (t : Token) (cyc : Nat) : (s.regPush u dir t cyc).power = s.power := rfl
@[simp] theorem State.regPush_logs (u dir : Nat) (t : Token) (cyc : Nat) : (s.regPush u dir t cyc).logs = s.logs := rfl
@[simp] theorem State.regPush_frozen (u dir : Nat) (t : Token) (cyc : Nat) : (s.regPush u dir t cyc).frozen = s.frozen := rfl
@[simp] theorem State.regPush_ctl (u dir : Nat) (t : Token) (cyc : Nat) : (s.regPush u dir t cyc).ctl = s.ctl := rfl
@[simp] theorem State.regPush_snap (u dir : Nat) (t : Token) (cyc : Nat) : (s.regPush u dir t cyc).snap = s.snap := rfl
@[simp] theorem State.regPush_snapOther (u dir : Nat) (t : Token) (cyc : Nat) : (s.regPush u dir t cyc).snapOther = s.snapOther := rfl
@[simp] theorem State.regPush_phase (u dir : Nat) (t : Token) (cyc : Nat) : (s.regPush u dir t cyc).phase = s.phase := rfl

/-! `keeping` -/
@[simp] theorem State.keeping_cycle : (s.keeping t).cycle = s.cycle := rfl
@[simp] theorem State.keeping_pending : (s.keeping t).pending = s.pending := rfl
@[simp] theorem State.keeping_out : (s.keeping t).out = t.out := rfl
@[simp] theorem State.keeping_freeIdx : (s.keeping t).freeIdx = t.freeIdx := rfl
@[simp] theorem State.keeping_stepping : (s.keeping t).stepping = s.stepping := rfl
@[simp] theorem State.keeping_regs : (s.keeping t).regs = t.regs := rfl
@[simp] theorem State.keeping_staged : (s.keeping t).staged = t.staged := rfl
@[simp] theorem State.keeping_cfgOld : (s.keeping t).cfgOld = t.cfgOld := rfl
@[simp] theorem State.keeping_oldUntil : (s.keeping t).oldUntil = t.oldUntil := rfl
@[simp] theorem State.keeping_commit : (s.keeping t).commit = t.commit := rfl
@[simp] theorem State.keeping_fab : (s.keeping t).fab = t.fab := rfl
@[simp] theorem State.keeping_eland : (s.keeping t).eland = t.eland := rfl
@[simp] theorem State.keeping_cores : (s.keeping t).cores = t.cores := rfl
@[simp] theorem State.keeping_cond : (s.keeping t).cond = t.cond := rfl
@[simp] theorem State.keeping_dsk : (s.keeping t).dsk = t.dsk := rfl
@[simp] theorem State.keeping_vrd : (s.keeping t).vrd = t.vrd := rfl
@[simp] theorem State.keeping_nets : (s.keeping t).nets = t.nets := rfl
@[simp] theorem State.keeping_keys : (s.keeping t).keys = t.keys := rfl
@[simp] theorem State.keeping_samplers : (s.keeping t).samplers = t.samplers := rfl
@[simp] theorem State.keeping_jobs : (s.keeping t).jobs = t.jobs := rfl
@[simp] theorem State.keeping_spb : (s.keeping t).spb = t.spb := rfl
@[simp] theorem State.keeping_memS : (s.keeping t).memS = t.memS := rfl
@[simp] theorem State.keeping_mem : (s.keeping t).mem = t.mem := rfl
@[simp] theorem State.keeping_win : (s.keeping t).win = t.win := rfl
@[simp] theorem State.keeping_ue : (s.keeping t).ue = t.ue := rfl
@[simp] theorem State.keeping_ce : (s.keeping t).ce = t.ce := rfl
@[simp] theorem State.keeping_poison : (s.keeping t).poison = t.poison := rfl
@[simp] theorem State.keeping_ints : (s.keeping t).ints = t.ints := rfl
@[simp] theorem State.keeping_opx : (s.keeping t).opx = t.opx := rfl
@[simp] theorem State.keeping_tb : (s.keeping t).tb = t.tb := rfl
@[simp] theorem State.keeping_host : (s.keeping t).host = t.host := rfl
@[simp] theorem State.keeping_lock : (s.keeping t).lock = t.lock := rfl
@[simp] theorem State.keeping_power : (s.keeping t).power = t.power := rfl
@[simp] theorem State.keeping_logs : (s.keeping t).logs = t.logs := rfl
@[simp] theorem State.keeping_frozen : (s.keeping t).frozen = t.frozen := rfl
@[simp] theorem State.keeping_ctl : (s.keeping t).ctl = t.ctl := rfl
@[simp] theorem State.keeping_snap : (s.keeping t).snap = t.snap := rfl
@[simp] theorem State.keeping_snapOther : (s.keeping t).snapOther = t.snapOther := rfl
@[simp] theorem State.keeping_phase : (s.keeping t).phase = s.phase := rfl
@[simp] theorem State.keeping_bootSrc : (s.keeping t).boot.bootSrc = s.boot.bootSrc := rfl
@[simp] theorem State.keeping_devMode : (s.keeping t).boot.devMode = s.boot.devMode := rfl

/-- A state that agrees with the one before on what every command keeps is answered as it is. -/
theorem State.keeping_self {s t : State} (h1 : t.cycle = s.cycle) (h2 : t.pending = s.pending) (h3 : t.stepping = s.stepping)
    (h4 : t.phase = s.phase) (h5 : t.boot = s.boot) : s.keeping t = t := by
  cases s; cases t; simp_all [State.keeping]

/-- A command that finds the device out of reset answers its effect. -/
theorem awake_running {s : State} (h : s.phase = .running) (t : State) : awake s t = .next (s.keeping t) := by simp [awake, h]

/-- A command whose effect leaves what every command keeps answers that effect. -/
theorem awake_eq {s t : State} (h : s.phase = .running) (h1 : t.cycle = s.cycle) (h2 : t.pending = s.pending)
    (h3 : t.stepping = s.stepping) (h4 : t.phase = s.phase) (h5 : t.boot = s.boot) : awake s t = .next t := by
  rw [awake_running h, State.keeping_self h1 h2 h3 h4 h5]

/-- In internal reset a command leaves the state as it is. -/
theorem awake_reset {s : State} (h : s.phase ≠ .running) (t : State) : awake s t = .next s := by simp [awake, h]

/-- Every such command answers a state with the same cycle, queue, stepping and phase. -/
theorem awake_next (s t : State) : ∃ u, awake s t = .next u ∧ u.cycle = s.cycle ∧ u.pending = s.pending ∧
    u.stepping = s.stepping ∧ u.phase = s.phase ∧ u.boot.bootSrc = s.boot.bootSrc ∧ u.boot.devMode = s.boot.devMode := by
  by_cases h : s.phase = .running
  · exact ⟨_, awake_running h t, rfl, rfl, rfl, rfl, rfl, rfl⟩
  · exact ⟨s, awake_reset h t, rfl, rfl, rfl, rfl, rfl, rfl⟩

/-! Reading a register field after a write -/

/-- What the fields of KMap read after a write. -/
theorem KMap.get?_put {κ α : Type} [DecidableEq κ] (m : KMap κ α) (q k : κ) (v : α) :
    (m.put q v).get? k = if q = k then some v else m.get? k := by
  have del_get : ∀ (m : KMap κ α), q ≠ k → (m.del q).get? k = m.get? k := by
    intro m h
    induction m with
    | nil => rfl
    | cons e m ih =>
      obtain ⟨a, b⟩ := e
      by_cases ha : a = q
      · subst ha; simp [KMap.del, KMap.get?, h, ih]
      · by_cases hk : a = k
        · subst hk; simp [KMap.del, KMap.get?, ha]
        · simp [KMap.del, KMap.get?, ha, hk, ih]
  by_cases h : q = k
  · simp [KMap.put, KMap.get?, h]
  · simp [KMap.put, KMap.get?, h, del_get m h]

/-- A default read after a write. -/
theorem KMap.getD_put {κ α : Type} [DecidableEq κ] (m : KMap κ α) (q k : κ) (v d : α) :
    (m.put q v).getD k d = if q = k then v else m.getD k d := by
  unfold KMap.getD; rw [KMap.get?_put]; split <;> rfl

/-- A field reads the value just set, at its width. -/
theorem State.reg_setReg (s : State) (r : Reg) (i v : Nat) : (s.setReg r i v).reg r i = v % 2 ^ r.width := by
  simp [State.reg, State.regIn, State.setReg, KMap.get?_put]

/-- Other fields and instances read as before. -/
theorem State.reg_setReg_ne (s : State) (r q : Reg) (i j v : Nat) (h : (r, i) ≠ (q, j)) :
    (s.setReg r i v).reg q j = s.reg q j := by
  simp [State.reg, State.regIn, State.setReg, KMap.get?_put, h, State.resetVal]
  rfl

/-- What every command keeps does not show in a register field, but in the four that read it. -/
theorem State.keeping_reg (s t : State) (r : Reg) (i : Nat)
    (h : r ∉ [Reg.CHIP_STEP_STEP, .ELD_REV_LPASS, .BOOT_STATE_BOOT_SRC, .BOOT_STATE_DEV_MODE]) :
    (s.keeping t).reg r i = t.reg r i := by
  have hv : (s.keeping t).resetVal r i = t.resetVal r i := by
    unfold State.resetVal
    split <;> first | rfl | (exfalso; simp at h)
  unfold State.reg State.regIn
  rw [hv]; rfl

@[simp] theorem State.keeping_core (s t : State) (u : Nat) : (s.keeping t).core u = t.core u := rfl
@[simp] theorem State.keeping_isFrozen (s t : State) (m : Nat) : (s.keeping t).isFrozen m = t.isFrozen m := rfl

/-- A counter gains its increment and wraps at its width (R105). -/
theorem State.reg_bump (s : State) (r : Reg) (i n : Nat) : (s.bump r i n).reg r i = (s.reg r i + n) % 2 ^ r.width :=
  State.reg_setReg s r i _

/-- A counter's increment leaves other fields. -/
theorem State.reg_bump_ne (s : State) (r q : Reg) (i j n : Nat) (h : (r, i) ≠ (q, j)) : (s.bump r i n).reg q j = s.reg q j :=
  State.reg_setReg_ne s r q i j _ h

/-- A core just put is the one that is read. -/
@[simp] theorem State.core_setCore (s : State) (u : Nat) (c : FawnCore) : (s.setCore u c).core u = c := by
  simp [State.core, State.setCore, KMap.getD_put]

/-- Other cores read as before. -/
theorem State.core_setCore_ne (s : State) (u v : Nat) (c : FawnCore) (h : u ≠ v) : (s.setCore u c).core v = s.core v := by
  simp [State.core, State.setCore, KMap.getD_put, h]

/-- Every core after one is put. -/
theorem State.core_setCore_if (s : State) (u v : Nat) (c : FawnCore) :
    (s.setCore u c).core v = if v = u then c else s.core v := by
  split
  · rename_i h; subst h; simp
  · rename_i h; exact State.core_setCore_ne _ _ _ _ (Ne.symm h)

/-- Register writes leave the cores. -/
@[simp] theorem State.core_setReg (s : State) (r : Reg) (i v u : Nat) : (s.setReg r i v).core u = s.core u := rfl
@[simp] theorem State.core_bump (s : State) (r : Reg) (i n u : Nat) : (s.bump r i n).core u = s.core u := rfl

end Sys2Proof.Machine
end

