-- ==== Sys2Proof/Laws/Ops.lean ====
section
/-! SUPPORT. What the shared operations leave. `op_keeps` says: whatever reads only fields that the operation does not touch reads as
before; give it the reading and `fun _ _ _ => rfl`. -/
namespace Sys2Proof.Machine
open Sys2Proof

variable (s : State)

/-- A property that every step of a fold keeps holds at its end. -/
theorem foldl_keeps {σ α : Type} (P : σ → Prop) (f : σ → α → σ) (h : ∀ x a, P x → P (f x a)) (l : List α) (x : σ) (hx : P x) :
    P (l.foldl f x) := by
  induction l generalizing x with
  | nil => exact hx
  | cons a l ih => exact ih _ (h x a hx)

/-- A reading that no step of a fold changes. -/
theorem foldl_reads {σ α β : Type} (g : σ → β) (f : σ → α → σ) (h : ∀ x a, g (f x a) = g x) (l : List α) (x : σ) :
    g (l.foldl f x) = g x :=
  foldl_keeps (fun y => g y = g x) f (fun y a hy => (h y a).trans hy) l x rfl

/-- A record touches the collector and its merge counter (R432). -/
theorem State.raise_keeps {β : Type} (g : State → β) (h : ∀ (x : State) l m, g { x with logs := l, regs := m } = g x)
    (cls : Nat) (src : Src) (code unit : Nat) (args : List Nat) : g (s.raise cls src code unit args) = g s := by
  unfold State.raise; dsimp only
  split
  · split <;> exact h s _ _
  · exact h s _ s.regs

/-- Every field but the merge counter reads as before a record. -/
theorem State.raise_reg (cls : Nat) (src : Src) (code unit : Nat) (args : List Nat) (r : Reg) (i : Nat)
    (h : r ≠ .LOG_CNT2_MERGED) : (s.raise cls src code unit args).reg r i = s.reg r i := by
  unfold State.raise; dsimp only
  split
  · split
    · exact State.reg_bump_ne _ _ _ _ _ _ (fun e => h (congrArg Prod.fst e).symm)
    · rfl
  · rfl

/-- Settling a core's wait touches the cores and a count. -/
theorem State.settleWait_keeps {β : Type} (g : State → β) (h : ∀ (x : State) m c, g { x with regs := m, cores := c } = g x) (u : Nat) :
    g (s.settleWait u) = g s := by
  unfold State.settleWait
  split
  · rfl
  · dsimp only
    split <;> exact h s _ _

/-- Settling a core's wait ends it and leaves the other cores. -/
theorem State.settleWait_core (u w : Nat) :
    (s.settleWait u).core w = if w = u then { s.core u with waiting := 0 } else s.core w := by
  unfold State.settleWait
  split
  · rename_i h
    split
    · rename_i e; subst e; simp [State.core, KMap.getD, h]
    · rfl
  · rename_i c h
    have hc : s.core u = c := by simp [State.core, KMap.getD, h]
    rw [hc]
    dsimp only
    split <;> first
      | exact (State.core_setCore_if s u w { c with waiting := 0 })
      | (rename_i n _; exact (State.core_setCore_if s u w { c with waiting := 0 }))

/-- Settling a core's wait counts it, and nothing else. -/
theorem State.settleWait_reg (u : Nat) (r : Reg) (i : Nat) (h : r ≠ .FAB_FC_CNT_STALL_RECV ∧ r ≠ .FAB_FC_CNT_STALL_SEND) :
    (s.settleWait u).reg r i = s.reg r i := by
  unfold State.settleWait
  split
  · rfl
  · dsimp only
    split
    · exact State.reg_bump_ne _ _ _ _ _ _ (fun e => h.1 (congrArg Prod.fst e).symm)
    · exact State.reg_bump_ne _ _ _ _ _ _ (fun e => h.2 (congrArg Prod.fst e).symm)
    · rfl

/-- Ending a freezing core's wait touches the cores and a count. -/
theorem State.settleMaster_keeps {β : Type} (g : State → β) (h : ∀ (x : State) m c, g { x with regs := m, cores := c } = g x)
    (m : Nat) : g (s.settleMaster m) = g s := by
  unfold State.settleMaster; split
  · rfl
  · exact State.settleWait_keeps s g h _

/-- Ending a freezing core's wait counts it, and nothing else. -/
theorem State.settleMaster_reg (m : Nat) (r : Reg) (i : Nat) (h : r ≠ .FAB_FC_CNT_STALL_RECV ∧ r ≠ .FAB_FC_CNT_STALL_SEND) :
    (s.settleMaster m).reg r i = s.reg r i := by
  unfold State.settleMaster; split
  · rfl
  · exact State.settleWait_reg s _ r i h

/-- A freeze touches the collector, the frozen list, register fields and the core's wait (R30, R40). -/
theorem State.freeze_keeps {β : Type} (g : State → β)
    (h : ∀ (x : State) l m f c, g { x with logs := l, regs := m, frozen := f, cores := c } = g x) (m addr : Nat) (kept : List Nat)
    (halted : Bool) : g (s.freeze m addr kept halted) = g s := by
  unfold State.freeze
  split
  · rfl
  · dsimp only
    have hr := State.raise_keeps s g (fun x l m => h x l m x.frozen x.cores) (if m < 2 then clsAlarm else clsFault) (masterSrc m) 1
      (if m < 0x10000 then 0xFFFF else m - 0x10000) [m, addr, s.epoch]
    have hw := (State.settleMaster_keeps _ g (fun x m c => h x x.logs m x.frozen c) m).trans hr
    split
    · exact (h (State.settleMaster _ _) _ _ _ _).trans hw
    · exact (h (State.settleMaster _ _) _ _ _ _).trans hw

/-- A master that is no fawn core leaves the cores as it freezes. -/
theorem State.freeze_cores (m addr : Nat) (kept : List Nat) (halted : Bool) (h : m < 0x10000) :
    (s.freeze m addr kept halted).cores = s.cores := by
  unfold State.freeze State.settleMaster
  simp only [h, if_true]
  split
  · rfl
  · split <;> exact State.raise_keeps s (fun t => t.cores) (fun _ _ _ => rfl) _ _ _ _ _

/-- Freezing a fawn core ends its wait at most. -/
theorem State.freeze_core (u addr : Nat) (kept : List Nat) (halted : Bool) (hz : s.isFrozen (0x10000 + u) = false) (w : Nat) :
    (s.freeze (0x10000 + u) addr kept halted).core w = if w = u then { s.core u with waiting := 0 } else s.core w := by
  unfold State.freeze State.settleMaster
  have e : ¬ 0x10000 + u < 0x10000 := by omega
  simp only [hz, e, if_false, Nat.add_sub_cancel_left, Bool.false_eq_true]
  have hr : ∀ a b c d e v, State.core (s.raise a b c d e) v = s.core v := fun a b c d e v =>
    State.raise_keeps s (fun t => t.core v) (fun _ _ _ => rfl) a b c d e
  split <;>
  · refine (State.settleWait_core (s.raise _ _ _ _ _) u w).trans ?_
    simp only [hr]

/-- A frozen master is listed. -/
theorem State.freeze_frozen (m addr : Nat) (kept : List Nat) (halted : Bool) : (s.freeze m addr kept halted).isFrozen m = true := by
  unfold State.freeze
  split
  · assumption
  · dsimp only
    split <;> simp [State.isFrozen, State.setReg, State.bump]

/-- Register fields but those of R40, the merge counter and a core's waits read as before a freeze. -/
theorem State.freeze_reg (m addr : Nat) (kept : List Nat) (halted : Bool) (r : Reg) (i : Nat)
    (h : r ∉ [Reg.LOG_CNT2_MERGED, .CHIP_FROZEN_CORES_MASK, .CHIP_FROZEN_UNITS_COUNT, .FAB_FC_CNT_STALL_RECV,
      .FAB_FC_CNT_STALL_SEND]) :
    (s.freeze m addr kept halted).reg r i = s.reg r i := by
  simp only [List.mem_cons, not_or] at h
  unfold State.freeze
  split
  · rfl
  · have hr := State.raise_reg s (if m < 2 then clsAlarm else clsFault) (masterSrc m) 1
      (if m < 0x10000 then 0xFFFF else m - 0x10000) [m, addr, s.epoch] r i h.1
    have hw := (State.settleMaster_reg (s.raise _ _ _ _ _) m r i ⟨h.2.2.2.1, h.2.2.2.2.1⟩).trans hr
    dsimp only
    split
    · rw [State.reg_setReg_ne _ _ _ _ _ _ (fun e => h.2.1 (congrArg Prod.fst e).symm)]; exact hw
    · rw [State.reg_bump_ne _ _ _ _ _ _ (fun e => h.2.2.1 (congrArg Prod.fst e).symm)]; exact hw

/-! Jobs -/

/-- Ending the waits of a cluster's cores. -/
theorem State.settleCluster_keeps {β : Type} (g : State → β) (h : ∀ (x : State) m c, g { x with regs := m, cores := c } = g x)
    (k : Nat) : g (s.settleCluster k) = g s :=
  foldl_reads g _ (fun x _ => State.settleWait_keeps x g h _) _ s

/-- Clusters that leave jobs give up register fields and their cores' running (R227). -/
theorem State.freeClusters_keeps {β : Type} (g : State → β)
    (h : ∀ (x : State) m o c, g { x with regs := m, cfgOld := o, cores := c } = g x) (l : List Nat) : g (s.freeClusters l) = g s :=
  foldl_reads g State.freeCluster (fun x k => (h (x.settleCluster k) _ _ _).trans
    (State.settleCluster_keeps x g (fun y m c => h y m y.cfgOld c) k)) l s

/-- A job's end (R227). -/
theorem State.endJob_keeps {β : Type} (g : State → β)
    (h : ∀ (x : State) m o c p j, g { x with regs := m, cfgOld := o, cores := c, power := p, jobs := j } = g x) (j st status : Nat) :
    g (s.endJob j st status) = g s := by
  unfold State.endJob State.jobLeaveField
  dsimp only
  exact (h (s.freeClusters _) _ _ _ _ _).trans (State.freeClusters_keeps s g (fun x m o c => h x m o c x.power x.jobs) _)

/-- The failure of the jobs of a unit's cluster (R227). -/
theorem State.jobHit_keeps {β : Type} (g : State → β)
    (h : ∀ (x : State) m o c p j, g { x with regs := m, cfgOld := o, cores := c, power := p, jobs := j } = g x) (u status : Nat) :
    g (s.jobHit u status) = g s := by
  unfold State.jobHit
  refine foldl_reads g _ (fun x a => ?_) _ s
  split
  · exact State.endJob_keeps x g h a 5 status
  · rfl

/-- A core's state after a map over the cores that leaves a core never used. -/
theorem State.core_map (f : Nat → FawnCore → FawnCore) (hf : ∀ u, f u {} = {}) (u : Nat) :
    KMap.getD (s.cores.map fun (e : Nat × FawnCore) => (e.1, f e.1 e.2)) u {} = f u (s.core u) := by
  unfold State.core KMap.getD
  induction s.cores with
  | nil => simp [KMap.get?, hf]
  | cons e l ih =>
    obtain ⟨k, c⟩ := e
    simp only [List.map_cons, KMap.get?]
    split
    · rename_i h; subst h; simp
    · exact ih

/-- At most, cores wait no longer and running cores have stopped. -/
def CoresStop (s t : State) : Prop :=
  ∀ w, ∃ st k, t.core w = { s.core w with st := st, waiting := k } ∧ (k = (s.core w).waiting ∨ k = 0) ∧
    (st = (s.core w).st ∨ (st = .stopped ∧ (s.core w).st = .running))

theorem CoresStop.refl (s : State) : CoresStop s s := fun _ => ⟨_, _, rfl, .inl rfl, .inl rfl⟩

theorem CoresStop.trans {s t x : State} (h : CoresStop s t) (k : CoresStop t x) : CoresStop s x := by
  intro w
  obtain ⟨a, b, e, hb, ha⟩ := h w
  obtain ⟨c, d, f, hd, hc⟩ := k w
  refine ⟨c, d, by rw [f, e], ?_, ?_⟩
  · rw [e] at hd
    rcases hd with hd | hd
    · rcases hb with hb | hb
      · exact .inl (hd.trans hb)
      · exact .inr (hd.trans hb)
    · exact .inr hd
  · rw [e] at hc
    rcases hc with hc | ⟨hc, hr⟩
    · rcases ha with ha | ⟨ha, hr⟩
      · exact .inl (hc.trans ha)
      · exact .inr ⟨hc.trans ha, hr⟩
    · rcases ha with ha | ⟨ha, _⟩
      · exact .inr ⟨hc, ha ▸ hr⟩
      · rw [ha] at hr; cases hr

/-- Settling a wait stops no core. -/
theorem State.settleWait_stops (u : Nat) : CoresStop s (s.settleWait u) := by
  intro w
  rw [State.settleWait_core]
  split
  · rename_i e; subst e; exact ⟨_, _, rfl, .inr rfl, .inl rfl⟩
  · exact ⟨_, _, rfl, .inl rfl, .inl rfl⟩

/-- Nor does settling a cluster's. -/
theorem State.settleCluster_stops (k : Nat) : CoresStop s (s.settleCluster k) :=
  foldl_keeps (fun t : State => CoresStop s t) _ (fun x _ h => h.trans (State.settleWait_stops x _)) _ _ (CoresStop.refl s)

/-- A cluster's leaving a job stops cores at most. -/
theorem State.freeCluster_stops (r : Nat) : CoresStop s (s.freeCluster r) := by
  refine (State.settleCluster_stops s r).trans ?_
  unfold State.freeCluster
  generalize s.settleCluster r = s
  intro w
  have h1 := State.core_map s (fun u c => if UnitAddr.region u == r / 17 && UnitAddr.cluster u == r % 17 && c.st == .running
    then { c with st := .stopped } else c) (by intro u; rw [if_neg]; simp) w
  have h2 : (State.core { s with
      regs := s.regs.filter fun (e : (Reg × Nat) × Nat) => !clusterField r e.1
      cfgOld := s.cfgOld.map fun x => (x.1, x.2.filter fun (e : (Reg × Nat) × Nat) => !clusterField r e.1)
      cores := s.cores.map fun (e : Nat × FawnCore) =>
        if UnitAddr.region e.1 == r / 17 && UnitAddr.cluster e.1 == r % 17 && e.2.st == .running
          then (e.1, { e.2 with st := .stopped }) else e } w) = KMap.getD (s.cores.map fun (e : Nat × FawnCore) =>
      (e.1, if UnitAddr.region e.1 == r / 17 && UnitAddr.cluster e.1 == r % 17 && e.2.st == .running
        then { e.2 with st := .stopped } else e.2)) w {} := by
    unfold State.core
    simp only
    congr 1
    apply List.map_congr_left
    intro e _
    split <;> rfl
  dsimp only
  rw [h2, h1]
  split
  · rename_i h; simp at h; exact ⟨_, _, rfl, .inl rfl, .inr ⟨rfl, h.2⟩⟩
  · exact ⟨_, _, rfl, .inl rfl, .inl rfl⟩

/-- The failure of a cluster's jobs stops cores at most. -/
theorem State.jobHit_stops (u status : Nat) : CoresStop s (s.jobHit u status) := by
  refine foldl_keeps (fun t : State => CoresStop s t) _ (fun x a h => ?_) _ _ (CoresStop.refl s)
  split
  · refine h.trans ?_
    show CoresStop x (x.freeClusters (x.jobs.getD a {}).joined)
    exact foldl_keeps (fun t : State => CoresStop x t) State.freeCluster (fun y b h => h.trans (State.freeCluster_stops y b)) _ _
      (CoresStop.refl x)
  · exact h

/-- A register field that software does not write survives its cluster's leaving a job. -/
theorem State.freeCluster_reg (k : Nat) (r : Reg) (i : Nat) (h : r.info.acc ≠ .rw)
    (hw : r ≠ .FAB_FC_CNT_STALL_RECV ∧ r ≠ .FAB_FC_CNT_STALL_SEND) : (s.freeCluster k).reg r i = s.reg r i := by
  have hs : (s.settleCluster k).reg r i = s.reg r i :=
    foldl_reads (fun t : State => t.reg r i) _ (fun x _ => State.settleWait_reg x _ r i hw) _ s
  rw [← hs]
  unfold State.freeCluster
  generalize s.settleCluster k = s
  have hm : ∀ m : RegMap, KMap.get? (m.filter fun (e : (Reg × Nat) × Nat) => !clusterField k e.1) (r, i) = m.get? (r, i) := by
    intro m
    induction m with
    | nil => rfl
    | cons e m ih =>
      obtain ⟨q, v⟩ := e
      simp only [List.filter_cons, KMap.get?]
      by_cases hq : q = (r, i)
      · subst hq
        have : clusterField k (r, i) = false := by unfold clusterField; simp [h]
        simp [this, KMap.get?]
      · split
        · simp [KMap.get?, hq, ih]
        · exact ih
  show (KMap.get? (s.regs.filter _) (r, i)).getD _ = _
  rw [hm]; rfl

/-- Register fields that software does not write, but those of the job, read as before a job's failure. -/
theorem State.jobHit_reg (u status : Nat) (r : Reg) (i : Nat) (h : r.info.acc ≠ .rw)
    (hj : r ∉ [Reg.NSL_JOB_STATE_STATE, .NSL_JOB_STATE_STATUS, .NSL_JOB_STATE_CLUSTERS, .NSL_JOB_LIMIT_LEAVE,
      .FAB_FC_CNT_STALL_RECV, .FAB_FC_CNT_STALL_SEND]) :
    (s.jobHit u status).reg r i = s.reg r i := by
  simp only [List.mem_cons, not_or] at hj
  unfold State.jobHit
  refine foldl_reads (fun t : State => t.reg r i) _ (fun x a => ?_) _ s
  split
  · unfold State.endJob State.jobLeaveField
    dsimp only
    rw [State.reg_setReg_ne _ _ _ _ _ _ (fun e => hj.2.2.2.1 (congrArg Prod.fst e).symm),
      State.reg_setReg_ne _ _ _ _ _ _ (fun e => hj.2.2.1 (congrArg Prod.fst e).symm),
      State.reg_setReg_ne _ _ _ _ _ _ (fun e => hj.2.1 (congrArg Prod.fst e).symm),
      State.reg_setReg_ne _ _ _ _ _ _ (fun e => hj.1 (congrArg Prod.fst e).symm)]
    show (x.freeClusters _).reg r i = _
    exact foldl_reads (fun t : State => t.reg r i) State.freeCluster (fun y b => State.freeCluster_reg y b r i h ⟨hj.2.2.2.2.1, hj.2.2.2.2.2.1⟩) _ x
  · rfl

end Sys2Proof.Machine
end

