-- ==== Sys2Proof/Laws/Fawn.lean ====
section
/-! SUPPORT. What the shared operations of the fawn instructions do, said once. -/
namespace Sys2Proof.Machine
open Sys2Proof Sys2Proof.Safety

variable {s : State} {u : Nat}

/-- A core that can begin an instruction runs it. -/
theorem State.fawn_runs (h : CoreGoes s u) (f : FawnCore → State) : s.fawn u f = f (s.core u) := by
  simp [State.fawn, h.2.1, h.2.2]

/-- A core that cannot begin an instruction leaves the state. -/
theorem State.fawn_waits (h : s.coreReady u = false) (f : FawnCore → State) : s.fawn u f = s := by
  simp [State.fawn, h]

/-- Completing an instruction. -/
theorem State.retireAt_completed (c : FawnCore) (n pc : Nat) : s.retireAt u c n pc = completed s u c n pc := by
  unfold State.retireAt State.fetchFixed completed retiredRegs
  by_cases h : progBase u + 4 * c.pc ∈ s.ce
  · rw [if_pos (show s.ce.contains (progBase u + 4 * c.pc) = true from List.contains_iff_mem.mpr h), if_pos h]
    have e : ((s.bump .FAB_FC_CNT_ECC_CORRECTED u).setCore u { c with pc := pc, readyAt := s.cycle + n, waiting := 0 }).reg
        .FAB_FC_CNT_INSTR_COUNT u = s.reg .FAB_FC_CNT_INSTR_COUNT u :=
      State.reg_bump_ne s .FAB_FC_CNT_ECC_CORRECTED .FAB_FC_CNT_INSTR_COUNT u u 1 (by simp)
    show State.setReg ((s.bump .FAB_FC_CNT_ECC_CORRECTED u).setCore u { c with pc := pc, readyAt := s.cycle + n, waiting := 0 }) _ _
      (State.reg _ .FAB_FC_CNT_INSTR_COUNT u + 1) = _
    rw [e]
    rfl
  · rw [if_neg (show ¬ s.ce.contains (progBase u + 4 * c.pc) = true from fun k => h (List.contains_iff_mem.mp k)), if_neg h]
    rfl

/-- Completing an instruction short of the last program word. -/
theorem State.retire_completed {c : FawnCore} (h : c.pc < 4095) (n : Nat) :
    s.retire u c n = completed s u c n (c.pc + 1) := by
  simp [State.retire, h, State.retireAt_completed]

/-- A command that completes an instruction answers that. -/
theorem awake_completed (h : Awake s) (c : FawnCore) (n pc : Nat) :
    awake s (completed s u c n pc) = .next (completed s u c n pc) := by
  rw [awake_running h]; rfl

/-- A scalar write keeps the PC. -/
@[simp] theorem coreSetS_pc (c : FawnCore) (d : Fin 32) (v : Word) : (coreSetS c d v).pc = c.pc := by
  unfold coreSetS; split <;> rfl

/-- A vector write keeps the PC. -/
@[simp] theorem coreSetV_pc (c : FawnCore) (d : Fin 8) (v : Payload) : (coreSetV c d v).pc = c.pc := rfl

/-- With no injected failure waiting, a check changes nothing. -/
theorem State.fawnCheck_clean (h : NotInjected s u) (c : FawnCore) (w : Nat) : s.fawnCheck u c w = (c, s) := by
  unfold NotInjected KMap.getD at h
  unfold State.fawnCheck
  cases hg : s.ints.inject.get? (u, 3) with
  | none => rfl
  | some n =>
    cases n with
    | zero => rfl
    | succ k => simp [hg] at h

/-- A checked scalar instruction. -/
theorem fawnAlu_answer (h : CoreRuns s u) (hi : NotInjected s u) (d : Fin 32) (n : Nat) (f : FawnCore → Word) :
    awake s (s.fawnAlu u d n f) = scalarResult s u d (f (s.core u)) n := by
  unfold State.fawnAlu
  rw [State.fawn_runs h.1]
  simp only [State.fawnCheck_clean hi]
  rw [State.retire_completed (by simpa using h.2)]
  simp only [coreSetS_pc]
  exact awake_completed h.1.1 _ _ _

/-- An unchecked scalar instruction. -/
theorem fawnScalar_answer (h : CoreRuns s u) (d : Fin 32) (n : Nat) (f : FawnCore → Word) :
    awake s (s.fawnScalar u d n f) = scalarResult s u d (f (s.core u)) n := by
  unfold State.fawnScalar
  rw [State.fawn_runs h.1, State.retire_completed (by simpa using h.2)]
  simp only [coreSetS_pc]
  exact awake_completed h.1.1 _ _ _

/-- A vector instruction. -/
theorem fawnVec_answer (h : CoreRuns s u) (hi : NotInjected s u) (d : Fin 8) (w : LaneW) (k : Bool) (n : Nat)
    (f : FawnCore → Payload) : awake s (s.fawnVec u d w k n f) = vectorResult s u d (f (s.core u)) n := by
  unfold State.fawnVec
  rw [State.fawn_runs h.1]
  simp only [State.fawnCheck_clean hi, ite_self]
  rw [State.retire_completed (by simpa using h.2)]
  simp only [coreSetV_pc]
  exact awake_completed h.1.1 _ _ _

/-! Faults -/

/-- Freezing a core whose instruction faulted, and failing the jobs of its cluster (R30, R185, R227). -/
theorem State.faultTail_leaves (z : State) (u addr : Nat) (hz : z.isFrozen (0x10000 + u) = false) (hzu : (z.core u).st = .frozen) :
   let x := (z.freeze (0x10000 + u) addr).jobHit u 0x5301
   x.core u = { z.core u with waiting := 0 } ∧ x.isFrozen (0x10000 + u) = true ∧ x.mem = z.mem ∧
   (∀ w, w ≠ u → CoreMayStop (z.core w) (x.core w)) ∧
   (∀ r i, r.info.acc ≠ .rw → r ∉ [Reg.NSL_JOB_STATE_STATE, .NSL_JOB_STATE_STATUS, .NSL_JOB_STATE_CLUSTERS, .NSL_JOB_LIMIT_LEAVE,
      .FAB_FC_CNT_STALL_RECV, .FAB_FC_CNT_STALL_SEND] → r ∉ [Reg.LOG_CNT2_MERGED, .CHIP_FROZEN_CORES_MASK,
      .CHIP_FROZEN_UNITS_COUNT, .FAB_FC_CNT_STALL_RECV, .FAB_FC_CNT_STALL_SEND] → x.reg r i = z.reg r i) := by
  intro x
  have fz := State.freeze_frozen z (0x10000 + u) addr [] false
  have fr := State.freeze_reg z (0x10000 + u) addr [] false
  have fc := State.freeze_core z u addr [] false hz
  have fm : (z.freeze (0x10000 + u) addr).mem = z.mem := State.freeze_keeps z State.mem (fun _ _ _ _ _ => rfl) _ _ _ _
  revert x fz fr fc fm
  generalize z.freeze (0x10000 + u) addr = f
  intro x fz fr fc fm
  have st := State.jobHit_stops f u 0x5301
  have jf := State.jobHit_keeps f State.frozen (fun _ _ _ _ _ _ => rfl) u 0x5301
  have jm := State.jobHit_keeps f State.mem (fun _ _ _ _ _ _ => rfl) u 0x5301
  have jr := State.jobHit_reg f u 0x5301
  revert x st jf jr jm
  generalize f.jobHit u 0x5301 = j
  intro x st jf jm jr
  refine ⟨?_, ?_, ?_, ?_, ?_⟩
  · obtain ⟨a, b, e, hb, ha⟩ := st u
    rw [fc, if_pos rfl] at e hb ha
    show j.core u = _
    rw [e]
    rcases ha with ha | ⟨_, hr⟩
    · rw [ha]; rcases hb with hb | hb <;> rw [hb]
    · rw [show ({ z.core u with waiting := 0 } : FawnCore).st = (z.core u).st from rfl, hzu] at hr; cases hr
  · show State.isFrozen j _ = true
    unfold State.isFrozen; rw [jf]; exact fz
  · exact jm.trans fm
  · intro w hw
    have h := st w
    rw [fc, if_neg hw] at h
    exact h
  · intro r i a b c
    exact (jr r i a b).trans (fr r i c)

/-- What a fawn fault of a core that is not frozen leaves (R185). -/
theorem State.fawnFault_leaves (s : State) (u code addr) (hf : s.isFrozen (0x10000 + u) = false) (hr : (s.core u).pc ≤ 4095)
    (hc : code < 16) (x : State) (hx : x = s.fawnFault u code addr) :
   x.core u = { s.core u with st := .frozen, waiting := 0 } ∧ x.isFrozen (0x10000 + u) = true ∧ x.reg .FAB_FC_FAULT_CODE u = code ∧
   x.reg .FAB_FC_FAULT_PC u = (s.core u).pc ∧ x.reg .FAB_FC_FAULT_ADDR u = addr % 2^40 ∧ x.mem = s.mem ∧
   (∀ w, w ≠ u → CoreMayStop (s.core w) (x.core w)) := by
  unfold State.fawnFault at hx
  simp only at hx
  have t := State.faultTail_leaves ((((s.setReg .FAB_FC_FAULT_CODE u code).setReg .FAB_FC_FAULT_PC u (s.core u).pc).setReg
    .FAB_FC_FAULT_ADDR u addr).setCore u { s.core u with st := .frozen }) u (addr % 2^40) hf (by rw [State.core_setCore])
  simp only [← hx] at t
  obtain ⟨t1, t2, t3, t4, t5⟩ := t
  refine ⟨?_, t2, ?_, ?_, ?_, t3, ?_⟩
  · rw [t1, State.core_setCore]
  · rw [t5 _ _ (by decide) (by decide) (by decide)]
    show State.reg (((s.setReg .FAB_FC_FAULT_CODE u code).setReg .FAB_FC_FAULT_PC u (s.core u).pc).setReg .FAB_FC_FAULT_ADDR u addr) _ _ = _
    rw [State.reg_setReg_ne _ _ _ _ _ _ (by simp), State.reg_setReg_ne _ _ _ _ _ _ (by simp), State.reg_setReg]
    simp [Reg.width, Reg.info]; omega
  · rw [t5 _ _ (by decide) (by decide) (by decide)]
    show State.reg (((s.setReg .FAB_FC_FAULT_CODE u code).setReg .FAB_FC_FAULT_PC u (s.core u).pc).setReg .FAB_FC_FAULT_ADDR u addr) _ _ = _
    rw [State.reg_setReg_ne _ _ _ _ _ _ (by simp), State.reg_setReg]
    simp [Reg.width, Reg.info]; omega
  · rw [t5 _ _ (by decide) (by decide) (by decide)]
    show State.reg (((s.setReg .FAB_FC_FAULT_CODE u code).setReg .FAB_FC_FAULT_PC u (s.core u).pc).setReg .FAB_FC_FAULT_ADDR u addr) _ _ = _
    rw [State.reg_setReg]; rfl
  · intro w hw
    have h := t4 w hw
    rw [State.core_setCore_ne _ _ _ _ (Ne.symm hw)] at h
    exact h

end Sys2Proof.Machine
end

