-- ==== Sys2Proof/Laws/Mem.lean ====
section
/-! SUPPORT. The byte stores: reading after writing, the bytes a write leaves alone, and that every operation keeps the canonical
form. -/
namespace Sys2Proof.Machine
open Sys2Proof

variable {m : List Host.Cell} {lo a b n : Nat} {v : BitVec 8}

/-- A write to an empty store. -/
theorem cellPut_nil : cellPut [] a v = if v = 0#8 then [] else [(a, v)] := rfl

/-- A write at, before or behind the first entry. -/
theorem cellPut_cons {x : Nat} {y : BitVec 8} : cellPut ((x, y) :: m) a v =
    if a < x then (if v = 0#8 then (x, y) :: m else (a, v) :: (x, y) :: m)
    else if a = x then (if v = 0#8 then m else (a, v) :: m) else (x, y) :: cellPut m a v := rfl

/-- The form from a bound is the form from any lower one. -/
theorem cellsWfFrom_mono (h : cellsWfFrom lo m = true) (k : b ≤ lo) : cellsWfFrom b m = true := by
  cases m with
  | nil => rfl
  | cons c m =>
    obtain ⟨x, y⟩ := c
    simp only [cellsWfFrom, Bool.and_eq_true, decide_eq_true_eq] at h ⊢
    exact ⟨⟨by omega, h.1.2⟩, h.2⟩

/-- Below the bound nothing is listed. -/
theorem cellGet_below (h : cellsWfFrom lo m = true) (k : a < lo) : cellGet m a = 0 := by
  cases m with
  | nil => rfl
  | cons c m =>
    obtain ⟨x, y⟩ := c
    simp only [cellsWfFrom, Bool.and_eq_true, decide_eq_true_eq] at h
    have hx : lo ≤ x := h.1.1
    simp [cellGet, show ¬ x = a by omega, show a < x by omega]

/-- A write keeps the canonical form. -/
theorem cellPut_wf (h : cellsWfFrom lo m = true) (k : lo ≤ a) : cellsWfFrom lo (cellPut m a v) = true := by
  induction m generalizing lo with
  | nil => by_cases hv : v = 0#8 <;> simp [cellPut_nil, cellsWfFrom, hv, k]
  | cons c m ih =>
    obtain ⟨x, y⟩ := c
    have h' := h
    simp only [cellsWfFrom, Bool.and_eq_true, decide_eq_true_eq] at h
    obtain ⟨⟨hx, hy⟩, hm⟩ := h
    simp only [cellPut_cons]
    by_cases hax : a < x
    · by_cases hv : v = 0#8
      · simpa [hax, hv] using h'
      · simp only [hax, hv, if_true, if_false, cellsWfFrom, Bool.and_eq_true, decide_eq_true_eq]
        exact ⟨⟨k, by simp [hv]⟩, ⟨hax, hy⟩, hm⟩
    · by_cases he : a = x
      · subst he
        by_cases hv : v = 0#8
        · simpa [hv] using cellsWfFrom_mono hm (by omega)
        · simp only [Nat.lt_irrefl, if_false, if_true, hv, cellsWfFrom, Bool.and_eq_true, decide_eq_true_eq]
          exact ⟨⟨k, by simp [hv]⟩, hm⟩
      · simp only [hax, he, if_false, cellsWfFrom, Bool.and_eq_true, decide_eq_true_eq]
        exact ⟨⟨hx, hy⟩, ih hm (by omega)⟩

/-- What a byte reads after a write: the byte written there, else what it read before. -/
theorem cellGet_put (h : cellsWfFrom lo m = true) : cellGet (cellPut m a v) b = if b = a then v else cellGet m b := by
  induction m generalizing lo with
  | nil =>
    by_cases hv : v = 0#8
    · simp [cellPut_nil, cellGet, hv]
    · by_cases hb : b = a
      · simp [cellPut_nil, cellGet, hv, hb]
      · simp [cellPut_nil, cellGet, hv, hb, show ¬ a = b by omega]
  | cons c m ih =>
    obtain ⟨x, y⟩ := c
    simp only [cellsWfFrom, Bool.and_eq_true, decide_eq_true_eq] at h
    obtain ⟨⟨hx, hy⟩, hm⟩ := h
    simp only [cellPut_cons]
    by_cases hax : a < x
    · simp only [hax, if_true]
      by_cases hv : v = 0#8
      · subst hv
        by_cases hb : b = a
        · subst hb
          simp [cellGet, show ¬ x = b by omega, hax]
        · simp [hb]
      · by_cases hb : b = a
        · simp [cellGet, hv, hb]
        · by_cases hba : b < a
          · simp [cellGet, hv, hb, hba, show ¬ a = b by omega, show ¬ x = b by omega, show b < x by omega]
          · simp [cellGet, hv, hb, hba, show ¬ a = b by omega]
    · simp only [hax, if_false]
      by_cases he : a = x
      · subst he
        simp only [if_true]
        by_cases hb : b = a
        · subst hb
          by_cases hv : v = 0#8
          · simp [hv, cellGet_below hm (Nat.lt_succ_self b)]
          · simp [hv, cellGet]
        · by_cases hba : b < a
          · by_cases hv : v = 0#8
            · simp [hv, hb, cellGet, show ¬ a = b by omega, hba, cellGet_below hm (show b < a + 1 by omega)]
            · simp [hv, hb, cellGet, show ¬ a = b by omega, hba]
          · by_cases hv : v = 0#8 <;> simp [hv, hb, cellGet, show ¬ a = b by omega, hba]
      · simp only [he, if_false, cellGet]
        by_cases hxb : x = b
        · simp [hxb, show ¬ b = a by omega]
        · by_cases hbx : b < x
          · simp [hxb, hbx, show ¬ b = a by omega]
          · simp [hxb, hbx, ih hm]

/-- A write of several bytes keeps the canonical form. -/
theorem cellsWrite_wf (bs : List Nat) (h : Memory.wf m = true) : Memory.wf (cellsWrite m a bs) = true := by
  induction bs generalizing m a with
  | nil => exact h
  | cons x bs ih => exact ih (cellPut_wf h (Nat.zero_le _))

/-- What a byte reads after a write of several: the byte written there, else what it read before. -/
theorem cellGet_cellsWrite (bs : List Nat) (h : Memory.wf m = true) :
    cellGet (cellsWrite m a bs) b = if a ≤ b ∧ b < a + bs.length then BitVec.ofNat 8 (bs.getD (b - a) 0) else cellGet m b := by
  induction bs generalizing m a with
  | nil => simp [cellsWrite, show ¬ (a ≤ b ∧ b < a) by omega]
  | cons x bs ih =>
    rw [cellsWrite, ih (cellPut_wf h (Nat.zero_le _)), cellGet_put h]
    by_cases hb : b = a
    · subst hb
      simp [show ¬ (b + 1 ≤ b) by omega]
    · by_cases hc : a + 1 ≤ b ∧ b < a + 1 + bs.length
      · obtain ⟨j, rfl⟩ : ∃ j, b = a + 1 + j := ⟨b - (a + 1), by omega⟩
        have e1 : a + 1 + j - (a + 1) = j := by omega
        have e2 : a + 1 + j - a = j + 1 := by omega
        rw [if_pos hc, if_pos ⟨by omega, by simp; omega⟩, e1, e2]
        rfl
      · rw [if_neg hc, if_neg hb, if_neg (by simp; omega)]

/-- Reading the bytes just written gives them. -/
theorem cellsRead_cellsWrite (bs : List Nat) (h : Memory.wf m = true) (k : ∀ x ∈ bs, x < 256) :
    cellsRead (cellsWrite m a bs) a bs.length = bs := by
  suffices H : ∀ (n : Nat) (pre suf : List Nat), bs = pre ++ suf → suf.length = n →
      cellsRead (cellsWrite m a bs) (a + pre.length) n = suf by
    simpa using H bs.length [] bs rfl rfl
  intro n
  induction n with
  | zero => intro pre suf _ hs; simp [cellsRead, List.eq_nil_of_length_eq_zero hs]
  | succ n ih =>
    intro pre suf hb hs
    obtain ⟨x, suf, rfl⟩ : ∃ x s, suf = x :: s := by
      cases suf with
      | nil => simp at hs
      | cons x s => exact ⟨x, s, rfl⟩
    have hn := ih (pre ++ [x]) suf (by simp [hb]) (by simpa using hs)
    have hx : x < 256 := k x (by simp [hb])
    rw [cellsRead, cellGet_cellsWrite bs h, if_pos ⟨by omega, by simp [hb]⟩]
    have hd : bs.getD (a + pre.length - a) 0 = x := by
      rw [show a + pre.length - a = pre.length by omega, hb]
      simp
    rw [hd, BitVec.toNat_ofNat, Nat.mod_eq_of_lt hx]
    simpa [Nat.add_assoc] using hn

/-- Leaving out entries keeps the canonical form. -/
theorem filter_wf (p : Host.Cell → Bool) (h : cellsWfFrom lo m = true) : cellsWfFrom lo (m.filter p) = true := by
  induction m generalizing lo with
  | nil => rfl
  | cons c m ih =>
    obtain ⟨x, y⟩ := c
    simp only [cellsWfFrom, Bool.and_eq_true, decide_eq_true_eq] at h
    obtain ⟨⟨hx, hy⟩, hm⟩ := h
    by_cases hp : p (x, y) = true
    · simp only [List.filter_cons, hp, if_true, cellsWfFrom, Bool.and_eq_true, decide_eq_true_eq]
      exact ⟨⟨hx, hy⟩, ih hm⟩
    · simp only [List.filter_cons, hp]
      exact cellsWfFrom_mono (ih hm) (by omega)

/-- Clearing a range keeps the canonical form. -/
theorem cellsClear_wf (h : Memory.wf m = true) : Memory.wf (cellsClear m a n) = true := filter_wf _ h

/-- What a byte reads after a range was cleared. -/
theorem cellGet_clear (h : cellsWfFrom lo m = true) :
    cellGet (cellsClear m a n) b = if a ≤ b ∧ b < a + n then 0 else cellGet m b := by
  induction m generalizing lo with
  | nil => simp [cellsClear, cellGet]
  | cons c m ih =>
    obtain ⟨x, y⟩ := c
    simp only [cellsWfFrom, Bool.and_eq_true, decide_eq_true_eq] at h
    obtain ⟨_, hm⟩ := h
    have hi := ih hm
    have hz : ∀ q, q < x + 1 → cellGet (cellsClear m a n) q = 0 := fun q hq => cellGet_below (filter_wf _ hm) hq
    by_cases hp : a ≤ x ∧ x < a + n
    · have e : cellsClear ((x, y) :: m) a n = cellsClear m a n := by simp [cellsClear, hp.1, hp.2]
      rw [e, hi]
      by_cases hb : a ≤ b ∧ b < a + n
      · simp [hb]
      · have hxb : ¬ x = b := fun q => hb (q ▸ hp)
        by_cases hlt : b < x
        · simp [hb, cellGet, hxb, hlt, cellGet_below hm (show b < x + 1 by omega)]
        · simp [hb, cellGet, hxb, hlt]
    · have e : cellsClear ((x, y) :: m) a n = (x, y) :: cellsClear m a n := by
        simp only [cellsClear, List.filter_cons]
        rw [if_pos (by simp; omega)]
      rw [e]
      simp only [cellGet]
      by_cases hxb : x = b
      · subst hxb; simp [hp]
      · by_cases hlt : b < x
        · simp [hxb, hlt]
        · simp [hxb, hlt, hi]

variable {s : State}

/-- Storing bytes of internal memory keeps both stores in form. -/
theorem State.wr_memOk (bs : List Nat) (h : Safety.MemOk s) : Safety.MemOk (s.wr a bs) := ⟨cellsWrite_wf bs h.1, h.2⟩

/-- Storing bytes of the host window keeps both stores in form. -/
theorem State.winWr_memOk (bs : List Nat) (h : Safety.MemOk s) : Safety.MemOk (s.winWr a bs) := ⟨h.1, cellsWrite_wf bs h.2⟩

/-- A copy within internal memory keeps both stores in form. -/
theorem State.copyBytes_memOk {src dst : Nat} (h : Safety.MemOk s) : Safety.MemOk (s.copyBytes src dst n) := by
  refine ⟨?_, h.2⟩
  suffices H : ∀ (l x : List Host.Cell), Memory.wf x = true →
      Memory.wf (l.foldl (fun (m : List Host.Cell) c => cellPut m (dst + (c.1 - src)) c.2) x) = true from H _ _ (cellsClear_wf h.1)
  intro l
  induction l with
  | nil => exact fun _ h => h
  | cons c l ih => exact fun x h => ih _ (cellPut_wf h (Nat.zero_le _))

/-- Whatever leaves the two stores alone keeps them in form. -/
theorem memOk_of_same {t : State} (h : Safety.MemOk s) (hm : t.mem = s.mem) (hw : t.win = s.win) : Safety.MemOk t := by
  unfold Safety.MemOk; rw [hm, hw]; exact h

/-- Register writes, counts and traffic leave both stores alone. -/
theorem State.traffic_memOk (cls : Nat) (h : Safety.MemOk s) : Safety.MemOk (s.traffic cls n) := by
  unfold State.traffic
  by_cases hc : cls == 0 <;> simp only [hc] <;> exact memOk_of_same h rfl rfl

/-- Writing the stack keeps both stores in form. -/
theorem State.stackWrite_memOk (bs : List Nat) (cls : Nat) (h : Safety.MemOk s) : Safety.MemOk (s.stackWrite a bs cls) :=
  State.traffic_memOk cls (memOk_of_same (State.wr_memOk bs h) rfl rfl)

/-- The memory after reset lists nothing. -/
theorem reset_memOk : Safety.MemOk State.reset := ⟨rfl, rfl⟩

end Sys2Proof.Machine
end

