-- ==== Sys2Proof/Tests/Slice0.lean ====
section
/-! SUPPORT. Tests of the model: ill-formed commands refused, examples of the spec, and for every obligation a state and operands
that meet its hypotheses. Expected values are the spec's or worked out by hand from its rules. -/
namespace Sys2Proof.Tests
open Sys2Proof Sys2Proof.Machine Sys2Proof.Safety
-- One theorem is elaborated after the other, so that no more threads wait on the kernel than memory allows.
set_option Elab.async false

/-! ### Small states -/

/-- A running fawn core at address 0. -/
def fawn (c : FawnCore := {}) (rs : RegMap := []) : State := { cores := [(0, { c with st := .running })], regs := rs }

/-- A state with register fields set. -/
def withRegs (rs : RegMap) : State := { regs := rs }

/-- The ordinary command of a slot heads its queue. -/
def cmd (op : Nat) (params : List Nat := []) (rs : RegMap := []) : State :=
  { regs := rs, host := { busy := [(3, { slot := 3, opcode := op, plen := params.length, params := params })], cmdQ := [3], handed := [3] } }

/-- A loader command heads the loader's queue. -/
def ldr (op : Nat) (params : List Nat := []) (rs : RegMap := []) : State :=
  { regs := rs, host := { busy := [(3, { slot := 3, opcode := op, plen := params.length, params := params })], loaderQ := [3] } }

/-- A ROM command stands in the boot slot. -/
def rom (op : Nat) (params : List Nat := []) (rs : RegMap := []) : State :=
  { regs := rs, host := { busy := [(64, { slot := 64, opcode := op, plen := params.length, params := params })] } }

/-- The state a command leads to. -/
def after (c : Instr) (s : State) : State := match exec c s with
  | .next t => t
  | _ => {}

/-! ### Ill-formed commands are refused -/

theorem test_wf_core : (Instr.add 2 1 1 1).wf = false ∧ (Instr.add 0 1 1 1).wf = true := by decide
theorem test_wf_core_clz : (Instr.clz 15 1 1).wf = false := by decide
theorem test_wf_core_load : (Instr.ldw 2 1 1 0).wf = false := by decide
theorem test_wf_core_branch : (Instr.beq 7 1 1 0).wf = false := by decide
theorem test_wf_core_recv : (Instr.recv 12 1 1 0 0).wf = false := by decide
theorem test_wf_core_vector : (Instr.vsort 2 0 0 .l32).wf = false := by decide
theorem test_wf_core_system : (Instr.wait 0x8000 1).wf = false := by decide
theorem test_wf_engine : (Instr.fire 0).wf = false ∧ (Instr.fire 2).wf = true := by decide
theorem test_wf_unit : (Instr.readyFire 15).wf = false ∧ (Instr.readyFire 14).wf = true := by decide
theorem test_wf_steward : (Instr.fabScCnt 0 0 0).wf = false ∧ (Instr.fabScCnt 15 0 (2 ^ 32)).wf = false ∧ (Instr.stewardScrub 15 .none).wf = true := by
  decide
theorem test_wf_slot : (Instr.commit 65).wf = false ∧ (Instr.commit 64).wf = true := by decide
theorem test_wf_word : (Instr.chipSysid (2 ^ 64)).wf = false ∧ (Instr.segmentComplete (2 ^ 32)).wf = false := by decide
theorem test_wf_address : (Instr.registerWrite (2 ^ 40) 0 0 1).wf = false ∧ (Instr.poke 0 (2 ^ 64) 0).wf = false := by decide
theorem test_wf_frame_seq : (Instr.ack 0 { seq := 65536 }).wf = false := by decide
theorem test_wf_frame_byte : (Instr.ack 0 { payload := [256] }).wf = false := by decide
theorem test_wf_frame_crc : (Instr.ack 0 { crc := 2 ^ 32 }).wf = false := by decide
theorem test_wf_frame_ago : (Instr.sync 0 {} 4097).wf = false ∧ (Instr.sync 0 {} 4096).wf = true := by decide
theorem test_wf_column : (Instr.rd16 0 0 2048).wf = false ∧ (Instr.rd16 0 0 2047).wf = true := by decide
theorem test_wf_row : (Instr.act 0 0 65536).wf = false ∧ (Instr.act 0 0 65535).wf = true := by decide
theorem test_wf_burst : (Instr.wr16 0 0 0 []).wf = false ∧ (Instr.wr32 0 0 0 (List.replicate 32 0)).wf = false ∧
    (Instr.wr32 0 0 0 (List.replicate 64 255)).wf = true := by decide +kernel
theorem test_wf_mask : (Instr.mwr 0 0 0 (List.replicate 32 0) (2 ^ 32)).wf = false := by decide
theorem test_wf_fifo : (Instr.mpc 0 (.writeFifo [0])).wf = false ∧ (Instr.mpc 0 .zqStart).wf = true := by decide
theorem test_wf_mode_register : (Instr.mrw 0 256 0).wf = false ∧ (Instr.mrr 0 256).wf = false := by decide
theorem test_wf_marker : (Instr.marker 0 []).wf = false := by decide
theorem test_wf_thermal : (Instr.thermalSample []).wf = false ∧ (Instr.thermalSample (List.replicate 16 none)).wf = true := by decide
theorem test_wf_summary : (Instr.summary 0).wf = false ∧ (Instr.summary 5).wf = false ∧ (Instr.summary 4).wf = true := by decide
theorem test_wf_leave : (Instr.leaveRequest 0 0 none 0).wf = false ∧ (Instr.leaveRelease 6 0).wf = false ∧
    (Instr.leaveRequest 2 0 (some 8) 0).wf = false ∧ (Instr.leaveRequest 2 0 (some 7) 2047).wf = true := by decide
theorem test_wf_refresh : (Instr.refresh 256).wf = false := by decide
theorem test_wf_lpi : (Instr.lpi 0 (2 ^ 32)).wf = false ∧ (Instr.idle 0 false 256).wf = false := by decide
theorem test_wf_edges : (Instr.ppsEdge 65).wf = false ∧ (Instr.trigEdge 0 (2 ^ 64)).wf = false := by decide
theorem test_wf_straps : (Instr.resetRelease 4 false).wf = false ∧ (Instr.resetRelease 3 true).wf = true := by decide
theorem test_wf_helper : (Instr.helper [] 0).wf = false ∧ (Instr.devkey [] 0).wf = false := by decide
theorem test_wf_image : (Instr.image 1 [] 0).wf = false ∧ (Instr.image 1 [7] 0).wf = true := by decide
theorem test_wf_sequencer : (Instr.seqMismatch 0xFF11 false).wf = false ∧ (Instr.seqMismatch 0xFF10 false).wf = true := by decide
theorem test_wf_job_step : (Instr.jobStepEnd 0 (List.replicate 137 []) []).wf = false := by decide +kernel

/-! ### Examples of the spec -/

/-- Chapter 6: DIV 7, 2 gives 4 with remainder −1, and DIV −7, 2 gives −4 with remainder 1. -/
theorem test_division_rounds : divS 7#32 2#32 = 4#32 ∧ 7#32 - divS 7#32 2#32 * 2#32 = -1#32 ∧ divS (-7#32) 2#32 = -4#32 ∧
    -7#32 - divS (-7#32) 2#32 * 2#32 = 1#32 := by decide

/-- Chapter 13, worked example: the first word of the stray read of 0x1010_1000. -/
theorem test_pattern_word : patternWord patNotStaged 0x10101000 = 0x5AD5020010101000 := by decide

/-- Chapter 4, Table "Output stage, block 0": channels 0, 1 and 3, and the two that need an escape. -/
theorem test_output_stage : roundShift 32079872 (-19) = 61 ∧ roundShift (-5505024) (-19) = -11 ∧ roundShift 1310720 (-19) = 3 ∧
    (let c := State.eldCfg {} [((.ELD_PASS_OUT_FMT, 2), 0), ((.ELD_PASS_ESC_EN, 2), 1)] 2
     roundCode c (-3) 61 0 = { code := 58 } ∧ roundCode c (-3) 153 0 = { code := -128, esc := some 153 } ∧
     (roundCode c (-3) 153 4).code = 127 ∧ (roundCode c (-3) (-144) 4).code = -127) := by decide +kernel

/-- Chapter 8, Table "Gradient codes at e = −8". -/
theorem test_gradient_codes : gradExp [0x3EBD70A4, 0xBC498520, 0x3BC00000, 0xBB000000] = -8 ∧
    scaledInt 0x3EBD70A4 (-8) 0 = 95 ∧ scaledInt 0xBC498520 (-8) 0 = -3 ∧ scaledInt 0x3BC00000 (-8) 0 = 2 ∧
    scaledInt 0xBB000000 (-8) 0 = -1 := by decide +kernel

/-- Chapter 12: MARK_TB = 0xFFF2_0000 read at TB 0x0000_0A3B_0010_0000 lies 1,966,080 units back. -/
theorem test_short_mark : sdiff 32 0xFFF20000 0x0010_0000 = -1966080 := by decide +kernel

/-- Chapter 17, Table "Round at cycle 8,192": the requests, and 632 units held, which leave the table's 56 free. -/
def leaveRound17 : State :=
  { cycle := 8192, regs := [((.LV_PLIMIT_UNITS, 0), 1200), ((.LV_RESERVE_RESTORE, 0), 16)]
    power := { pending := [{ cls := 2, req := 0x1002, units := 40, cyc := 8000 }, { cls := 3, req := 0x2001, units := 8, cyc := 8000 },
                 { cls := 3, req := 0x2003, units := 8, cyc := 8000 }, { cls := 4, req := 0x3003, units := 30, cyc := 8000 },
                 { cls := 5, req := 0x4000, units := 2, cyc := 8000 }]
               granted := [{ cls := 4, req := 0x3000, units := 590 }, { cls := 5, req := 0x4001, units := 2 },
                 { cls := 3, req := 0x2000, units := 40 }] } }

/-- Three requests are granted from cycle 8,200; the one that does not fit ends the round. -/
theorem test_leave_round : ((after .leaveRound leaveRound17).power.granted.drop 3).map (fun g => (g.req, g.cyc)) =
    [(0x1002, 8200), (0x2001, 8200), (0x2003, 8200)] := by decide +kernel

/-! ### Single commands -/

/-- The scalar register a fawn command leaves. -/
def sAfter (c : Instr) (s : State) (i : Fin 32) : Word := coreS ((after c s).core 0) i

theorem test_add_wraps : sAfter (.add 0 3 1 2) (fawn { sregs := [(1, 0xFFFFFFFF), (2, 2)] }) 3 = 1 := by decide +kernel
theorem test_add_discards_s0 : sAfter (.add 0 0 1 2) (fawn { sregs := [(1, 5), (2, 2)] }) 0 = 0 := by decide +kernel
theorem test_sub_source_is_destination : sAfter (.sub 0 1 1 2) (fawn { sregs := [(1, 5), (2, 7)] }) 1 = 0xFFFFFFFE := by decide +kernel
theorem test_sra_sign : sAfter (.sra 0 3 1 2) (fawn { sregs := [(1, 0x80000000), (2, 35)] }) 3 = 0xF0000000 := by decide +kernel
theorem test_srl_zero : sAfter (.srl 0 3 1 2) (fawn { sregs := [(1, 0x80000000), (2, 35)] }) 3 = 0x10000000 := by decide +kernel
theorem test_slt_signed : sAfter (.slt 0 3 1 2) (fawn { sregs := [(1, 0xFFFFFFFF), (2, 1)] }) 3 = 1 := by decide +kernel
theorem test_sltu_unsigned : sAfter (.sltu 0 3 1 2) (fawn { sregs := [(1, 0xFFFFFFFF), (2, 1)] }) 3 = 0 := by decide +kernel
theorem test_mulh_signed : sAfter (.mulh 0 3 1 1) (fawn { sregs := [(1, 0xFFFFFFFF)] }) 3 = 0 := by decide +kernel
theorem test_mulhu_unsigned : sAfter (.mulhu 0 3 1 1) (fawn { sregs := [(1, 0xFFFFFFFF)] }) 3 = 0xFFFFFFFE := by decide +kernel
theorem test_clz_zero : sAfter (.clz 0 3 1) (fawn) 3 = 32 := by decide +kernel
theorem test_divu_by_zero : sAfter (.divu 0 3 1 2) (fawn { sregs := [(1, 9)] }) 3 = 0xFFFFFFFF := by decide +kernel
theorem test_div_least : sAfter (.div 0 3 1 2) (fawn { sregs := [(1, 0x80000000), (2, 0xFFFFFFFF)] }) 3 = 0x80000000 := by decide +kernel
theorem test_addi_sign : sAfter (.addi 0 3 1 0xFFFF) (fawn { sregs := [(1, 1)] }) 3 = 0 := by decide +kernel
theorem test_andi_zero_extends : sAfter (.andi 0 3 1 0xFFFF) (fawn { sregs := [(1, 0xFFFFFFFF)] }) 3 = 0xFFFF := by decide +kernel
theorem test_exts_field : sAfter (.exts 0 3 1 28 3) (fawn { sregs := [(1, 0x80000000)] }) 3 = 0xFFFFFFF8 := by decide +kernel
theorem test_ldb_sign : sAfter (.ldb 0 3 0 5) { fawn with mem := [(unitSpace 0 + 5, 0x80)] } 3 = 0xFFFFFF80 := by decide +kernel
theorem test_stb_byte : cellGet (after (.stb 0 1 0 7) (fawn { sregs := [(1, 0x1234)] })).mem (unitSpace 0 + 7) = 0x34 := by decide +kernel
theorem test_beq_back : ((after (.beq 0 1 2 0xFFFE) (fawn { pc := 9 })).core 0).pc = 7 := by decide +kernel
theorem test_jalr_range : (after (.jalr 0 3 1 0) (fawn { sregs := [(1, 4096)] })).reg .FAB_FC_FAULT_CODE 0 = 5 := by decide +kernel
theorem test_fadd_one : sAfter (.fadd 0 3 1 1) (fawn { sregs := [(1, 0x3F800000)] }) 3 = 0x40000000 := by decide +kernel
theorem test_fdiv_third : sAfter (.fdiv 0 3 1 2) (fawn { sregs := [(1, 0x3F800000), (2, 0x40400000)] }) 3 = 0x3EAAAAAB := by decide +kernel
theorem test_fcvtfi_saturates : sAfter (.fcvtfi 0 3 1) (fawn { sregs := [(1, 0x4F000000)] }) 3 = 0x7FFFFFFF := by decide +kernel
theorem test_vsplat_bytes : coreV ((after (.vsplat 0 1 2 .l8) (fawn { sregs := [(2, 0xA5)] })).core 0) 1 =
    BitVec.ofNat 256 ((2 ^ 256 - 1) / 255 * 0xA5) := by decide +kernel
theorem test_vput_lane : coreV ((after (.vput 0 1 7 2 .l32) (fawn { sregs := [(2, 1)] })).core 0) 1 = BitVec.ofNat 256 (2 ^ 224) := by
  decide +kernel
theorem test_vunpk4_sign : coreV ((after (.vunpk4 0 1 2 0 0) (fawn { vregs := [(2, 0xF)] })).core 0) 1 = 0xFFFFFFFF := by decide +kernel
theorem test_rdtb_s0_illegal : (after (.rdtb 0 0) fawn).reg .FAB_FC_FAULT_CODE 0 = 1 := by decide +kernel
theorem test_cadd_goes_to_steward : (after (.cadd 0 3 1 2) (fawn { sregs := [(1, 4)] })).fab.cadds =
    [{ unit := 0, dest := 3, counter := 16 * 15 + 2, add := 4, cyc := 1 }] := by decide +kernel
theorem test_cadd_returns_old : coreS (((fawn {} [((.FAB_SC_CNT_VALUE, 16 * 15 + 2), 9)]).caddApply
    { unit := 0, dest := 3, counter := 16 * 15 + 2, add := 4, cyc := 1 }).core 0) 3 = 9 := by decide +kernel
theorem test_read_without_row : (after (.rd16 1 2 0) { host := { ch := [(1, { wck := true })] } }).reg .HST_CNT_VIOL_STATE = 1 := by
  decide +kernel
theorem test_thermal_level : (after (.thermalSample (List.replicate 16 (some 115))) {}).reg .THM_STATUS_LEVEL = 2 := by decide +kernel
theorem test_thermal_few_sensors : (after (.thermalSample (List.replicate 16 none)) {}).reg .THM_STATUS_LEVEL = 3 := by decide +kernel
theorem test_rate_out_of_range : (after (.tbInc 0xD57100000000) {}).reg .TB_INC_INC = 0xD55555555555 := by decide +kernel

/-! ### Witnesses: each obligation's hypotheses are met -/

theorem witness_ScalarRegisterZeroIsHardwired : (List.replicate 8 (2 ^ 32 - 1)).length = 256 / laneBits .l32 ∧
    (∀ x ∈ List.replicate 8 (2 ^ 32 - 1), x < 2 ^ laneBits .l32) ∧ (List.replicate 16 65535).length = 256 / laneBits .l16 ∧
    (∀ x ∈ List.replicate 16 65535, x < 2 ^ laneBits .l16) ∧ (List.replicate 32 255).length = 256 / laneBits .l8 ∧
    (∀ x ∈ List.replicate 32 255, x < 2 ^ laneBits .l8) := by decide +kernel

/-- A core at the last address from which the next fetch stays in program memory. -/
def lastCore : State := fawn { pc := 4094, sregs := [(1, 0x80000000), (2, 0xFFFFFFFF), (3, 0xFFFC), (4, 0xFFE0), (5, 0xFFFF)] }

theorem lastCore_runs : CoreRuns lastCore 0 ∧ NotInjected lastCore 0 := by
  unfold CoreRuns CoreGoes NotInjected; decide +kernel

theorem witness_FawnIntegerInstructionsCompute : CoreRuns lastCore 0 ∧ NotInjected lastCore 0 := lastCore_runs
theorem witness_DivisionRoundsToNearestTiesAway : (CoreRuns lastCore 0 ∧ NotInjected lastCore 0) ∧ coreS (lastCore.core 0) 2 ≠ 0 ∧
    coreS (lastCore.core 0) 6 = 0 ∧ coreS (lastCore.core 0) 1 = 0x80000000#32 ∧ coreS (lastCore.core 0) 2 = 0xFFFFFFFF#32 ∧
    (28 : Fin 32).val + (3 : Fin 32).val + 1 ≤ 32 := ⟨lastCore_runs, by decide +kernel⟩
theorem witness_FawnImmediateInstructionsCompute : (CoreRuns lastCore 0 ∧ NotInjected lastCore 0) ∧
    (28 : Fin 32).val + (3 : Fin 32).val + 1 ≤ 32 ∧ 32 < (28 : Fin 32).val + (4 : Fin 32).val + 1 := ⟨lastCore_runs, by decide⟩
theorem witness_ScratchLoadsReadLittleEndian : CoreRuns lastCore 0 ∧ scratchOk lastCore 0 3 0 4 ∧ scratchOk lastCore 0 5 0 1 ∧
    scratchOk lastCore 0 4 0 32 := ⟨lastCore_runs.1, by unfold scratchOk; decide +kernel⟩
theorem witness_ScratchStoresWriteTheirBytesOnly : MemOk lastCore ∧ CoreRuns lastCore 0 ∧ scratchOk lastCore 0 3 0 4 ∧
    scratchOk lastCore 0 5 0 1 ∧ scratchOk lastCore 0 4 0 32 :=
  ⟨by unfold MemOk; decide +kernel, lastCore_runs.1, by unfold scratchOk; decide +kernel⟩
theorem witness_BranchesAndJumpsSetThePC : CoreRuns lastCore 0 ∧ coreS (lastCore.core 0) 1 ≠ coreS (lastCore.core 0) 2 ∧
    ((lastCore.core 0).pc + (1#16).toInt : Int) = (4095 : Nat) ∧ (4095 : Int) < (lastCore.core 0).pc + (2#16).toInt ∧
    (lastCore.core 0).pc + (0xF001#16).toInt < 0 := ⟨lastCore_runs.1, by decide +kernel⟩
theorem witness_Binary32InstructionsComplete : CoreRuns lastCore 0 ∧ NotInjected lastCore 0 := lastCore_runs
theorem witness_Binary32NaNResultsAreCanonical : fIsNaN 0x7FC00000#32 = true ∧ fIsNaN (fAdd 0x7F800000#32 0xFF800000#32) = true ∧
    fIsNaN 0x3F800000#32 = false := by decide +kernel

/-- A core whose input 1 is configured and holds a token of tag 5. -/
def holds (epoch epochLo : Nat) (rs : RegMap) : State :=
  { fawn { sregs := [(1, 5)] } ([((.FAB_UCFG_INPUTS, 0), 2), ((.CHIP_EPOCH_CURRENT, 0), epoch)] ++ rs) with
    cycle := 6, cfgOld := some (0, [((.FAB_UCFG_INPUTS, 0), 2)]),
    fab := { stores := [((0, 1), [{ tok := { tag := 5, kind := 1, epochLo := epochLo, poison := true }, cyc := 3 }])] } }

theorem witness_ReceiveTakesTheOldestTokenOfItsTag : let s := holds 0 0 [((.FAB_FC_CTRL_RECV_LIMIT, 0), 5)]
    let e : Entry := { tok := { tag := 5, kind := 1, poison := true }, cyc := 3 }
    s.coreReady 0 = true ∧ Awake s ∧ (s.core 0).pc < 4095 ∧
    bitAt (s.regIn (s.coreCfg (s.core 0)) .FAB_UCFG_INPUTS 0) 1 = true ∧
    (s.purgeStale 0 1).storeFind 0 1 (fun x => (s.regIn (s.coreCfg (s.core 0)) .FAB_UCFG_MODE 0 == 1 ||
        x.tok.tag == (coreS (s.core 0) 1).toNat % 16384) &&
      (s.regIn (s.coreCfg (s.core 0)) .FAB_FC_CTRL_RECV_LIMIT 0 == 0 ||
        decide (x.cyc ≤ (s.core 0).readyAt + s.regIn (s.coreCfg (s.core 0)) .FAB_FC_CTRL_RECV_LIMIT 0))) = some e ∧
    ((s.recvoBegin 0).purgeStale 0 1).storeFind 0 1 (fun _ => true) = some e := by decide +kernel
theorem witness_ReceiveSwitchesProgramAtAnEpoch : let s := holds 1 1 [((.FAB_FC_ENTRY_PC, 0), 7)]
    s.coreReady 0 = true ∧ (s.core 0).pc < 4095 ∧ bitAt (s.regIn (s.coreCfg (s.core 0)) .FAB_UCFG_INPUTS 0) 1 = true ∧
    ((s.recvoBegin 0).purgeStale 0 1).storeFind 0 1 (fun _ => true) =
      some { tok := { tag := 5, kind := 1, epochLo := 1, poison := true }, cyc := 3 } ∧
    s.regIn ((s.cfgOf 1).getD s.regs) .FAB_FC_ENTRY_PC 0 ≠ s.regIn ((s.cfgOf (s.core 0).epochLo).getD s.regs) .FAB_FC_ENTRY_PC 0 := by
  decide +kernel
theorem witness_ReceiveLimitMakesAMissingToken : let s := { holds 0 0 [((.FAB_FC_CTRL_RECV_LIMIT, 0), 5)] with fab := {} }
    let lim := s.regIn (s.coreCfg (s.core 0)) .FAB_FC_CTRL_RECV_LIMIT 0
    s.coreReady 0 = true ∧ (s.core 0).pc < 4095 ∧ bitAt (s.regIn (s.coreCfg (s.core 0)) .FAB_UCFG_INPUTS 0) 1 = true ∧ lim ≠ 0 ∧
    (s.core 0).readyAt + lim < s.cycle ∧ (s.purgeStale 0 1).storeFind 0 1 (fun _ => true) = none := by decide +kernel
theorem witness_SendWritesTheLocalRegister : CoreRuns lastCore 0 ∧ lastCore.outStop 0 = false ∧
    (1 ≤ bits 0x04000000 26 3 ∧ bits 0x14000000 26 3 ≤ 5) ∧ bits (coreS (lastCore.core 0) 0).toNat 26 3 = 0 ∧ 6 ≤ bits 0x18000000 26 3 :=
  ⟨lastCore_runs.1, by decide +kernel⟩
theorem witness_WindowedLoadsReadClusterSram :
    let s := fawn { sregs := [(1, 7)] } [((.FAB_FC_WIN_VALID, 3), 1), ((.FAB_FC_WIN_SIZE_M1, 3), 0)]
    let m := s.coreCfg (s.core 0)
    s.coreReady 0 = true ∧ (s.core 0).pc < 4095 ∧ s.regIn m .FAB_FC_WIN_VALID 3 = 1 ∧
    4 * (coreS (s.core 0) 1).toNat + 4 ≤ 32 * (s.regIn m .FAB_FC_WIN_SIZE_M1 3 + 1) ∧ s.regIn m .FAB_FC_WIN_BASE 3 + 32 ≤ 0x400000 ∧
    32 * (s.regIn m .FAB_FC_WIN_SIZE_M1 3 + 1) < 4 * 8 + 4 ∧ s.regIn m .FAB_FC_WIN_VALID 4 ≠ 1 := by decide +kernel
theorem witness_VectorInstructionsComputeByLane : CoreRuns lastCore 0 ∧ NotInjected lastCore 0 := lastCore_runs
theorem witness_VectorSortIsAStableDescendingPermutation :
    [9, 8, 7, 6, 5].Pairwise (fun x y => laneKey .l32 y ≤ laneKey .l32 x) ∧ 8 ≤ [9, 8, 7, 6, 5].length + [3, 3, 1].length ∧
    [3, 3, 1].Pairwise (fun x y => laneKey .l32 y ≤ laneKey .l32 x) := by decide +kernel
theorem witness_FawnSystemInstructionsComplete : CoreRuns lastCore 0 ∧ (30 : Fin 32).val % 2 = 0 ∧ (30 : Fin 32) ≠ 0 ∧
    (31 : Fin 32).val % 2 = 1 := ⟨lastCore_runs.1, by decide⟩
theorem witness_FawnFaultsFreezeTheCore :
    let s := fawn { pc := 4095, sregs := [(1, 0x10000), (2, 0xFFFE), (3, 0xFFF0)] }
    s.coreReady 0 = true ∧ (s.core 0).pc ≤ 4095 ∧
    fawnLegal (s.regIn (s.coreCfg (s.core 0)) .FAB_UCFG_INPUTS 0) (s.rdLe (progBase 0 + 4 * (s.core 0).pc) 4) = false ∧
    0x10000 ≤ scratchEa (s.core 0) 1 0 ∧ scratchEa (s.core 0) 2 0 < 0x10000 ∧ scratchEa (s.core 0) 2 0 % 4 ≠ 0 ∧
    scratchEa (s.core 0) 3 0 % 32 ≠ 0 ∧ (s.core 0).pc = 4095 ∧ s.ints.inject.getD (0, 3) 0 = 0 := by decide +kernel
theorem witness_InjectedFailureIsKeptForThePost : let s := { lastCore with ints := { inject := [((0, 3), 1)] } }
    s.coreReady 0 = true ∧ (s.core 0).pc < 4095 ∧ s.ints.inject.get? (0, 3) = some (0 + 1) := by decide +kernel
theorem witness_ACoreThatCannotBeginDoesNothing : State.coreReady {} 0 = false ∧ Awake {} ∧
    { lastCore with cycle := 3, cores := [(0, { st := .running, readyAt := 4 })] }.coreReady 0 = false := by decide +kernel

/-! Witnesses: fabric, engines, conditioners, verdicts -/

/-- A token of stream 5 at the head of the west register of port 0, under route registers. -/
def port0 (rs : RegMap) (fab : FabState := {}) : State :=
  { cycle := 9, regs := [((.FAB_ROUTE_VALID, 0), 1), ((.FAB_ROUTE_SRC, 0), 3), ((.FAB_ROUTE_STREAM, 0), 5)] ++ rs
    fab := { fab with swRegs := fab.swRegs ++ [((0, 3), [{ tok := { stream := 5, kind := 1 } }])] } }

theorem witness_TokensHopAlongTheirRoutes :
    let t : Token := { stream := 5, kind := 1 }
    (let s := port0 [((.FAB_ROUTE_OUT, 0), 2)]
     s.hopHead 0 3 = some t ∧ 1 ≤ t.kind ∧ t.kind ≤ 4 ∧ s.cfgOf 0 = some s.regs ∧
     (s.routeOf s.regs 0 3 5).map (fun r => (r.out, r.delay, r.steer)) = some (2, 0, 0) ∧ outsOf 2 = [1] ∧ destOf 0 1 = .reg 1 3 ∧
     hopKey 1 (s.detour 0 0 1) = 1 ∧ s.regStop 1 3 = false) ∧
    (let s := port0 [((.FAB_ROUTE_OUT, 0), 16), ((.FAB_ROUTE_INPUT, 0), 1), ((.FAB_UCFG_INPUTS, 0), 2)]
     s.hopHead 0 3 = some t ∧ (s.routeOf s.regs 0 3 5).map (fun r => (r.out, r.input, r.delay, r.steer)) = some (16, 1, 0, 0) ∧
     outsOf 16 = [4] ∧ bitAt (s.regIn s.regs .FAB_UCFG_INPUTS 0) 1 = true ∧ s.storeStop 0 1 = false ∧ t.residue = payloadResidue t.payload) ∧
    (let s := port0 [((.FAB_ROUTE_STEER, 0), 1), ((.FAB_STEER_CTRL_ENABLE, 0), 1)]
     s.hopHead 0 3 = some t ∧ (s.routeOf s.regs 0 3 5).map (fun r => (r.delay, r.steer)) = some (0, 1) ∧
     s.regIn s.regs .FAB_STEER_CTRL_ENABLE 0 ≠ 0 ∧ s.steerStop 0 false = false ∧ s.fab.expired.getD 0 [] = []) ∧
    (let s := port0 [((.FAB_ROUTE_DELAY, 0), 1)]
     (s.routeOf s.regs 0 3 5).map (·.delay) = some 1 ∧ s.delayStop 0 = false) ∧
    (let s := port0 [((.FAB_ROUTE_VALID, 0), 0)].reverse
     s.routeOf [] 0 3 5 = none ∧ s.hopHead 0 3 = some t) ∧
    (let s : State := { port0 [] with fab := { swRegs := [((0, 3), [{ tok := { kind := 0 } }]), ((0, 4), [{ tok := { kind := 5 } }]),
       ((0, 2), [{ tok := { kind := 1, epochLo := 7 } }])] } }
     s.hopHead 0 3 = some { kind := 0 } ∧ s.hopHead 0 4 = some { kind := 5 } ∧ s.hopHead 0 2 = some { kind := 1, epochLo := 7 } ∧
     s.cfgOf 7 = none) := by decide +kernel

theorem witness_StopHoldsTokens :
    (let s := port0 [((.FAB_ROUTE_OUT, 0), 2)] { swRegs := [((1, 3), [{}, {}])] }
     s.hopHead 0 3 = some { stream := 5, kind := 1 } ∧ s.cfgOf 0 = some s.regs ∧
     (s.routeOf s.regs 0 3 5).map (fun r => (r.out, r.delay, r.steer)) = some (2, 0, 0) ∧ s.allFree s.regs 0 2 0 0 = false) ∧
    (let s := port0 [] { delay := [(0, [{ enter := 9, delay := 2 }])] }
     s.fab.delay.getD 0 [] = [{ enter := 9, delay := 2 }] ∧ s.cycle + 1 < 9 + 2) := by decide +kernel

theorem witness_DelayLinesReleaseInOrder :
    let s (lo : Nat) := port0 [] { delay := [(0, [{ tok := { epochLo := lo }, enter := 9, delay := 1, out := 2 }])] }
    (s 0).delayNext 0 = some { enter := 9, delay := 1, out := 2 } ∧ (s 0).cfgOf 0 = some (s 0).regs ∧ outsOf 2 = [1] ∧
    destOf 0 1 = .reg 1 3 ∧ (s 0).regStop (hopKey 1 ((s 0).detour 0 0 1)) 3 = false ∧
    (s 7).delayNext 0 = some { tok := { epochLo := 7 }, enter := 9, delay := 1, out := 2 } ∧ (s 7).cfgOf 7 = none := by decide +kernel

theorem witness_SteeringPairsAndReleases :
    let d : SteerEntry := { tok := { tag := 3, payload := 9 }, cyc := 4 }
    let c : Entry := { tok := { tag := 3, payload := 2, poison := true }, cyc := 4 }
    let s (ds : List SteerEntry) (cs : List Entry) :=
      port0 [((.FAB_STEER_OUT, 2), 2), ((.FAB_STEER_CTRL_WAIT, 0), 5)] { steerData := [(0, ds)], steerCtrl := [(0, cs)] }
    ((s [d] [c]).steerQ 0 = [d] ∧ (s [d] [c]).ctrlQ 0 = [c] ∧ ((s [d] [c]).cfgOf 0).isSome = true ∧ (s [d] [c]).steerPairs 0 = [(d, c)] ∧
     (s [d] [c]).selectOk 0 (d, c) = true ∧ (s [d] [c]).fab.movedAt.get? (0, 5) ≠ some (s [d] [c]).cycle ∧
     minBy (fun x => x.1.cyc) ((s [d] [c]).steerReady 0 true) = some (d, some c, 2) ∧
     (s [d] [c]).steerE ((s [d] [c]).steerCfg d.tok) 0 2 = (2, 0) ∧ outsOf 2 = [1] ∧ destOf 0 1 = .reg 1 3 ∧
     (s [d] [c]).regStop (hopKey 1 ((s [d] [c]).detour 0 0 1)) 3 = false) ∧
    ((s [d] []).steerQ 0).find? ((s [d] []).dataDue 0 ·) = some d ∧
    (((s [] [c]).steerQ 0).find? ((s [] [c]).dataDue 0 ·) = none ∧ ((s [] [c]).ctrlQ 0).find? ((s [] [c]).ctrlDue 0 ·) = some c) ∧
    (let s := port0 [((.FAB_UHOLD_LIMIT, 0), 6)] { stores := [((0, 1), [{ cyc := 3 }, { cyc := 4 }])] }
     (s.storeQ 0 1).filter (s.entryExpired 0 ·) = [{ cyc := 3 }]) := by decide +kernel

/-- Engine 2 with a Q4 block and its scale token of tag 7. -/
def engine2 (mode : Nat) : State :=
  { cycle := 9, regs := [((.FAB_UCFG_INPUTS, 2), 3), ((.ELD_PASS_IN_Q4, 2), 1), ((.FAB_UCFG_MODE, 2), mode)]
    fab := { stores := [((2, 0), [{ tok := { tag := 7, fmt := 3, last := true }, cyc := 3 }]),
                        ((2, 1), [{ tok := { tag := 7, fmt := 4, last := true }, cyc := 3 }])] } }

theorem witness_EnginesFireOnCompletePairs :
    (let s1 := ((engine2 0).purgeInputs 2).eldSurplus 2
     let c := s1.eldCfg ((s1.cfgOf 0).getD s1.regs) 2
     (s1.eng 2).nextFire ≤ s1.cycle ∧ s1.outStop 2 = false ∧ s1.eldTags 2 = [(7, 0)] ∧ c.ready = false ∧ c.inputs % 4 = 3 ∧
     (match s1.eldAction 2 c false (some (7, 0)) with | some (.pair d _ _) => d.last | _ => false) = true ∧
     s1.eldThird 2 c (some (7, 0)) = some [] ∧ (s1.eng 2).sets = [] ∧ s1.setsUsed 2 < 16) ∧
    (let s1 := (engine2 1).purgeInputs 2
     let c := s1.eldCfg s1.regs 2
     UnitAddr.isEland 2 = true ∧ c.ready = true ∧ c.inputs % 4 = 3 ∧ (s1.eng 2).nextFire ≤ s1.cycle ∧ s1.outStop 2 = false ∧
     (match s1.readyAction 2 c with
      | some (.pair d sc k) => !d.parts.isEmpty && s1.readySet 2 (.pair d sc k)
      | _ => false) = true ∧
     s1.eldThird 2 c none = some []) := by decide +kernel

theorem witness_PassesLeaveInOrder : let s : State := { cycle := 580, eland := [(2, { done := [{ lastFire := 500, set := { tag := 7 } }] })] }
    (s.eng 2).done = [{ lastFire := 500, set := { tag := 7 } }] ∧ 500 + (if s.stepping = 0xA2 then 84 else 80) ≤ s.cycle := by
  decide +kernel

theorem witness_OutputCodesRoundClipOrEscape :
    let c := State.eldCfg {} [((.ELD_PASS_OUT_FMT, 2), 0), ((.ELD_PASS_ESC_EN, 2), 1), ((.ELD_PASS_RELU, 2), 1)] 2
    let plain := State.eldCfg {} [] 2
    let table := State.eldCfg {} [((.ELD_PASS_TABLE_EN, 2), 1)] 2
    plain.relu = false ∧ plain.tableEn = false ∧ table.relu = false ∧ table.tableEn = true ∧
    (-127 : Int) ≤ 127 + 0 ∧ (127 : Int) < 127 + 1 ∧ c.escEn = true ∧ c.relu = true ∧ (32767 : Int).natAbs < 32768 ∧
    ¬ (c.escEn = true ∧ (4 : Nat) < 4) := by decide +kernel

theorem witness_EngineHousekeepingCompletes :
    let s : State := { cycle := 9, regs := [((.FAB_UHOLD_LIMIT, 2), 6), ((.CND_OSTAT_BASE_ADDR, 0), stackLo)]
                       eland := [(2, { sets := [{ first := 3 }], closed := [{ window := 1 }] })] }
    (∃ a ∈ (s.eng 2).sets, decide (s.regIn ((s.cfgOf a.epochLo).getD s.regs) .FAB_UHOLD_LIMIT 2 ≠ 0 ∧
      a.first + s.regIn ((s.cfgOf a.epochLo).getD s.regs) .FAB_UHOLD_LIMIT 2 ≤ s.cycle) = true) ∧
    (s.eng 2).closed = [{ window := 1 }] ∧ s.reg .CND_OSTAT_BASE_ADDR ≠ 0 ∧ s.memTurn 6 = true ∧
    Memory.wf s.mem = true ∧ Memory.wf s.win = true := by
  decide +kernel

/-- A frame with its length and CRC in place. -/
def sealedFrame (ftype seq : Nat) (payload : List Nat) : Frame :=
  { seq := seq, len := payload.length / 8, payload := payload, crc := frameCrc ftype (seq % 64) payload }

theorem sealedFrame_good (ftype seq : Nat) (payload : List Nat) (h : payload.length = 8 * (payload.length / 8))
    (h' : payload.length / 8 < 128) : frameGood ftype (sealedFrame ftype seq payload) = true := by
  simp [frameGood, sealedFrame, ← h, h']

theorem witness_ChannelTableAndSensorFramesTakeEffect :
    let f := sealedFrame 1 5 (leBytes 8 (17 + 1023 * 2 ^ 32 + 1 * 2 ^ 42) ++ List.replicate 128 1)
    let s : State := { regs := [((.OPX_PSTAT_STATE, 3), 2), ((.CND_STAT_BASE_ADDR, 0), stackLo)], opx := [(3, { rxN := 5 })]
                       cond := { queue := [{ block := 1, header := [1], chans := [2] }] } }
    frameGood 1 f = true ∧ s.portUp 3 = true ∧ (s.port 3).skipN = false ∧ s.reg .OPX_PCTRL_ROLE 3 = 0 ∧ f.seq % 64 = (s.port 3).rxN ∧
    bits (leAt f.payload 0 8) 45 19 = 0 ∧ f.len = 1 + 16 * 1 ∧ bits (leAt f.payload 0 8) 42 3 = 1 ∧ bits (leAt f.payload 0 8) 32 10 + 1 ≤ 1024 ∧
    s.cond.queue = [{ block := 1, header := [1], chans := [2] }] ∧ s.reg .CND_STAT_BASE_ADDR ≠ 0 ∧ s.memTurn 6 = true ∧ Memory.wf s.mem = true ∧
    Memory.wf s.win = true :=
  ⟨sealedFrame_good _ _ _ (by decide +kernel) (by decide +kernel), by decide +kernel⟩

theorem witness_ConversionScalesRoundsAndAdapts : (16 + (-16 : Int) = (0 : Nat)) ∧ (-16 - (-17 : Int) = (1 : Nat)) ∧
    ((-7 : Int) ≤ 7 + 0 ∧ (7 : Int) < 7 + 1) ∧ (32767 : Int).natAbs < 32768 := by decide

/-- A network of one block in slot 1, with an event of that block. -/
def net1 : Net := { img := { imageId := 4, lnet := 400, ii := 30, tagBase := 64, tagCount := 8, vstream := 9
                             chans := [{ block := 2, row := 1 }]
                             checks := [{ unit := 2, verdictPath := true }] } }

theorem witness_EventsLeaveTheDeskewBuffer :
    let ev : DskEvent := { num := 6, t0 := 10 }
    let rd : DskEvent := { num := 7, t0 := 10, ready := some 50 }
    let s (pol : Nat) (evs : List DskEvent) (ni : List NoInj) : State :=
      { cycle := 60, regs := [((.VRD_INGRESS_SLACK, 1), 50), ((.VRD_CTRL_INC_POLICY, 1), pol)], nets := [(1, { live := some net1 })]
        dsk := [(1, { events := evs, noinj := ni })] }
    (s 1 [ev] []).commit = .idle ∧ (s 0 [ev] []).commit = .idle ∧ (s 1 [ev] []).reg .VRD_CTRL_INC_POLICY 1 = 1 ∧ (s 0 [ev] []).reg .VRD_CTRL_INC_POLICY 1 = 0 ∧
    (((s 1 [ev] []).dskSlot 1).events.filter fun e =>
      e.ready.isNone && decide (e.t0 + (s 1 [ev] []).reg .VRD_INGRESS_SLACK 1 ≤ 60)) = [ev] ∧
    dskHead ((s 1 [rd] []).dskSlot 1) = some rd ∧ ((s 1 [rd] []).netSlot 1).live = some net1 ∧ ((s 1 [rd] []).dskSlot 1).lastInj = none ∧
    (((s 1 [ev] []).dskSlot 1).events.filter (·.ready.isSome)).length < 4 ∧
    ((s 1 [rd] []).dskSlot 1).marks = [] ∧ ((s 1 [] [{ num := 8 }]).dskSlot 1).noinj = [{ num := 8 }] ∧
    60 ∉ ((s 1 [] [{ num := 8 }]).dskSlot 1).marks ∧ ((s 1 [] [{ num := 8 }]).netSlot 1).live = some net1 := by decide +kernel

theorem witness_VerdictUnitsCollectAndMark :
    let e : VEvent := { num := 6, tag := 65, lnet := 400, mark := 100 }
    let t (stream tag : Nat) : Entry := { tok := { tag := tag, stream := stream, payload := 3 }, cyc := 490 }
    let s (cycle : Nat) (e : VEvent) (t : Entry) (tk : List (Nat × Nat)) : State :=
      { cycle := cycle, nets := [(1, { live := some net1 })], vrd := [(1, { events := [e], taken := tk })]
        fab := { coll := [(0, [t])], flagPosts := [{ slot := 1, tag := 65, flag := 2, cyc := 496 }] } }
    let opens := fun (tag at_ : Nat) (e : VEvent) => evMatches tag 0 e && !e.closed && decide (at_ ≤ e.mark + e.lnet - 4)
    (s 496 e (t 9 65) []).fab.coll.getD 0 [] = [t 9 65] ∧ 490 + 6 ≤ (s 496 e (t 9 65) []).cycle ∧
    (s 496 e (t 9 65) []).tagOwner (t 9 65).tok = some (1, net1) ∧ (t 9 65).tok.stream = net1.img.vstream ∧
    (s 496 e (t 8 65) []).tagOwner (t 8 65).tok = some (1, net1) ∧ (t 8 65).tok.stream ≠ net1.img.vstream ∧
    ((s 496 e (t 9 65) []).unitV 1).events.find? (opens 65 496) = some e ∧ e.result = none ∧
    ((s 496 { e with result := some {} } (t 9 65) []).unitV 1).events.find? (opens 65 496) = some { e with result := some {} } ∧
    (s 496 e (t 9 66) []).tagOwner (t 9 66).tok = some (1, net1) ∧ ((s 496 e (t 9 66) []).unitV 1).events.find? (opens 66 496) = none ∧
    ((s 496 e (t 9 66) []).unitV 1).taken.contains (66, 0) = false ∧ ((s 496 e (t 9 66) [(66, 0)]).unitV 1).taken.contains (66, 0) = true ∧
    ((s 496 e (t 9 65) []).fab.flagPosts.find? (fun p => p.slot == 1 && decide (p.cyc ≤ 496))).isSome = true ∧
    ((s 496 e (t 9 65) []).unitV 1).events.find? (fun e => !e.closed && decide (e.mark + e.lnet - 4 < 496)) = none ∧
    ((s 497 e (t 9 65) []).unitV 1).events.find? (fun e => !e.closed && decide (e.mark + e.lnet - 4 < 497)) = some e ∧
    ((s 500 e (t 9 65) []).unitV 1).events.find? (fun e => e.entry.isNone && decide (e.mark + e.lnet ≤ 500)) = some e := by decide +kernel

theorem witness_VerdictEntryHasItsLayout :
    (let e : VEvent := { tag := 65, lnet := 400, mark := 100, result := some { kind := 1, fmt := 5, payload := 3 } }
     bits (VEntry_bits (State.composeEntry {} 1 e)) 23 3 = 0) ∧
    bits (VEntry_bits (State.composeEntry {} 1 { mark := 100 })) 23 3 = 1 ∧
    bits (VEntry_bits (State.composeEntry {} 1 { injected := false })) 23 3 = 2 ∧
    bits (VEntry_bits (State.composeEntry {} 1 { injected := false, overrun := true })) 23 3 = 3 ∧
    bits (VEntry_bits (State.composeEntry {} 1 { result := some { poison := true, fmt := 5 } })) 23 3 = 4 ∧
    State.thermalDrained { power := { thermalFrom := some 9 }, regs := [((.THM_STATUS_DRAIN, 0), 1)] } 500 = true ∧
    State.faultDrained { ints := { drainFrom := some 9 }, regs := [((.INT_STATE_DRAIN, 0), 1)] } { mark := 100, lnet := 400 } = true := by
  decide +kernel

theorem witness_ChecksResolveAndValidate :
    let e : VEvent := { num := 6, tag := 65, lnet := 400, mark := 100, entry := some 0, ports := 8 }
    let p : CheckPost := { slot := 1, unit := 2, cls := 1, tag := 65 }
    let s (cycle : Nat) (e : VEvent) (ps : List CheckPost) : State :=
      { cycle := cycle, vrd := [(1, { events := [e], posts := ps })], nets := [(1, { live := some net1 })] }
    (s 500 e []).fab.checkPosts = [] ∧ ((s 500 e []).unitV 1).posts.length < 64 ∧ ((s 500 e []).unitV 1).postsIn < 8 ∧
    ((s 516 e []).unitV 1).overflow = false ∧ ((s 516 e []).unitV 1).posts = [] ∧ (evMatches p.tag p.epochLo e = true ∧ e.resolved = false ∧ (s 500 e []).cycle ≤ e.mark + e.lnet + 16) ∧
    ((s 516 e []).unitV 1).events.find? (fun e => e.entry.isSome && !e.resolved && decide (e.mark + e.lnet + 16 ≤ 516)) = some e ∧
    ((s 516 e [p]).unitV 1).posts.filter (fun p => evMatches p.tag p.epochLo e) = [p] ∧ (s 516 e [p]).postVoids 1 p = true ∧
    (VEntry_of (e.entry.getD 0)).cause = 0 ∧
    (s 516 e [p]).draining = false ∧ (s 516 e [p]).ints.queue.length < 16 ∧
    ((s 520 { e with resolved := true, voided := true } []).unitV 1).events.find? (fun e => e.resolved &&
      decide (e.mark + e.lnet + 20 ≤ 520)) = some { e with resolved := true, voided := true } := by decide +kernel

/-! Witnesses: ports, triggers, memory, timebase, DRAM -/

/-- Port 3 in a state. -/
def portIn (st : Nat) (x : OpxPort := {}) (rs : RegMap := []) (cycle : Nat := 0) : State :=
  { cycle := cycle, regs := [((.OPX_PSTAT_STATE, 3), st)] ++ rs, opx := [(3, x)] }

theorem witness_PortsTrainAndDropAsTabled :
    (let s (run : Nat) := portIn 1 { lanes := [(2, { run := run })] }
     (s 63).reg .OPX_LSTAT_LOL (lx 3 2) = 1 ∧ (s 63).portSt 3 = 1 ∧ (∀ w ∈ [0b0101, 0b1100], validHeader (w % 16) = true) ∧
     64 ≤ ((s 62).lane 3 2).run + [0b0101, 0b1100].length ∧ ((s 61).lane 3 2).run + [0b0101, 0b1100].length < 64 ∧
     validHeader (0b0111 % 16) = false) ∧
    (let s := portIn 2 { lanes := [(2, { window := [false] })] } [((.OPX_LSTAT_LOL, lx 3 2), 0)]
     s.portSt 3 = 2 ∧ s.reg .OPX_LSTAT_LOL (lx 3 2) ≠ 1 ∧ (∀ w ∈ List.replicate 16 0, validHeader (w % 16) = false) ∧
     16 ≤ (List.replicate 16 0).length ∧ true ∉ (s.lane 3 2).window) ∧
    (let s := portIn 3 {} [((.OPX_LSTAT_LOS, lx 3 2), 1)]
     s.portSt 3 = 3 ∧ s.reg .OPX_LSTAT_LOS (lx 3 2) = 1) ∧
    (let s := portIn 1 { since := 5 } [] 59400005
     s.portSt 3 = 1 ∧ (s.port 3).since + 59400000 ≤ s.cycle) ∧
    (let s := portIn 2 { lastMarker := some 7 } [] 154789
     s.portSt 3 = 2 ∧ 13 * (s.port 3).lastMarker.getD (s.port 3).since + 4 * 503040 ≤ 13 * s.cycle) ∧
    (let s := portIn 2 { markers := some (0, 13) } [] 503040
     s.portSt 3 ≠ 0 ∧ s.portSt 3 ≠ 3 ∧ (s.port 3).markers = some (0, 13) ∧ 13 * 0 + 13 * 503040 ≤ 13 * s.cycle ∧
     (∃ k < 8, s.reg .OPX_LCTRL_LOOP (lx 3 k) ≠ 1) ∧ ((portIn 1).port 3).markers = none) ∧
    (let s := portIn 4 { since := 5 } [] 118800005
     s.portSt 3 = 4 ∧ (s.port 3).since + 118800000 ≤ s.cycle) ∧ (portIn 0).portSt 3 = 0 ∧
    (let s := portIn 1 { readyRows := 1 } ([((.OPX_PCTRL_ROLE, 3), 1)] ++ (List.range 8).map fun l => ((.OPX_LSTAT_LOL, lx 3 l), 0))
     let m := fun (l : Nat) => ({ fibre := l, payload := l + 1 * 2 ^ 14 + 2 ^ 17 + 1 * 2 ^ 24 + 2 ^ 40 } : MarkerLane)
     s.portSt 3 = 1 ∧ s.markerGood 3 ((List.range 8).map m) = true ∧ partnerRole (s.reg .OPX_PCTRL_ROLE 3) = some (bits (m 0).payload 14 3) ∧
     bits (m 0).payload 40 8 ≤ 1 ∧ 1 ≤ bits (m 0).payload 24 8 ∧ bitAt (m 0).payload 17 = true ∧ 1 ≤ (s.port 3).readyRows ∧
     (s.port 3).lastUp = none) := by decide +kernel

theorem witness_DeepIsAskedAnsweredOrDenied :
    ((portIn 2).portUp 3 = true ∧ (portIn 2).carriesVerdicts 3 = false ∧ ((portIn 2).port 3).deep = .none ∧ ((portIn 2).port 3).replay = []) ∧
    ((portIn 1).portUp 3 = false ∧ (portIn 1).portSt 3 ≠ 3 ∧ ((portIn 1).port 3).deep = .none) ∧
    (let s := portIn 3 {} [((.OPX_PCTRL_DEEP, 3), 1)]
     s.portSt 3 = 3 ∧ s.reg .OPX_PCTRL_DEEP 3 = 1) ∧
    (let s := portIn 2 { deep := .drain 4 } [] 1200004
     (s.port 3).deep = .drain 4 ∧ 4 + 1200000 ≤ s.cycle) ∧
    (let s := portIn 2 { deep := .lpi 4 9 0 true } [] 12004
     (s.port 3).deep = .lpi 4 9 0 true ∧ 4 + 12000 ≤ s.cycle ∧ s.portUp 3 = true ∧ 0 < 64 ∧ 64 ≤ 9 + 64 ∧ 64 ≤ 0 + 64 ∧ 9 + 54 < 64) := by
  decide +kernel

/-- The head of a TOKEN frame of one unit at the stack's base, and of a VERDICT frame with four entries. -/
def tokenHead : List Nat := leBytes 16 (stackLo + 1 * 2 ^ 40)

theorem witness_PortsReceiveAcknowledgeAndRetry :
    (let f := sealedFrame 2 5 (tokenHead ++ List.replicate 32 7)
     let s := portIn 2 { rxN := 5, tokenBytes := 65504 } [((.OPX_PCTRL_ROLE, 3), 1), ((.OPX_PRX_BASE, 3), stackLo), ((.OPX_PRX_LEN, 3), 32)]
     frameGood 2 f = true ∧ s.portUp 3 = true ∧ s.reg .OPX_PCTRL_ROLE 3 = 1 ∧ s.reg .OPX_PSTAT_SAME_SYS 3 = 0 ∧
     portSkips (s.port 3) false = false ∧ s.seqNext 3 2 f = true ∧ Memory.wf s.mem = true ∧ Memory.wf s.win = true ∧ bits (leAt f.payload 0 16) 0 40 % 32 = 0 ∧
     bits (leAt f.payload 0 16) 40 5 = 1 ∧ bits (leAt f.payload 0 16) 45 3 = 0 ∧ bits (leAt f.payload 0 16) 79 49 = 0 ∧ f.len = 2 + 4 * 1 ∧
     (s.port 3).tokenBytes + 32 ≤ 65536 ∧ bits (leAt f.payload 0 16) 0 40 = stackLo ∧ s.reg .OPX_PRX_BASE 3 ≤ stackLo ∧
     stackLo + 32 ≤ s.reg .OPX_PRX_BASE 3 + s.reg .OPX_PRX_LEN 3) ∧
    (let f := sealedFrame 3 0 (leBytes 16 (4 * 2 ^ 64) ++ List.replicate 32 7)
     let s := portIn 2 {} [((.OPX_PCTRL_ROLE, 3), 1), ((.OPX_PVRING_LEN, 3), 4)]
     frameGood 3 f = true ∧ bits (leAt f.payload 0 16) 32 32 = 0 ∧ s.portUp 3 = true ∧ s.reg .OPX_PCTRL_ROLE 3 = 1 ∧ s.reg .OPX_PSTAT_SAME_SYS 3 = 0 ∧
     portSkips (s.port 3) true = false ∧ s.seqNext 3 3 f = true ∧ bits (leAt f.payload 0 16) 64 3 = 4 ∧ bits (leAt f.payload 0 16) 67 5 = 0 ∧
     bits (leAt f.payload 0 16) 78 2 = 0 ∧ bits (leAt f.payload 0 16) 96 32 = 0 ∧ f.len = 2 + 4 ∧ s.reg .OPX_PVRING_LEN 3 ≠ 0 ∧ frameGood 4 (sealedFrame 4 0 f.payload) = true) ∧
    (let f := fun (t : Nat) => sealedFrame 7 0 (leBytes 8 (t + 6 * 2 ^ 16))
     let s := portIn 2 { replay := [{ seq := 5 }, { seq := 6 }], unackedFrom := some 4, owesRetry := true } [] 68
     portSkips (s.port 3) false = false ∧ ∀ t ∈ [1, 2, 3], frameGood 7 (f t) = true ∧ (f t).len = 1 ∧ (f t).seq % 64 = 0 ∧ leAt (f t).payload 0 8 % 256 = t ∧
       bits (leAt (f t).payload 0 8) 16 6 = 6 ∧ bitAt (leAt (f t).payload 0 8) 8 = false ∧ bits (leAt (f t).payload 0 8) 9 7 = 0 ∧
       bits (leAt (f t).payload 0 8) 22 2 = 0 ∧ bits (leAt (f t).payload 0 8) 24 40 = 0 ∧ (∀ e ∈ (s.port 3).lanes, e.2.injCrc = false) ∧
       (∀ e ∈ (s.port 3).replay, e.seq < 64) ∧
       (s.port 3).replay = [{ seq := 5 }] ++ [{ seq := 6 }] ∧ (6 + 64 - 5) % 64 = 1 ∧ (s.port 3).txWait = [] ∧ (s.port 3).deep = .none ∧
       (s.port 3).unackedFrom = some 4 ∧ 4 + 64 ≤ s.cycle ∧ (s.port 3).owesRetry = true) ∧
    (let s := portIn 2 { retryN := some 4 } [] 516
     (s.port 3).retryN = some 4 ∧ (s.port 3).retryE = none ∧ 4 + 512 ≤ s.cycle ∧ (s.port 3).owesRetry = false) ∧
    (let s := portIn 2 { skipN := true }
     frameGood 7 {} = false ∧ portSkips ((portIn 2).port 3) false = false ∧ (s.port 3).skipN = true ∧ portSkips (s.port 3) false = true ∧
     ({ fs := false } : Frame).fs = false ∧ ({} : Frame).fs = true) ∧
    (256 % 256 = 0 ∧ 8 % 8 = 0 ∧ 8 % 256 ≠ 0 ∧ 9 % 8 ≠ 0) := by
  refine ⟨⟨sealedFrame_good _ _ _ (by decide +kernel) (by decide +kernel), by decide +kernel⟩,
    ⟨sealedFrame_good _ _ _ (by decide +kernel) (by decide +kernel), by decide +kernel⟩, by decide +kernel, by decide +kernel, by decide +kernel, by decide⟩

theorem witness_LaneControlsAndErrorInjection : (portIn 2).portUp 3 = true ∧ (portIn 2).reg .OPX_LCTRL_INJ (lx 3 2) = 0 ∧
    (∀ k < 4, (portIn 2 {} [((.OPX_LCTRL_INJ, lx 3 2), k)]).reg .OPX_LCTRL_INJ (lx 3 2) = k) ∧ bits (2 ^ 31) 16 16 ≠ 0 ∧
    bits (2 ^ 16 - 1) 16 16 = 0 ∧ (portIn 1).portSt 3 ≤ 1 ∧ 2 ≤ (portIn 2).portSt 3 ∧ ((portIn 2).lane 3 2).injAt = none ∧
    (let s (c : Nat) := portIn 2 { lanes := [(2, { injAt := some 5 })] } [((.OPX_LCTRL_INJ_INTERVAL, lx 3 2), 13)] c
     ((s 36).lane 3 2).injAt = some 5 ∧ 31440 * max 1 ((s 36).reg .OPX_LCTRL_INJ_INTERVAL (lx 3 2)) ≤ 13312 * ((s 36).cycle - 5) ∧
     ¬ 31440 * max 1 ((s 35).reg .OPX_LCTRL_INJ_INTERVAL (lx 3 2)) ≤ 13312 * ((s 35).cycle - 5)) := by decide +kernel

/-- Springbok with group 5 enabled, in a state, listing coincidence unit 9. -/
def group5 (st cycle : Nat) (x : Group := {}) (segs : List Segment := []) (rs : RegMap := []) : State :=
  { cycle := cycle
    regs := [((.SPB_CTRL_ENABLE, 0), 1), ((.SPB_GCFG_EN, 5), 1), ((.SPB_GCMASK_UNITS, 5), 2 ^ 9), ((.SPB_GDEPTH_POST, 5), 1),
      ((.SPB_GAREA_BASE, 5), stackLo), ((.SPB_GALEN_LEN, 5), 0x100000), ((.SPB_GSTAT_STATE, 5), st), ((.SPB_GSHARE_SHARE, 5), 3),
      ((.SPB_GSHARE_BURST, 5), 8)] ++ rs
    spb := { groups := [(5, x)], segs := segs, pulses := [{ term := 1056, cyc := 4 }], lines := [(2, [{ start32 := 32, end32 := 224 }])]
             lastEdge := [(2, 100)] } }

theorem witness_TriggerTermsPulseAndUnitsFire :
    let s := group5 1 7 {} [] [((.SPB_COIN_EN, 72), 1), ((.SPB_COIN_TERM, 72), 1056), ((.SPB_CO_MIN, 9), 1), ((.SPB_CO_WINDOW, 9), 1)]
    let ended : State := { s with spb := { s.spb with fires := [(9, s.spb.pulses)] } }
    (s.spb.lastEdge.get? 2 = some 100 ∧ 227 < 100 + 128 ∧ ¬ 228 < 100 + 128) ∧
    (223 + s.reg .SPB_LINE_DLY 2 < 32 * s.cycle ∧ 32 * s.cycle ≤ 224 + s.reg .SPB_LINE_DLY 2) ∧
    s.flag .SPB_COIN_EN 72 = true ∧ s.flag .SPB_COIN_VETO 72 = false ∧ s.lastPulse 9 0 = some (s.cycle, { term := 1056, cyc := 4 }) ∧
    s.spb.used.get? (9, 0) = none ∧ s.cycle < s.cycle + s.reg .SPB_CO_WINDOW 9 ∧ s.reg .SPB_CO_MIN 9 ≤ 1 ∧
    s.spb.firedAt.get? 9 ≠ some s.cycle ∧ (∀ i < 8, s.flag .SPB_COIN_VETO (72 + i) = false) ∧
    ended.spb.fires = [(9, s.spb.pulses)] ∧ ended.enabledGroups = [5] ∧ bitAt (ended.groupCfg 5).units 9 = true ∧ ended.groupSt 5 = 1 ∧
    (ended.grp 5).heldCfg = none ∧ (ended.reg .SPB_SEG_WR + 2 ^ 32 - ended.reg .SPB_SEG_RD) % 2 ^ 32 ≠ 65536 ∧
    (ended.segStart 5 (ended.groupCfg 5)).isSome = true ∧
    s.spb.lines.getD 2 [] = [{ start32 := 32, end32 := 224 }] ∧ 224 ≤ 32 * s.cycle := by decide +kernel

theorem witness_GroupsRowsAndSegmentsProceed :
    (∀ st ∈ [1, 2, 3, 4], (group5 st 9).groupSt 5 = st) ∧
    (let s := group5 2 9 { cur := some 6 } [{ seq := 6, group := 5 }]
     (s.grp 5).cur = some 6 ∧ s.seg 6 = some { seq := 6, group := 5 }) ∧
    (let y : Segment := { seq := 6, group := 5, complete := true }
     let s := group5 3 192 { cur := some 6 } [y]
     s.holdEnded 5 = true ∧ (s.grp 5).lastRowClose + 192 ≤ s.cycle ∧ (s.grp 5).cur = some 6 ∧ s.seg 6 = some y ∧ y.precopy = [] ∧
     y.complete = true) ∧
    (let s := group5 1 73 { asm := [{ num := 4, first := 9 }] }
     (s.grp 5).asm = [{ num := 4, first := 9 }] ∧ 9 + (s.groupCfg 5).rowWait ≤ s.cycle ∧ (s.groupCfg 5).reduce ≠ 2 ∧ s.groupSt 5 ≠ 2) ∧
    (let r : Row := { row := 4, cyc := 9 }
     let y : Segment := { seq := 6, group := 5, resolved := true }
     (∀ dest ∈ [none, some 6], (group5 1 9 { waiting := [(r, dest)], credit := 512 } [y]).contends 5 = true ∧
       (group5 1 9 { waiting := [(r, dest)], credit := 512 } [y]).winsRow 5 = true ∧
       (group5 1 13 { waiting := [(r, dest)] } [y]).contends 5 = false) ∧ r.cyc + 4 ≤ 13 ∧ 12 < r.cyc + 4 ∧
     (group5 1 9 { waiting := [(r, none)] }).groupSt 5 ≠ 2 ∧ (group5 2 9 { cur := some 6 } [y]).seg 6 = some y ∧ y.resolved = true) ∧
    (let y : Segment := { seq := 6, group := 5, precopy := [(0, 0)], items := [.gap 1 1 1 1 false] }
     let s := group5 2 9 {} [y]
     s.spb.segs.find? (fun x => x.group == 5 && !x.precopy.isEmpty) = some y ∧ (s.grp 5).waiting = [] ∧ s.poison = [] ∧ s.ue = [] ∧
     isRow (nth (RingItem.gap 0 0 0 0 false) y.items 0) = false ∧ 0 ≤ (s.grp 5).credit ∧ s.memS.acq < 256) ∧
    ((group5 1 64).cycle % 64 = 0 ∧ (group5 1 63).cycle % 64 ≠ 0) ∧
    (let y : Segment := { seq := 6, group := 5, addr := stackLo, ended := true, resolved := true }
     let s := group5 2 9 {} [y]
     s.seg 6 = some y ∧ MemOk s ∧ (s.maskTest y).1 = none ∧ y.complete = false ∧ y.ended = true ∧ y.resolved = true ∧ y.precopy = [] ∧
     y.waiting = 0 ∧ y.pendingVerdicts = []) ∧
    (let s := fun (done_ : Bool) => group5 2 9 {} [{ seq := 6, group := 5, complete := done_ }] [((.SPB_SEG_RD, 0), 6), ((.SPB_SEG_WR, 0), 7)]
     sdiff 32 5 ((s true).reg .SPB_SEG_RD) < 0 ∧ 0 ≤ sdiff 32 6 ((s true).reg .SPB_SEG_RD) ∧ 0 ≤ sdiff 32 7 ((s true).reg .SPB_SEG_RD) ∧
     (∀ y ∈ (s true).spb.segs, y.complete = true) ∧ ∃ y ∈ (s false).spb.segs, y.complete = false ∧ y.seq = 6 ∧
       ∀ z ∈ (s false).spb.segs, z.seq = 6) := by
  refine ⟨by decide +kernel, by decide +kernel, by decide +kernel, by decide +kernel, by decide +kernel, by decide +kernel,
    by decide +kernel, ⟨by decide +kernel, by unfold MemOk; decide +kernel, by decide +kernel⟩, by decide +kernel⟩

theorem witness_PackageMemoryIsRestoredKeptAndScrubbed :
    (let e : RestoreEntry := { addr := sramBase 0 0 + 32 }
     let s : State := { cycle := 1024, memS := { restore := [(15, [e])] } }
     s.isFrozen (0x10000 + 15) = false ∧ s.restoreQueued < 16 ∧ s.restoreList 15 = [] ++ e :: [] ∧ s.cycle % 1024 = 0 ∧
     ({} : State).cycle % 1024 = 0 ∧ ({ cycle := 1023 } : State).cycle % 1024 ≠ 0) ∧
    (let e : RestoreEntry := { addr := sramBase 0 0 + 32, queued := true }
     let s : State := { cycle := 9, memS := { restore := [(15, [e])], committed := some (9, [1]) }
                        power := { granted := [{ cls := 1, req := 15, cyc := 9 }] } }
     (s.restoreList 15).find? (·.queued) = some e ∧ s.isFrozen (0x10000 + 15) = false ∧ s.leaveGranted 1 15 = true ∧
     s.memS.committed = some (9, [1]) ∧ 17 * UnitAddr.region 15 + UnitAddr.cluster 15 ∉ [1] ∧ s.poison = [] ∧ s.ue = [] ∧
     Memory.wf s.mem = true ∧ Memory.wf s.win = true) ∧
    (let e : RetEntry := { mark := 8, len := 64 }
     let s (held : List RetEntry) : State := { cycle := 9, regs := [((.MEM_RET_LEN, 0), 64), ((.MEM_RET_BASE, 0), stackLo)]
                                               memS := { retQueue := [e], ret := held } }
     (s []).retNext = some e ∧ (s []).memTurn 1 = true ∧ e.len ≤ (s []).reg .MEM_RET_LEN ∧ (s []).memS.ret = [] ∧
     Memory.wf (s []).mem = true ∧ Memory.wf (s []).win = true ∧
     (let y : RetEntry := { pos := stackLo, len := 64, sampling := true }
      overlaps y.pos y.len (stackLo + 0) e.len = true ∧ (s [y]).retHeld y = true ∧ (s [y]).retNext = some e ∧ (s [y]).memTurn 1 = true)) ∧
    (State.retNext {} = none) ∧
    (let s : State := { cycle := 9, regs := [((.MEM_CTRL_SCRUB_EN, 0), 1)], power := { granted := [{ cls := 5, req := 0x4000 }] } }
     s.reg .MEM_CTRL_SCRUB_EN = 1 ∧ s.leaveGranted 5 0x4000 = true ∧ s.memTurn 8 = true ∧ s.ue ++ s.ce ++ s.poison = [] ∧
     State.leaveGranted {} 5 0x4000 = false) ∧
    (let s : State := { ue := [sramBase 0 0], memS := { golden := [(15, 0)] } }
     s.isFrozen (0x10000 + 15) = false ∧
     sramBase (UnitAddr.region 15) (UnitAddr.cluster 15) + s.memS.scrubAt.getD 15 0 ∈ s.ue ∧ s.memS.restored = [] ∧
     s.goldenBit 15 (sramBase 0 0 % 2 ^ 22) = true ∧ s.restoreList 15 = []) ∧
    (let s : State := { ce := [sramBase 0 0] }
     sramBase (UnitAddr.region 15) (UnitAddr.cluster 15) + s.memS.scrubAt.getD 15 0 ∈ s.ce ∧ s.ue = [] ∧ s.restoreList 15 = []) := by
  decide +kernel

theorem witness_TimebaseRunsStepsAndCaptures :
    (State.reg {} .TB_INC_INC = 0xD55555555555) ∧ (0xD53A00000000 ≤ 0xD53A00000000 ∧ 0xD570FFFFFFFF ≤ 0xD570FFFFFFFF) ∧
    0xD539FFFFFFFF < 0xD53A00000000 ∧ 0xD570FFFFFFFF < 0xD57100000000 ∧ Awake {} ∧
    (let s (c : Nat) : State := { cycle := c, tb := { ppsAt := some 32 }, regs := [((.TB_STEPCTL_PENDING, 0), 1), ((.TB_CAPCTL_PPS, 0), 1)] }
     (s 600000000).tb.ppsAt = some 32 ∧ 32 * (s 600000000).cycle - 0 < 32 + 32 * 600000000 ∧ 32 + 32 * 600000000 ≤ 32 * (s 600000001).cycle - 0 ∧
     (∀ k ∈ (s 9).tb.caps, k.1 < 32 * (s 9).cycle) ∧ State.reg {} .TB_STEPCTL_PENDING ≠ 1 ∧ (s 9).reg .TB_STEPCTL_PENDING = 1 ∧ (s 9).reg .TB_CAPCTL_PPS = 1 ∧ 32 + 32 * 1306800000 ≤ 32 * (s 1306800001).cycle) ∧
    (let s : State := { cycle := 1188000, regs := [((.TB_STATE_STATE, 0), 2), ((.TB_MASTER_TIMEOUT, 0), 1)] }
     s.reg .TB_STATE_STATE = 2 ∧ s.tb.syncAt.getD 0 + max 1 (s.reg .TB_MASTER_TIMEOUT) * 1188000 ≤ s.cycle) := by decide +kernel

theorem witness_TimeFramesAndScheduledActionsTakeEffect :
    (let f := fun (m : Nat) => sealedFrame 5 0 (timePayload m 7 0 1 0 0 0 0)
     let s := portIn 2 {} [((.OPX_PCTRL_ROLE, 3), 1), ((.TB_MASTER_VALID, 0), 1), ((.TB_MASTER_SYS, 0), 7)]
     ∀ m ∈ [1, 2, 3], frameGood 5 (f m) = true ∧ (f m).len = 4 ∧ (f m).seq % 64 = 0 ∧ (timeOf (f m).payload).msg = m ∧
       (timeOf (f m).payload).reqRx = 0 ∧ s.portUp 3 = true ∧ (s.port 3).skipN = false ∧ s.reg .TB_FWD_MASK = 0 ∧ roleAccepts (s.reg .OPX_PCTRL_ROLE 3) 5 = true ∧
       s.reg .OPX_PSTAT_SAME_SYS 3 = 0 ∧ s.reg .TB_MASTER_SELF = 0 ∧ s.reg .TB_MASTER_VALID = 1 ∧
       (timeOf (f m).payload).origin = s.reg .TB_MASTER_SYS) ∧
    (let s : State := { tb := { tb := 2 ^ 20 }, regs := [((.TB_ACT_TIME, 5), 2 ^ 20)] }
     let arm := fun (v : Nat) => actFields.foldl (fun (x : State) (a : Reg × Nat) => x.setReg a.1 5 (bits v a.2 a.1.width)) s
     s.reg .TB_ACTSTAT_ARMED 5 ≠ 1 ∧ (arm 0).armStatus 5 = 0 ∧ 
     ((actFields.filter (fun a => a.1 == .TB_ACTCTL_INDEX)).all fun a => (arm (4 * 2 ^ a.2)).armStatus 5 == 0x1401) = true) ∧
    (let s (at_ : Nat) : State := { tb := { tb := 1000 }, regs := [((.TB_ACTSTAT_ARMED, 5), 1), ((.TB_ACTNEXT_NEXT, 5), at_)] }
     (s 1000).reg .TB_ACTSTAT_ARMED 5 = 1 ∧ 0 ≤ sdiff 64 (s 1000).tb.tb ((s 1000).reg .TB_ACTNEXT_NEXT 5) ∧ (s 1000).tb.fireNext = [] ∧
     (∀ j < 5, (s 1000).slotDue j = false) ∧
     (s 1000).tb.stepAt = none ∧ sdiff 64 (s 1000).tb.tb ((s 1000).reg .TB_ACTNEXT_NEXT 5) * 2 ^ 32 < (s 1000).reg .TB_INC_INC ∧
     sdiff 64 (s 1001).tb.tb ((s 1001).reg .TB_ACTNEXT_NEXT 5) < 0) ∧
    (let s : State := { cycle := 9, tb := { pulses := [{ pin := 1, start32 := 32, end32 := 288 }] } }
     (∃ q ∈ s.tb.pulses, q.pin = 1 ∧ q.end32 ≤ 32 * s.cycle) ∧ ∀ q ∈ s.tb.pulses.filter (fun q => !(q.pin == 1 && decide (q.end32 ≤ 32 * s.cycle))),
       q.pin = 1 → 32 * s.cycle < q.start32) ∧
    (∀ k < 2, State.reg { regs := [((.TB_ACTCTL_KIND, 5), k), ((.TB_ACTCTL_PERIODIC, 5), k)] } .TB_ACTCTL_KIND 5 = k) := by decide +kernel

/-- Channel 1 with a state. -/
def channel1 (c : DramCh) (cycle : Nat := 300) : State := { cycle := cycle, host := { ch := [(1, c)] } }

theorem witness_DramCommandsKeepRowsAndMoveBursts :
    (let s := channel1 { preAt := [(2, 278)] }
     let soon := fun (s : State) (k : Nat) => s.bankBusy (s.dram 1) k || s.early ((s.dram 1).preAt.get? k) 180 || s.early (s.dram 1).preAllAt 210
     (s.dram 1).rows.get? 2 = none ∧ soon s 2 = false ∧ soon (channel1 { preAt := [(2, 279)] }) 2 = true ∧
     ∀ k < 16, soon (channel1 { preAllAt := some 274 }) k = false) ∧
    (let s := channel1 { rows := [(2, 1)], actAt := [(2, 249)], wck := true }
     (s.dram 1).rows.get? 2 = some 1 ∧ (s.bankBusy (s.dram 1) 2 || ((s.dram 1).rows.get? 2).isSome && s.early ((s.dram 1).actAt.get? 2) 420) = false ∧
     (∀ k < 16, (s.bankBusy (s.dram 1) k || ((s.dram 1).rows.get? k).isSome && s.early ((s.dram 1).actAt.get? k) 420) = false) ∧
     (let t := channel1 { rows := [(2, 1)], actAt := [(2, 250)] }
      (t.bankBusy (t.dram 1) 2 || ((t.dram 1).rows.get? 2).isSome && t.early ((t.dram 1).actAt.get? 2) 420) = true) ∧
     s.bankBusy (s.dram 1) 2 = false ∧ s.early ((s.dram 1).actAt.get? 2) 180 = false ∧ winRegion (winAddr 1 2 1 (100 / 32 * 32)) = .cmd ∧
     winRegion (winAddr 1 2 1 (100 / 64 * 64)) = .cmd ∧ Memory.wf s.mem = true ∧ Memory.wf s.win = true) ∧
    ((channel1 {}).dram 1).wck = false ∧ ((channel1 { wck := true }).dram 1).wck = true ∧ ((channel1 { wck := true }).dram 1).rows.get? 2 = none := by
  decide +kernel

theorem witness_DramModesAndPowerTakeEffect : (4 ≤ 4 ∧ 8 ≤ 8) ∧ (mrWritable 3 = true ∧ mrUnsupported 3 0 = false) ∧
    mrUnsupported 3 8 = true ∧ (mrWritable 9 = false ∧ ¬ (4 ≤ 9 ∧ 9 ≤ 8)) ∧
    (CasOp.wsOff ≠ .writeX ∧ CasOp.wsOff ≠ .dataCopy) ∧
    (let soon := fun (s : State) (k : Nat) => s.bankBusy (s.dram 1) k || s.early ((s.dram 1).preAt.get? k) 180 || s.early (s.dram 1).preAllAt 210
     (∀ k < 16, soon (channel1 { preAllAt := some 274 }) k = false) ∧ soon (channel1 { preAt := [(2, 279)] }) 2 = true) ∧
    ((channel1 { fifo := [[1]] }).dram 1).fifo = [[1]] ∧ ((channel1 { selfRefresh := true }).dram 1).selfRefresh = true := by decide +kernel

/-! Witnesses: host commands, commits, loading, refinement -/

/-- A packet in slot 3. -/
def pkt (op : Nat) (params : List Nat) (mover : Option Nat := none) (outcome : Option (Nat × List Nat) := none) : Packet :=
  { slot := 3, opcode := op, plen := params.length, params := params, mover := mover, outcome := outcome }

theorem witness_HostCommandsRunAndAreAnswered :
    (cmd 0x001 [1, 2]).ordPacket 3 0x001 = some (pkt 0x001 [1, 2]) ∧ Memory.wf (cmd 0x001).win = true ∧
    (State.isFrozen { frozen := [{ master := 0 }] } 0 = true) ∧ Memory.wf (cmd 0x001).mem = true ∧ coreOneOpcode 0x001 = false ∧
    (∀ op ∈ [0x020, 0x200, 0x300, 0x600, 0x601, 0x602, 0x701], coreOneOpcode op = true) ∧
    ((withRegs [((.BOOT_STATE_STATE, 0), 5)]).isFrozen 0 = false ∧ (withRegs [((.BOOT_STATE_STATE, 0), 5)]).reg .BOOT_STATE_STATE = 5) ∧
    (cmd 0x001).host.busy.get? 3 = some (pkt 0x001 []) ∧
    ((cmd 0x010 (leBytes 8 0x60500010 ++ [2])).ordPacket 3 0x010 = some (pkt 0x010 (leBytes 8 0x60500010 ++ [2])) ∧
      0x60500010 % 8 = 0 ∧ secKey 0x60500010 = false ∧ isRegWord 0x60500010 = true ∧ 0x60500014 % 8 ≠ 0 ∧
      isRegWord 0x100000000 = false ∧ secKey 0x60C08000 = true) ∧
    (let e := fun (a m : Nat) => [1, 0, 0, 0, 0, 0, 0, 0] ++ leBytes 8 a ++ leBytes 8 m ++ leBytes 8 5
     regEntries (pkt 0x011 (e 0x60500010 0xFF)) = [(0x60500010, 0xFF, 5)] ∧ entryCheck (0x60500010, 0xFF, 5) = none ∧
     entryCheck (0x60000000, 2 ^ 32, 5) = some .regRo ∧ entryCheck (0x60000004, 0, 5) = some .field) ∧
    ((thawTarget 0xFF00).toOption = some 0 ∧ (thawTarget 15).toOption = some (0x10000 + 15) ∧ (cmd 0x030 [0, 255]).isFrozen 0 = false ∧
      ({ cmd 0x030 [15, 0] with frozen := [{ master := 0x10000 + 15 }] }).isFrozen (0x10000 + 15) = true) ∧
    (cmd 0x400 [5]).ordPacket 3 0x400 = some (pkt 0x400 [5]) := by decide +kernel

/-- A mover runs a command of slot 3. -/
def moving (op : Nat) (params : List Nat) (pages : KMap Nat PageState) (outcome : Option (Nat × List Nat) := none) : State :=
  { regs := [((.MEM_STAGE_BASE, 0), 0x200000000)], host := { busy := [(3, pkt op params (some 0) outcome)], pages := pages } }

theorem witness_MoversCopyAndStagingPagesFollow :
    (let s : State := { host := { busy := [(3, pkt 0x100 [])], moverQ := [3] } }
     s.host.moverQ = [3] ∧ s.freeMover = some 0 ∧ s.host.busy.get? 3 = some (pkt 0x100 [])) ∧
    (let s := moving 0x101 [] [(2, .filling)] (some (0, []))
     let p := { pkt 0x101 [] (some 0) (some (0, [])) with fills := [2], waits := [3] }
     let t : State := { s with host := { s.host with busy := [(3, p)] } }
     t.moverPacket 0 = some p ∧ p.outcome = some (0, []) ∧ coreOneOpcode (p.opcode % 4096) = false ∧ t.isFrozen 0 = false ∧
     (∀ q ∈ p.waits, t.pageSt q ≠ some .filling) ∧ t.host.pages.get? 2 = some .filling ∧ 2 ∈ p.fills) ∧
    (let d := leBytes 8 0x300000000 ++ leBytes 8 0x300001000 ++ leBytes 4 64 ++ [0]
     let s := moving 0x100 d []
     let p := pkt 0x100 d (some 0)
     s.packetIn 3 0x100 = some p ∧ s.host.moverQ.head? ≠ some 3 ∧ pU8 p 20 = 0 ∧ s.moveBad p = false ∧
     inStack (pU64 p 0) (pU32 p 16) = true ∧ s.stackPages (pU64 p 0) (pU32 p 16) = [] ∧ s.poison = [] ∧ s.ue = [] ∧ Memory.wf s.mem = true) ∧
    (let d := leBytes 4 8192 ++ leBytes 4 4096 ++ [1]
     pU32 (pkt 0x101 d) 0 % 4096 = 0 ∧ pU32 (pkt 0x101 d) 4 = 4096 ∧ pU32 (pkt 0x101 d) 0 + 4096 ≤ 0x10000000 ∧
     (moving 0x101 d []).pageSt (pU32 (pkt 0x101 d) 0 / 4096) = none ∧ (moving 0x101 d []).host.pages.length < 1024 ∧ pU8 (pkt 0x101 d) 8 = 1 ∧ (moving 0x102 d [(2, .dirty)]).pageSt 2 = some .dirty ∧
     (moving 0x103 d [(2, .resident)]).pageSt 2 = some .resident) := by decide +kernel

/-- A commit with nothing staged breaks no rule. -/
theorem nothing_staged_breaks_no_rule : ((cmd 0x020).started (pkt 0x020 [])).commitBreach = none := by decide +kernel

/-- A verdict unit's ingress slack of 0 is refused while its slot holds a network. -/
theorem zero_slack_breaks_a_rule :
    ((State.started { cmd 0x020 with staged := [((.VRD_INGRESS_SLACK, 1), 0)], nets := [(1, { live := some net1 })] }
      (pkt 0x020 [])).commitBreach.isSome = true) := by decide +kernel

/-- A held commit with nothing staged breaks no rule. -/
theorem held_breaks_no_rule : ({ cmd 0x020 with commit := .held 3 } : State).commitBreach = none := by decide +kernel

/-- One register field stands under each of the two words, none under the third. -/
theorem pieces_of_words :
    (∃ p, maskedPieces 0x60500010 0xFF 5 = [(p, 0xFF, 5)] ∧ p.reg.info.acc = .rw ∧ p.reg.info.imm = false ∧ p.reg ∉ lctrlFields) ∧
    (∃ p, maskedPieces 0x60000000 (2 ^ 32) 0 = [(p, 1, 0)] ∧ p.reg.info.acc = .ro) ∧ regPieces 0x600FFFF8 = [] := by
  refine ⟨⟨{ reg := .VRD_PORTS_MAP, inst := 0, flo := 0, wlo := 0, w := 16 }, by decide +kernel⟩,
    ⟨{ reg := .CHIP_STEP_STEP, inst := 0, flo := 0, wlo := 32, w := 8 }, by decide +kernel⟩, by decide +kernel⟩

theorem witness_RegisterWritesWaitForTheirCommit :
    ((∃ p, maskedPieces 0x60500010 0xFF 5 = [(p, 0xFF, 5)] ∧ p.reg.info.acc = .rw ∧ p.reg.info.imm = false ∧ p.reg ∉ lctrlFields) ∧
     (∃ p, maskedPieces 0x60000000 (2 ^ 32) 0 = [(p, 1, 0)] ∧ p.reg.info.acc = .ro) ∧ regPieces 0x600FFFF8 = []) ∧
    (State.unpoked {} 0x60500010 0xFF = 0xFF ∧ State.unpoked {} 0x60000000 (2 ^ 32) = 2 ^ 32 ∧
     (State.poked {} 0x60500010 0x0F).unpoked 0x60500010 0xFF = 0xF0) ∧
    (((cmd 0x020).started (pkt 0x020 [])).commitBreach = none) ∧
    ((State.started { cmd 0x020 with staged := [((.VRD_INGRESS_SLACK, 1), 0)], nets := [(1, { live := some net1 })] }
      (pkt 0x020 [])).commitBreach.isSome = true) ∧
    (({ cmd 0x020 with commit := .held 3 } : State).commitBreach = none) ∧
    (State.isFrozen { frozen := [{ master := 0 }] } 0 = true ∧ State.isFrozen {} 0 = false ∧ State.owned {} 0 0x60500010 = true ∧
      State.owned {} 0 0x60000000 = true ∧ State.owned {} 8 0x60000000 = false ∧ State.owned {} 0 0x60C08000 = false) ∧
    ((∀ p < 16, State.portSt {} p = 0) ∧ (portIn 2 {} [((.OPX_PCTRL_ROLE, 3), 1)]).reg .OPX_PCTRL_ROLE 3 = 1 ∧
      (portIn 2 {} [((.OPX_PCTRL_ROLE, 3), 1)]).portSt 3 = 2) ∧
    (let s (p : Packet) : State := { host := { busy := [(7, p)] }, ctl := [(0, { mbox := [7, 8] }), (1, { mbox := [7, 8] })] }
     let load := { pkt 0x200 [] with slot := 7 }
     let commit := { pkt 0x020 [] with slot := 7 }
     let done_ := { commit with outcome := some (0, []) }
     ((s load).ctl.getD 1 {}).mbox = [7, 8] ∧ ((s done_).ctl.getD 0 {}).mbox = [7, 8] ∧ (s load).isFrozen 1 = false ∧
     (s load).isFrozen 0 = false ∧ (s load).host.busy.get? 7 = some load ∧ loaderOpcode (0x200 % 4096) = true ∧
     (s commit).host.busy.get? 7 = some commit ∧ loaderOpcode (0x020 % 4096) = false ∧ (s done_).host.busy.get? 7 = some done_ ∧
     done_.outcome = some (0, []) ∧ ({ s load with host := {} } : State).host.busy.get? 7 = none) ∧ (65536 % 65536 = 0 ∧ 65535 % 65536 ≠ 0) ∧
    (let s := cmd 0x020
     s.ordPacket 3 0x020 = some (pkt 0x020 []) ∧ s.commit = .idle ∧ s.cycle < { s with oldUntil := 1 }.oldUntil ∧ s.oldUntil ≤ s.cycle) ∧
    (let s (done_ : List Nat) (c : Nat) : State := { cycle := c, commit := .prepared 3 5 [2] done_ 9 }
     (s [] 61205).commit = .prepared 3 5 [2] [] 9 ∧ 2 ∈ [2] ∧ (s [] 61205).isFrozen 10 = false ∧ (s [] 61205).leadReady 2 [] = true ∧
     (s [] 61205).cycle ≤ 5 + 61200 ∧ 5 + 58800 ≤ (s [] 58805).cycle ∧ (s [] 58805).isFrozen 1 = false ∧ (s [2] 9).cond.dirty = false ∧
     (s [2] 9).replayOnRemap = false ∧ State.unconverted {} = false ∧ ∀ r ∈ [2], r ∈ [2]) ∧
    (let s : State := { cmd 0x020 with commit := .held 3 }
     s.commit = .held 3 ∧ s.host.busy.get? 3 = some (pkt 0x020 []) ∧ s.oldUntil ≤ s.cycle ∧ s.isFrozen 1 = false) ∧
    (let s (w : List (Nat × Nat)) : State :=
       { cycle := 9, commit := .broadcast 9 1, staged := [((.VRD_PORTS_MAP, 1), 3), ((.FAB_UCFG_MODE, 0), 1)], memS := { restored := w } }
     (s []).commit = .broadcast 9 1 ∧ 9 ≤ (s []).cycle ∧ (s []).ints.remap = none ∧ (s [(sramBase 0 0, 9)]).restoredIn 9 = true ∧
     ∀ y ∈ (s [(sramBase 0 0, 8)]).memS.restored, y.2 < 9) := by
  refine ⟨pieces_of_words, by decide, nothing_staged_breaks_no_rule, zero_slack_breaks_a_rule, held_breaks_no_rule, by decide +kernel⟩

/-- Slot 1 of a loader's state. -/
def slot1 (n : SlotNet) (s : State) : State := { s with nets := [(1, n)] }

/-- The rules of LOAD's checks on a whole image, and what a Falcon key is, rest on bytes and on free functions of Config: the clauses
about an image that passes and a key that is valid are shown up to those. -/
theorem witness_LoaderLoadsUnloadsPromotesAndCancels :
    (∀ op ∈ [0x200, 0x201, 0x202, 0x203, 0x204, 0x210], (ldr op [1]).loaderPacket 3 op = some (pkt op [1])) ∧
    ((slot1 { loading := some {} } (ldr 0x200 [1])).nets.any (fun (e : Nat × SlotNet) => e.2.loading.isSome) = true) ∧
    (let s := ldr 0x200 [1] [((.MEM_STAGE_BASE, 0), 0x200000000)]
     (s.nets.any (fun (e : Nat × SlotNet) => e.2.loading.isSome) = false) ∧
     (match (s.stagedImage 0).1 with | .ok bs => bs.length == 64 | .error _ => false) = true ∧
     (match (s.stagedImage 0x0FFFFFFF).1 with | .ok _ => false | .error _ => true) = true ∧
     (match (s.stagedImage 0).2.checkImage 1 false (List.replicate 64 0) with | .ok _ => false | .error _ => true) = true) ∧
    (let i : Image := { imageId := 4, vstream := 9, passData := [{ unit := 2, off := 64, data := [7] }] }
     let s := slot1 { loading := some i } (ldr 0x200 [1])
     (s.netSlot 1).loading = some i ∧ s.host.loaderQ.head?.bind s.host.busy.get? = some (pkt 0x200 [1]) ∧ pU8 (pkt 0x200 [1]) 0 = 1 ∧
     s.isFrozen 1 = false ∧ s.broadcasting = false ∧ s.jobsInWay i = [] ∧ s.restoreInWay i = false ∧
     { s with jobs := [(0, { joined := [0] })] }.jobsInWay i ≠ [] ∧
     { s with memS := { restore := [(15, [{ addr := sramOf 15 + 64 }])] } }.restoreInWay i = true ∧
     kindOf (leBytes 4 i.magic ++ List.replicate 34 0 ++ leBytes 2 i.flags) ≠ .bank ∧
     kindOf (leBytes 4 i.magic ++ List.replicate 34 0 ++ leBytes 2 1) = .bank ∧
     ((slot1 { live := some net1, loading := some i } (ldr 0x201 [1])).netSlot 1).live = some net1 ∧ i.passData.length = 1 ∧ i.fawn = []) ∧
    (let n := (slot1 { live := some net1 } (ldr 0x202 [1])).netSlot 1
     ¬ ((ldr 0x202 [1]).netSlot 1).live.isSome ∧ n.live.isSome = true ∧ n.staged = none ∧ n.loading = none ∧ n.unload = false) ∧
    (((slot1 { live := some net1, staged := some (.bank net1 false) } (ldr 0x203 [1])).netSlot 1).staged = some (.bank net1 false) ∧
      (ldr 0x203 [1]).draining = false ∧ ((ldr 0x203 [1]).netSlot 1).live = none) ∧
    (((slot1 { staged := some (.load net1) } (ldr 0x204 [1])).netSlot 1).staged = some (.load net1) ∧
      ((slot1 { staged := some (.bank net1 true) } (ldr 0x204 [1])).netSlot 1).staged = some (.bank net1 true) ∧ ((ldr 0x204 [1]).netSlot 1).staged = none) ∧
    (let s := ldr 0x210 [1] [((.MEM_STAGE_BASE, 0), 0x200000000)]
     s.stageDirty 0 1793 = false ∧ 0 + 1793 ≤ stageBytes ∧ inStack 0x200000000 1793 = true ∧ s.keys.length < 8 ∧
     s.poison = [] ∧ s.ue = [] ∧ 8 ≤ { s with keys := List.replicate 8 {} }.keys.length ∧
     { s with host := { s.host with pages := [(0, .dirty)] } }.stageDirty 0 1793 = true ∧
     { s with keys := [{ id := 1 }] }.keys.any (·.id == 1) = true) ∧
    (let s (c : Nat) : State := slot1 { drainC := some 100, old := some net1 } { cycle := c }
     ((s 520).netSlot 1).drainC = some 100 ∧ ((s 520).netSlot 1).old = some net1 ∧ ((s 520).netSlot 1).live = none ∧
     100 + net1.img.lnet + 20 ≤ (s 520).cycle ∧ (s 519).cycle < 100 + net1.img.lnet + 20) ∧
    ((withRegs [((.NSL_CTRL_SIG_REQUIRED, 0), 1)]).flag .NSL_CTRL_SIG_REQUIRED = true ∧
      (withRegs [((.NSL_CTRL_SIG_REQUIRED, 0), 0)]).flag .NSL_CTRL_SIG_REQUIRED = false) := by decide +kernel

/-- Job 0 of the network in slot 1, in a state. -/
def job0 (st cycle : Nat) (b : Job) : State :=
  { cycle := cycle, regs := [((.NSL_JOB_STATE_STATE, 0), st), ((.NSL_JOB_LIMIT_CYCLES, 0), 50)], jobs := [(0, b)]
    nets := [(1, { live := some net1 })] }

theorem witness_JobsStartTrainAndEndAndSamplersCopy :
    (let q : SampleReq := { slot := 1, tag := 65, ingressTB := 7, cyc := 10, accepted := true }
     let e : RetEntry := { slot := 1, tag := 65, markTB := 7, pos := stackLo, len := 64 }
     let s (c len : Nat) (ret : List RetEntry) (bad : List Nat) : State :=
       { cycle := c, samplers := [(1, { waiting := [q] })], memS := { ret := ret }, poison := bad
         regs := [((.NSL_SMP_RLEN_LEN, 1), len), ((.NSL_SMP_RING_BASE, 1), 0x200000000)] }
     ((s 4106 4 [] []).sampler 1).waiting = [q] ∧ q.cyc + 4096 < (s 4107 4 [] []).cycle ∧ q.cyc + 4096 ≤ (s 4106 4 [] []).cycle ∧
     (s 4105 4 [] []).cycle < q.cyc + 4096 ∧ (s 9 0 [e] []).reg .NSL_SMP_RLEN_LEN 1 * 64 < ((s 9 0 [e] []).sampleBytes q 0 0 (bytesAt ((s 9 0 [e] []).rd e.pos e.len) 64 0)).length ∧
     (s 9 4 [] []).retFind 1 q.tag q.epoch q.ingressTB = none ∧
     (s 9 4 [e] []).retFind 1 q.tag q.epoch q.ingressTB = some e ∧ (∃ w ∈ stackWords e.pos e.len, w ∈ (s 9 4 [e] [stackLo]).poison) ∧
     (s 9 4 [e] []).poison = [] ∧ (s 9 4 [e] []).ue = [] ∧
     (∀ r ∈ [[], [e]], (s 9 4 r []).memTurn 5 = true) ∧ (s 9 4 [e] []).reg .NSL_SMP_RING_BASE 1 ≠ 0 ∧ State.reg {} .NSL_SMP_RING_BASE 1 = 0 ∧
     ({ s 9 4 [e] [] with memS := { retQueue := [{ mark := 8 }] } } : State).memTurn 5 = false ∧
     ((s 9 4 [e] []).sampleBytes q 0 0 (bytesAt ((s 9 4 [e] []).rd e.pos e.len) 64 0)).length ≤ (s 9 4 [e] []).reg .NSL_SMP_RLEN_LEN 1 * 64 ∧
     0 < ((s 9 4 [e] []).sampleBytes q 0 0 (bytesAt ((s 9 4 [e] []).rd e.pos e.len) 64 0)).length ∧
     ((s 9 4 [e] []).sampler 1).recs = [] ∧ Memory.wf (s 9 4 [e] []).mem = true) ∧
    (let d := [0, 1, 1, 0] ++ leBytes 4 0 ++ leBytes 4 9 ++ leBytes 2 1 ++ leBytes 2 1 ++ leBytes 8 stackLo ++ leBytes 8 0x200000000
       ++ leBytes 4 4096 ++ leBytes 4 0x3A83126F ++ leBytes 4 0x3F666666 ++ leBytes 4 0x3F7FBE77 ++ leBytes 4 0x322BCC77
     let s := ldr 0x300 d
     s.loaderPacket 3 0x300 = some (pkt 0x300 d) ∧ jobFieldsOk (pkt 0x300 d) = true ∧ jobFieldsOk (pkt 0x300 []) = false ∧
     s.reg .NSL_JOB_STATE_STATE 0 = 0 ∧ (∀ st ∈ [1, 2, 3], (job0 st 0 {}).reg .NSL_JOB_STATE_STATE 0 = st) ∧
     (match (s.jobImage stackLo).1 with | .ok bs => bs.length == 64 | .error _ => false) = true ∧
     (match ({ s with poison := [stackLo] }.jobImage stackLo).1 with | .ok _ => false | .error _ => true) = true) ∧
    ((cmd 0x301 [0]).ordPacket 3 0x301 = some (pkt 0x301 [0]) ∧ (cmd 0x301 [0]).reg .NSL_JOB_STATE_STATE 0 = 0) ∧
    (let b : Job := { slot := 1, baseId := 4, count := 1, first := 5, last := 8, batch := 2, passes := 2, blocks := [{}] }
     (job0 1 0 b).jobs.get? 0 = some b ∧ ((job0 1 0 b).jobBase b).isSome = true ∧ (job0 1 0 b).draining = false ∧
     (job0 1 0 b).power.granted = [] ∧ (job0 1 0 { b with baseId := 9 }).jobBase { b with baseId := 9 } = none ∧
     (let a := { b with joined := [0] }
      (job0 1 0 a).jobs.get? 0 = some a ∧ a.fixed = false ∧ a.blocks ≠ [] ∧ ((job0 1 0 a).takeSamples 0 a).1 = false ∧
      (let s : State := { job0 1 0 a with samplers := [(1, { recs := [{ seq := 5, pos := 0, len := 64 }] })], poison := [0x200000000]
                                          regs := [((.NSL_SMP_RLEN_LEN, 1), 4), ((.NSL_SMP_RING_BASE, 1), 0x200000000), ((.NSL_JOB_POS_SEQ, 0), 5)] }
       (s.takeSamples 0 a).1 = true)) ∧
     (let g : Leave := { cls := 4, req := 0x3000, work := 0, region := some 0, cyc := 9 }
      let s : State := { job0 1 9 b with power := { granted := [g] } }
      s.power.granted = [g] ∧ g.cls = 4 ∧ g.work = 0 ∧ g.region = some 0 ∧ g.cyc ≤ s.cycle ∧ b.joined = [] ∧ b.count = 1 ∧ b.blocks ≠ [] ∧
      (s.sampler b.slot).recs = [] ∧ s.clusterFree b.img (17 * 0 + 0) = true) ∧
     (let y := { b with joined := [0], stepStart := some 9, passes := 1, batch := 4, layouts := [List.replicate 16 0, List.replicate 16 0] }
      (job0 2 59 y).jobs.get? 0 = some y ∧ y.stepStart = some 9 ∧ (job0 2 59 y).cycle ≤ 9 + (job0 2 59 y).reg .NSL_JOB_LIMIT_CYCLES 0 ∧
      9 + (job0 2 60 y).reg .NSL_JOB_LIMIT_CYCLES 0 < (job0 2 60 y).cycle ∧ ((job0 2 59 y).jobBase y).isSome = true ∧ y.leaving = [] ∧
      (readLayout (nth [] y.layouts 0)).isSome = true ∧ (readLayout (nth [] y.layouts 1)).isSome = true ∧
      (readAll readScale y.scaleRecs).isSome = true ∧ Memory.wf (job0 2 59 y).mem = true ∧ Memory.wf (job0 2 59 y).win = true) ∧
     (let pb : ParamBlock := { w := List.replicate 64 0x3F800000 }
      pb.w.length = 64 ∧ pb.isScale = false ∧ { pb with isScale := true }.isScale = true ∧ pb.w.all (fun w => match fDec w with | .nan => false | _ => true) = true) ∧
     (job0 1 0 b).clusterFree b.img (17 * 0 + 0) = true ∧
     (let s := job0 2 100 { b with joined := [0], stepStart := some 9 }
      s.reg .NSL_JOB_STATE_STATE 0 = 2 ∧ 9 + s.reg .NSL_JOB_LIMIT_CYCLES 0 < s.cycle ∧
      (let count := (b.last + 2 ^ 32 - b.first % 2 ^ 32) % 2 ^ 32 + 1
       let at_ := (s.reg .NSL_JOB_POS_SEQ 0 + 2 ^ 32 - b.first % 2 ^ 32) % 2 ^ 32 + b.batch
       count = 4 ∧ s.reg .NSL_JOB_POS_PASS 0 + at_ % 2 ^ 32 / count < 2 ^ 32))) := by
  refine ⟨by decide +kernel, by decide +kernel, by decide +kernel, ⟨by decide +kernel, by decide +kernel, by decide +kernel, by decide +kernel,
    by decide +kernel, by decide +kernel, by decide +kernel, by decide +kernel, by decide +kernel, by decide +kernel, by decide +kernel,
    by decide +kernel⟩⟩

theorem witness_ResetPinsAndTripMoveTheDevice :
    Awake {} ∧ ¬ Awake { phase := .undervolt } ∧ ({ phase := .cold } : State).phase = .cold ∧
    ({ phase := .tripped none } : State).phase = .tripped none ∧
    (let s (c : Nat) : State := { cycle := c, phase := .tripped (some 5) }
     (s 0).phase = .tripped (some 5) ∧ 5 + 12000 ≤ (s 12005).cycle ∧ (s 12004).cycle < 5 + 12000) ∧
    ({ phase := .resetn 5 } : State).phase = .resetn 5 ∧ Instr.slotScan ≠ .resetAssert ∧ Instr.slotScan ≠ .undervoltage ∧
    Instr.slotScan ≠ .thermalTrip ∧ Instr.slotScan ≠ .junctionCold ∧ Instr.slotScan ≠ .tripRelease ∧
    (∀ b d, Instr.slotScan ≠ .resetRelease b d) :=
  ⟨rfl, nofun, rfl, rfl, ⟨rfl, by decide, by decide⟩, rfl, nofun, nofun, nofun, nofun, nofun, nofun⟩

/-- What the PUF restores and whether a signature is good are free functions of Config: the clauses are shown up to those. -/
theorem witness_BootGivesAnIdentityAndAnImage :
    (∀ op ∈ [0x500, 0x501, 0x502, 0x503, 0x520], (rom op).romPacket op = some { slot := 64, opcode := op }) ∧
    (rom 0x500).waitsIdentity = true ∧ (rom 0x500 [] [((.BOOT_STATE_STATE, 0), 2)]).waitsIdentity = false ∧
    leAt ((rom 0x500).winRd 0x2000 4096) 0 4 ≠ 0x31485654 ∧
    ({ rom 0x502 with boot := { devMode := true } }).boot.devMode = true ∧ (rom 0x502).boot.devMode = false ∧
    (let d := fun (off n : Nat) => [0, 0, 0, 0] ++ leBytes 4 off ++ leBytes 4 n
     let s := fun (d : List Nat) => rom 0x503 d [((.BOOT_STATE_STATE, 0), 2), ((.SEC_STATUS_IDENTITY, 0), 1)]
     (rom 0x503 (d 0 4096)).flag .SEC_STATUS_IDENTITY = false ∧ (s (d 0 4096)).flag .SEC_STATUS_IDENTITY = true ∧
     (s (d 0 4096)).reg .BOOT_STATE_STATE = 2 ∧ pU32 { slot := 64, opcode := 0x503, params := d 0 4096 } 8 = 4096 ∧
     pU32 { slot := 64, opcode := 0x503, params := d 0 16385 } 8 = 16385 ∧
     pU32 { slot := 64, opcode := 0x503, params := d 1 4096 } 4 ≠ (s (d 1 4096)).boot.intake.length) ∧
    (let s := cmd 0x520 (List.replicate 32 1 ++ leBytes 4 4096) [((.BOOT_STATE_STATE, 0), 5)]
     s.fwRunning = true ∧ (s.ordPacket 3 0x520).isSome = true ∧ 4096 % 4096 = 0 ∧ 4096 + 4096 ≤ stageBytes ∧ 1 % 4096 ≠ 0 ∧
     (rom 0x520).fwRunning = false) := by decide +kernel

theorem witness_FirmwareIsReplacedConfirmedOrReverted :
    (∀ op ∈ [0x510, 0x511, 0x512, 0x513, 0x514], (cmd op).ordPacket 3 op = some (pkt op [])) ∧
    (let s := cmd 0x510 (leBytes 4 0 ++ leBytes 4 4096) [((.MEM_STAGE_BASE, 0), 0x200000000)]
     s.switching = false ∧ s.fwStage < 2 ∧ s.stageDirty 0 4096 = false ∧ 0 + 4096 ≤ stageBytes ∧ inStack 0x200000000 4096 = true ∧
     s.poison = [] ∧ s.ue = [] ∧ s.ce = [] ∧ { s with host := { s.host with pages := [(0, .dirty)] } }.stageDirty 0 4096 = true) ∧
    (∀ k < 4, (withRegs [((.BOOT_FWSTAT_STAGE, 0), k)]).fwStage = k ∧ (withRegs [((.BOOT_FWSTAT_STAGE, 0), k)]).switching = false) ∧
    (let s (c : Nat) : State := { cycle := c, boot := { activating := some (5, 3), cand := some {} } }
     (s 9).boot.activating = some (5, 3) ∧ (s 9).boot.cand = some {} ∧ (s 9).quiescent = true ∧
     (s 9).cycle ≤ 5 + (s 9).quiesceMs * 1200000 ∧ 5 + (s 120000005).quiesceMs * 1200000 ≤ (s 120000005).cycle ∧
     (s 120000005).cycle ≤ 5 + (s 120000005).quiesceMs * 1200000 ∧ (cmd 0x001).quiescent = false ∧
     (cmd 0x512).host.busy.get? 3 = some (pkt 0x512 []) ∧ 0x512 % 4096 = 0x512) ∧
    ((withRegs []).reg .BOOT_FWSTAT_CONFIRM_NONCE = 0 ∧ pU32 (pkt 0x513 []) 0 = 0 ∧ pU32 (pkt 0x513 [1]) 0 ≠ 0) ∧
    (let s (c : Nat) : State := { cycle := c, regs := [((.BOOT_FWSTAT_STAGE, 0), 3)], boot := { activatedAt := some 5 } }
     (s 9).boot.activatedAt = some 5 ∧ (s 9).fwStage = 3 ∧ (s 9).boot.revertAt = none ∧
     5 + (s 6000000005).confirmMs * 1200000 ≤ (s 6000000005).cycle ∧ (s 6000000004).cycle < 5 + (s 6000000004).confirmMs * 1200000) ∧
    (let s (c : Nat) : State := { cycle := c, boot := { revertAt := some (5, 64) } }
     (s 9).boot.revertAt = some (5, 64) ∧ (s 9).quiescent = true ∧ 5 + 12000000 ≤ (s 12000005).cycle ∧ (s 12000004).cycle < 5 + 12000000 ∧
     ∀ e ∈ (cmd 0x001).host.busy, e.2.slot = e.1) := by decide +kernel

/-- A replay's run takes its final token across the 80 columns, too long for a test: the clause about its result is shown up to that
run. -/
theorem witness_FailuresAreReplayedDecidedAndCompared :
    ((fawn { inEvent := true, lastTag := 65 }).eventAt 0 = some (65, 0, 0) ∧ fawn.eventAt 0 = none ∧ 0 < 0xFF00 ∧ 0xFF01 = 0xFF00 + 1 ∧
      State.flag {} .INT_STATE_DRAIN = false ∧ State.flag {} .INT_STATE_DECIDING = false ∧ State.atIdleSpare {} 0 = false ∧
      State.ints {} = {}) ∧
    (let p : CheckPost := { slot := 1, unit := 2, cls := 1, tag := 65 }
     let q : Replay := { slot := 1, tag := 65, ingressTB := 7, posts := [p], validCyc := 100 }
     let e : RetEntry := { slot := 1, tag := 65, markTB := 7, pos := stackLo, len := 64 }
     let s (c : Nat) (bad : Nat) (gr : List Leave) (act : List Replay) (qu : List Replay) : State :=
       { cycle := c, regs := [((.INT_STATE_SPARE_BAD, 0), bad)], power := { granted := gr }, memS := { ret := [e] }
         ints := { queue := qu, active := act }, nets := [(1, { live := some net1 })] }
     let g : Leave := { cls := 2, req := 0x1000 }
     (s 9 0 [] [] [q]).ints.queue = [q] ∧ (∀ r ∈ regionsFrom (replayRegion q), (s 9 255 [] [] [q]).siteUsable r = false) ∧
     (regionsFrom (replayRegion q)).find? (fun r => (s 9 0 [g] [] [q]).siteIdle r && (s 9 0 [g] [] [q]).leaveGranted 2 (0x1000 + r)) = some 0 ∧
     (s 9 0 [g] [] [q]).epochHeld q.epoch = true ∧ (s 9 0 [g] [] [q]).retFind q.slot q.tag q.epoch q.ingressTB = some e ∧
     (s 9 0 [g] [] [q]).poison = [] ∧ (s 9 0 [g] [] [q]).ue = [] ∧
     (∀ y ∈ regionsFrom (replayRegion q), (s 9 0 [] [] [q]).leaveGranted 2 (0x1000 + y) = false) ∧
     (regionsFrom (replayRegion q)).find? (s 9 0 [] [] [q]).siteIdle = some 0 ∧
     (let a := { q with site := some 0 }
      (s 9 0 [g] [a] []).ints.active.find? (fun x => x.site == some 0) = some a ∧ (s 9 0 [g] [a] []).leaveGranted 2 (0x1000 + 0) = true ∧ (s 9 0 [g] [a] []).isFrozen 8 = false ∧
      (s 9 0 [g] [a] []).epochHeld a.epoch = true ∧ (s 9 0 [g] [a] []).netFor a.slot (a.epoch % 256) = some net1 ∧ a.posts = [p] ∧
      a.overflow = false ∧ p.cls = 1 ∧
      (let late := fun (s : State) (q : Replay) => decide (q.validCyc + max 50 (s.reg .INT_CTRL_REPLAY_LIMIT) * 1200 ≤ s.cycle)
       (∀ y ∈ [a], late (s 1200099 0 [] [a] []) y = false) ∧ (s 1200100 0 [] [a] []).ints.active.find? (late (s 1200100 0 [] [a] [])) = some a ∧
       (s 1200100 0 [] [] [q]).ints.queue.find? (late (s 1200100 0 [] [] [q])) = some q))) ∧
    (let s : State := { ints := { corrected := [{ slot := 1, num := 6 }] } }
     s.ints.corrected = [{ slot := 1, num := 6 }] ∧ (s.unitV 1).events = []) ∧
    (let s (c : Nat) : State := { cycle := c, ints := { decideBy := some 9 }, regs := [((.INT_STATE_DECIDING, 0), 1)] }
     (s 9).ints.decideBy = some 9 ∧ (s 8).cycle < 9 ∧ 9 ≤ (s 9).cycle ∧ (s 9).flag .INT_STATE_DECIDING = true ∧
     (s 9).flag .INT_STATE_DRAIN = false) ∧
    (cmd 0x600).ordPacket 3 0x600 = some (pkt 0x600 []) ∧
    (let s := ldr 0x601 [0, 2]
     s.loaderPacket 3 0x601 = some (pkt 0x601 [0, 2]) ∧ s.ints.remap = none ∧ s.ints.spare.get? 0 = none ∧
     bitAt (s.reg .INT_STATE_SPARE_BAD) 0 = false ∧
     shortFail [] (s.placements.flatMap fun x => (s.step9 x.1 x.2 s.nextCfg (s.ints.spare.put 0 2)).shorts) = none ∧
     s.remapSourceOk 0 2 = true ∧ { s with ue := [unitSpace (UnitAddr.mk 0 2 0)] }.remapSourceOk 0 2 = false) ∧
    ((cmd 0x602 [2, 0, 1, 3]).ordPacket 3 0x602 = some (pkt 0x602 [2, 0, 1, 3]) ∧ UnitAddr.legal 2 = true ∧ UnitAddr.legal 0x110 = false ∧
      (cmd 0x602).unitLive 2 = false ∧
      ({ cmd 0x602 with nets := [(1, { live := some { net1 with img := { net1.img with placement := [{ unit := 2 }] } } })] }).unitLive 2 = true) ∧
    (let s (n : Nat) : State := { regs := [((.INT_SIG_LEN, 0), n), ((.INT_SIG_BASE, 0), stackLo)], ints := { sigs := [{ bytes := [7] }] } }
     (s 1).ints.sigs = [{ bytes := [7] }] ∧ (s 0).reg .INT_SIG_LEN = 0 ∧ 0 < (s 1).reg .INT_SIG_LEN ∧ Memory.wf (s 1).mem = true) ∧
    (let f := sealedFrame 6 0 (leBytes 8 1 ++ lockBytes { slot := 2, event := 6, kind := 1, value := 9 })
     let s : State := { portIn 2 {} [((.OPX_PCTRL_ROLE, 3), 1), ((.CHIP_LOCK_CTRL_ENABLE, 0), 1), ((.CHIP_LOCK_CTRL_PORT, 0), 3),
       ((.CHIP_LOCK_CTRL_SLOTS, 0), 4)] with lock := { mine := [{ slot := 2, event := 6, kind := 1, value := 9 }] } }
     frameGood 6 f = true ∧ s.portUp 3 = true ∧ (s.port 3).skipN = false ∧ s.seqNext 3 6 f = true ∧ s.reg .OPX_PCTRL_ROLE 3 = 1 ∧ s.reg .OPX_PSTAT_SAME_SYS 3 = 0 ∧
     s.lockActive = true ∧ s.reg .CHIP_LOCK_CTRL_PORT = 3 ∧ f.len = 3 ∧ bits (leAt f.payload 0 8) 0 6 = 1 ∧ bits (leAt f.payload 0 8) 6 2 = 0 ∧
     bits (leAt f.payload 0 8) 14 50 = 0 ∧ bits (leAt (bytesAt f.payload 8 16) 0 8) 36 2 = 1 ∧
     bits (leAt (bytesAt f.payload 8 16) 0 8) 38 3 = 0 ∧ bits (leAt (bytesAt f.payload 8 16) 0 8) 42 22 = 0 ∧ s.lockSlot 2 = true ∧
     s.lock.partner = [] ∧ lockOf (bytesAt f.payload 8 16) s.cycle = { slot := 2, event := 6, kind := 1, value := 9 } ∧
     verdictExcluded 9 = false) ∧
    (let s : State := { cycle := 1200, lock := { mine := [{ cyc := 0 }] }, regs := [((.CHIP_LOCK_CTRL_TIMEOUT, 0), 1)] }
     s.lock.mine = [{ cyc := 0 }] ∧ s.lock.partner = [] ∧ 0 + 1200 * max 1 (s.reg .CHIP_LOCK_CTRL_TIMEOUT) ≤ s.cycle ∧
     s.reg .CHIP_LOCK_DIV0_VALID = 0) := by
  refine ⟨by decide +kernel, by decide +kernel, by decide +kernel, by decide +kernel, by decide +kernel, by decide +kernel,
    by decide +kernel, by decide +kernel, ⟨sealedFrame_good _ _ _ (by decide +kernel) (by decide +kernel), by decide +kernel⟩, by decide +kernel⟩

theorem witness_LeaveHeatAndLogsFollowTheirRules :
    (State.leaveWanted {} 3 0x2000 none 0 = false) ∧
    (let s : State := { memS := { restore := [(15, [{ queued := true }])] } }
     s.leaveCount 1 15 < s.restoresOf 15 ∧ UnitAddr.region 15 = 0) ∧
    (let s := withRegs [((.MEM_CTRL_SCRUB_EN, 0), 1)]
     s.reg .MEM_CTRL_SCRUB_EN = 1 ∧ s.memS.scrubDue ≤ s.cycle ∧ s.leaveCount 5 0x4000 = 0) ∧ (16 % 16 = 0 ∧ 17 % 16 ≠ 0) ∧
    (let q : Leave := { cls := 5, req := 0x4000, units := 2, cyc := 8 }
     let s (c lvl : Nat) : State := { cycle := c, regs := [((.THM_STATUS_LEVEL, 0), lvl)], power := { pending := [q] } }
     (s 16 0).cycle % 16 = 0 ∧ (s 16 0).isFrozen 1 = false ∧ (s 16 0).power.pending = [q] ∧ q.cyc + 8 ≤ (s 16 0).cycle ∧
     2 ≤ (s 16 2).reg .THM_STATUS_LEVEL ∧ (s 16 0).reg .THM_STATUS_LEVEL < 2 ∧ q.cls ≠ 1 ∧
     ((2 : Nat) : Int) ≤ ((min 1400 (max 560 ((s 16 0).reg .LV_PLIMIT_UNITS)) : Nat) : Int) - 496
       - ((min 64 (max 1 ((s 16 0).reg .LV_RESERVE_RESTORE)) : Nat) : Int) - (s 16 0).leaveReserved - (s 16 0).grantedWhere (fun g => !g.reserve) ∧
     (s 16 0).grantedWhere (·.reserve) + 1 ≤ min 64 (max 1 ((s 16 0).reg .LV_RESERVE_RESTORE)) ∧
     ¬ ((2000 : Nat) : Int) ≤ ((min 1400 (max 560 ((s 16 0).reg .LV_PLIMIT_UNITS)) : Nat) : Int) - 496) ∧
    (State.workEnded {} 2 0x1000 = true ∧ State.workEnded { ints := { active := [{ site := some 0 }] } } 2 0x1000 = false) ∧
    ((List.replicate 8 (some (127 : Int)) ++ List.replicate 8 none).length = 16 ∧
      (∀ y ∈ List.replicate 8 (some (127 : Int)) ++ List.replicate 8 none, ∀ d ∈ y, -128 ≤ d ∧ d ≤ 127)) ∧
    (let s (d tj : Nat) := cmd 0x700 [] [((.THM_STATUS_DRAIN, 0), d), ((.THM_STATUS_TJ, 0), tj)]
     (s 0 0).ordPacket 3 0x700 = some (pkt 0x700 []) ∧ (s 0 0).flag .THM_STATUS_DRAIN = false ∧ (s 1 110).flag .THM_STATUS_DRAIN = true ∧
     110 ≤ sx 8 ((s 1 110).reg .THM_STATUS_TJ) ∧ sx 8 ((s 1 109).reg .THM_STATUS_TJ) < 110) ∧
    (cmd 0x701).ordPacket 3 0x701 = some (pkt 0x701 []) ∧
    (let r : LogRec := { cls := 2, code := 3 }
     let s : State := { cycle := 16, logs := { intake := [r] } }
     s.cycle % 16 = 0 ∧ s.logs.alarm = [] ∧ s.logs.intake = [r] ∧ Memory.wf s.mem = true ∧ Memory.wf s.win = true ∧
     s.logs.total.getD 0 0 < 256 ∧ { s with logs := { alarm := [r] } }.logs.alarm = [r]) ∧
    (let s (c : Nat) : State := { cycle := c, logs := { unreported := [(2, { since := 5 })] } }
     (s 9).logs.unreported.get? 2 = some { since := 5 } ∧ (s 9).logs.intake.length < 60 ∧ 5 + 1200000 ≤ (s 1200005).cycle ∧
     (s 1200004).cycle < 5 + 1200000 ∧ (s 9).logs.unreported.get? 3 = none) ∧
    (let s : State := { regs := [((.LOG_ALARM_ACK, 0), 4)], logs := { total := [(0, 9)] } }
     min 3 (s.logs.total.getD 0 0) < s.reg .LOG_ALARM_ACK ∧ s.reg .LOG_ALARM_ACK ≤ min 10 (s.logs.total.getD 0 0)) ∧
    (cmd 0x800).ordPacket 3 0x800 = some (pkt 0x800 []) ∧ (cmd 0x801).ordPacket 3 0x801 = some (pkt 0x801 []) ∧
    (cmd 0x801).logs.intake = [] := by decide +kernel

/-- Whether a firmware image verifies rests on free functions of Config: the clause of a verified image is shown up to that. -/
theorem witness_TheMonitorAnswersItsCommands :
    (baudRates[5]? = some 3000000 ∧ 9600 ∉ baudRates) ∧
    (let s (c : Nat) : State := { cycle := c, logs := { baudSince := some 5 } }
     (s 9).logs.baudSince = some 5 ∧ 5 + 6000000000 ≤ (s 6000000005).cycle ∧ (s 6000000004).cycle < 5 + 6000000000) ∧
    (4 % 8 ≠ 0 ∧ 256 < 257 ∧ 0x60000000 % 8 = 0) ∧
    (State.reset.boot.devMode = false ∧ addrKind 0x60000000 = .block ∧ monReg 0x60000000 = true ∧ addrKind stackLo = .stack) ∧
    ((match addrKind (unitSpace 0) with | .unit u off => u == 0 && off == 0 | _ => false) = true ∧ UnitAddr.isFawn 0 = true) ∧
    (pokeMemory stackLo = true ∧ bits (255 * 2 ^ 8) 8 8 = 255 ∧ bits (255 * 2 ^ 8) 0 8 = 0 ∧ pokeMemory 0x600FFFF8 = false ∧
      monReg 0x600FFFF8 = false ∧ pokeMemory 0x60500010 = false ∧ monReg 0x60500010 = true ∧ maskRo 0x60000000 (2 ^ 32) = true ∧
      maskRo 0x60500010 0xFF = false) ∧
    (let s : State := { frozen := [{ master := 0 }] }
     (inspectTarget 0xFF20).toOption = some 32 ∧ (inspectTarget 0xFF00).toOption = some 0 ∧ (inspectTarget 0x110).toOption = none ∧
     (thawTarget 0x110).toOption = none ∧ s.frozen.find? (·.master == 0) = some { master := 0 } ∧ s.isFrozen 0 = true ∧
     s.frozen.find? (·.master == 32) = none ∧ s.isFrozen 1 = false ∧ isManager 0 = false ∧ isManager 8 = true ∧
     (inspectTarget 0xFF08).toOption = some 8 ∧
     ({ frozen := [{ master := 8 }] } : State).frozen.find? (·.master == 8) = some { master := 8 }) ∧
    (let s (st : Nat) : State := { boot := { bootSrc := 1, devMode := true }, regs := [((.BOOT_STATE_STATE, 0), st)] }
     (s 7).boot.bootSrc ≠ 0 ∧ (s 7).waitsIdentity = true ∧ State.reset.boot.bootSrc = 0 ∧ (s 2).reg .BOOT_STATE_STATE = 2 ∧
     (s 2).boot.devMode = true ∧ crc32c [1] ≠ 0 ∧ ({ s 2 with boot := { bootSrc := 1 } } : State).boot.devMode = false) := by decide +kernel

theorem witness_StepRunsTheFrontCommand : ({ pending := [.slotScan, .logWrite] } : State).pending = .slotScan :: [.logWrite] ∧
    State.reset.pending = [] := ⟨rfl, rfl⟩

theorem witness_EveryStepGoesOnFromALegalState : let s : State := { pending := [.logWrite] }
    (s.stepping = 0xA2 ∨ s.stepping = 0xB0) ∧ s.boot.bootSrc < 4 ∧ (∀ c ∈ s.pending, c.wf = true) ∧ s.phase = .running ∧
    (∃ t, step s = .next t) ∧ Instr.logWrite ≠ .resetAssert := by
  refine ⟨.inr rfl, by decide, by decide, rfl, ⟨_, rfl⟩, nofun⟩

theorem witness_EveryStepKeepsTheMemoryForm : MemOk { mem := [(3, 1), (5, 255)], win := [(0x1000, 1)] } ∧
    ∃ t, step { mem := [(3, 1), (5, 255)], pending := [.logWrite] } = .next t := ⟨by unfold MemOk; decide +kernel, ⟨_, rfl⟩⟩

end Sys2Proof.Tests
end

/-! The six reset commands, every other command's frame, the steps of a legal state (O57, O58, O51, O60). -/
namespace Sys2Proof.Machine
open Sys2Proof Sys2Proof.Safety

/-! ### What a command that is none of the six reset commands can do -/

/-- The six commands of the reset pins, the rails and the trip, which alone touch time and reset (R454, R459). -/
def IsReset (i : Instr) : Prop :=
  i = .resetAssert ∨ (∃ b d, i = .resetRelease b d) ∨ i = .undervoltage ∨ i = .thermalTrip ∨ i = .junctionCold ∨ i = .tripRelease

/-- Every command but those six is an effect that only a device out of internal reset shows (R454). -/
theorem exec_eq_awake {i : Instr} (s : State) (h : ¬ IsReset i) : ∃ t, exec i s = awake s t := by
  cases i
  case resetAssert | resetRelease | undervoltage | thermalTrip | junctionCold | tripRelease => simp [IsReset] at h
  all_goals exact ⟨_, rfl⟩

/-- A device held in internal reset does not act on such a command. -/
theorem exec_of_not_awake {i : Instr} {s : State} (h : ¬ IsReset i) (hs : ¬ Awake s) : exec i s = .next s := by
  obtain ⟨t, ht⟩ := exec_eq_awake s h
  rw [ht, awake_reset hs]

/-- Every command answers a next state (R13). -/
theorem exec_next (i : Instr) (s : State) : ∃ t, exec i s = .next t := by
  by_cases h : IsReset i
  · rcases h with rfl | ⟨_, _, rfl⟩ | rfl | rfl | rfl | rfl <;> exact ⟨_, rfl⟩
  · obtain ⟨t, ht⟩ := exec_eq_awake s h
    exact ⟨_, ht⟩

/-! ### Steps -/

theorem step_of_pending {s : State} {c : Instr} {rest : List Instr} (h : s.pending = c :: rest) :
    step s = exec c { s with pending := rest } := by
  unfold step; rw [h]

theorem step_of_empty {s : State} (h : s.pending = []) : step s = .next (tick s) := by
  unfold step; rw [h]

/-- The step always goes on (R13). -/
theorem step_goes (s : State) : Goes s := by
  match h : s.pending with
  | [] => exact ⟨_, step_of_empty h⟩
  | c :: rest =>
    obtain ⟨t, ht⟩ := exec_next c { s with pending := rest }
    exact ⟨t, (step_of_pending h).trans ht⟩

/-- In internal reset nothing but the cycle passes. -/
theorem tick_of_not_awake {s : State} (h : ¬ Awake s) : tick s = { s with cycle := s.cycle + 1 } := if_neg h

/-- A cycle passes and, of what every command keeps, only the cycle count moves (R10). -/
theorem tick_keeps (s : State) : (tick s).cycle = s.cycle + 1 ∧ (tick s).pending = s.pending ∧ (tick s).stepping = s.stepping ∧
    (tick s).phase = s.phase ∧ (tick s).boot.bootSrc = s.boot.bootSrc := by
  by_cases h : Awake s
  · obtain ⟨t, ht⟩ : ∃ t, tick s = { s.keeping t with cycle := s.cycle + 1 } := ⟨_, if_pos h⟩
    rw [ht]; exact ⟨rfl, rfl, rfl, rfl, rfl⟩
  · rw [tick_of_not_awake h]; exact ⟨rfl, rfl, rfl, rfl, rfl⟩

/-- Settles O57, by the step's two cases and what a cycle keeps. -/
theorem stepRunsTheFrontCommand : Obligations.StepRunsTheFrontCommand := by
  intro s c rest
  obtain ⟨hcycle, hpending, _, hphase, _⟩ := tick_keeps s
  exact ⟨step_of_pending, fun h => ⟨step_of_empty h, hcycle, hpending.trans h, hphase⟩⟩

/-! ### Legal states -/

/-- No register off its reset value and no memory, core, network, job, key, frozen unit or staged write is held. -/
def HoldsNothing (s : State) : Prop :=
  s.regs = [] ∧ s.staged = [] ∧ s.mem = [] ∧ s.win = [] ∧ s.cores = [] ∧ s.nets = [] ∧ s.jobs = [] ∧ s.frozen = [] ∧ s.keys = []

/-- The legal states of O58. -/
def Legal (s : State) : Prop :=
  (s.stepping = 0xA2 ∨ s.stepping = 0xB0) ∧ s.boot.bootSrc < 4 ∧ (∀ c ∈ s.pending, c.wf = true) ∧ (s.phase ≠ .running → HoldsNothing s)

/-- The front command's departure from the queue. -/
theorem Legal.pop {s : State} {c : Instr} {rest : List Instr} (h : Legal s) (hp : s.pending = c :: rest) :
    Legal { s with pending := rest } := by
  obtain ⟨hstep, hsrc, hwf, hheld⟩ := h
  exact ⟨hstep, hsrc, fun x hx => hwf x (hp ▸ List.mem_cons_of_mem c hx), hheld⟩

/-- Internal reset for any reason loses all that a held device may not keep (R454). -/
theorem Legal.inReset {s : State} (h : Legal s) (why : ResetPhase) : Legal (s.inReset why) := by
  obtain ⟨hstep, _, hwf, _⟩ := h
  exact ⟨hstep, Nat.zero_lt_succ 3, hwf, fun _ => ⟨rfl, rfl, rfl, rfl, rfl, rfl, rfl, rfl, rfl⟩⟩

/-- A reset that acts only out of internal reset. -/
theorem Legal.inReset_if {s : State} (h : Legal s) (why : ResetPhase) : Legal (if s.phase = .running then s.inReset why else s) := by
  split
  · exact h.inReset why
  · exact h

/-- A held device may be held for another reason. -/
theorem Legal.setPhase {s : State} (h : Legal s) (hs : s.phase ≠ .running) (why : ResetPhase) : Legal { s with phase := why } := by
  obtain ⟨hstep, hsrc, hwf, hheld⟩ := h
  exact ⟨hstep, hsrc, hwf, fun _ => hheld hs⟩

theorem Legal.resetAssert {s : State} (h : Legal s) : Legal (resetAssert s) := by
  unfold Machine.resetAssert
  split
  case h_4 hp => exact h.setPhase (by simp [hp]) _
  all_goals first | exact h | exact h.inReset _

/-- The release samples two bits of strap, and a device out of reset may hold anything (R346). -/
theorem Legal.resetRelease {s : State} (h : Legal s) (b : Nat) (d : Bool) : Legal (resetRelease s b d) := by
  have ⟨hstep, _, hwf, _⟩ := h
  have hb : b % 4 < 4 := Nat.mod_lt b (by omega)
  unfold Machine.resetRelease
  split
  case h_1 | h_2 => exact h
  all_goals
    dsimp only
    split <;> exact ⟨hstep, hb, hwf, fun hr => absurd rfl hr⟩

theorem Legal.thermalTrip {s : State} (h : Legal s) : Legal (thermalTrip s) := by
  unfold Machine.thermalTrip
  split
  · exact h
  all_goals exact h.inReset _

theorem Legal.tripRelease {s : State} (h : Legal s) : Legal (tripRelease s) := by
  unfold Machine.tripRelease
  split
  · rename_i hp
    split
    · exact h.setPhase (by simp [hp]) _
    · exact h
  · exact h

/-- An effect out of internal reset keeps what makes a state legal. -/
theorem Legal.keeping {s : State} (h : Legal s) (hs : Awake s) (t : State) : Legal (s.keeping t) := by
  obtain ⟨hstep, hsrc, hwf, _⟩ := h
  exact ⟨hstep, hsrc, hwf, fun hr => absurd hs hr⟩

theorem Legal.exec {s t : State} {c : Instr} (h : Legal s) (he : exec c s = .next t) : Legal t := by
  by_cases hc : IsReset c
  · rcases hc with rfl | ⟨b, d, rfl⟩ | rfl | rfl | rfl | rfl <;> obtain rfl := Host.Outcome.next.inj he
    · exact h.resetAssert
    · exact h.resetRelease b d
    · exact h.inReset_if _
    · exact h.thermalTrip
    · exact h.inReset_if _
    · exact h.tripRelease
  · by_cases hs : Awake s
    · obtain ⟨u, hu⟩ := exec_eq_awake s hc
      rw [hu, awake_running hs] at he
      obtain rfl := Host.Outcome.next.inj he
      exact h.keeping hs u
    · rw [exec_of_not_awake hc hs] at he
      obtain rfl := Host.Outcome.next.inj he
      exact h

theorem Legal.tick {s : State} (h : Legal s) : Legal (tick s) := by
  by_cases hs : Awake s
  · obtain ⟨hstep, hsrc, hwf, _⟩ := h
    obtain ⟨_, hpending, hstepping, hphase, hboot⟩ := tick_keeps s
    exact ⟨hstepping ▸ hstep, hboot ▸ hsrc, hpending ▸ hwf, fun hr => absurd (hphase.trans hs) hr⟩
  · rw [tick_of_not_awake hs]; exact h

theorem Legal.step {s t : State} (h : Legal s) (hst : step s = .next t) : Legal t := by
  match hp : s.pending with
  | [] =>
    rw [step_of_empty hp] at hst
    exact Host.Outcome.next.inj hst ▸ h.tick
  | c :: rest => exact (h.pop hp).exec ((step_of_pending hp).symm.trans hst)

/-- Settles O58: every command that is no reset command is an effect that `awake` guards, and each reset command, each other
command and each cycle keeps a state legal. -/
theorem everyStepGoesOnFromALegalState : Obligations.EveryStepGoesOnFromALegalState := by
  intro s i straps legal resets
  refine ⟨?_, step_goes s, fun t => Legal.step⟩
  by_cases h : IsReset i
  · obtain ⟨t, ht⟩ := exec_next i s
    exact ⟨t, ht, fun hn => absurd h hn⟩
  · obtain ⟨t, ht⟩ := exec_eq_awake s h
    obtain ⟨u, hu, hcycle, hpending, hstepping, hphase, hsrc, hdev⟩ := awake_next s t
    exact ⟨u, ht.trans hu, fun _ => ⟨hcycle, hpending, hstepping, Prod.ext hsrc hdev, hphase⟩⟩

/-! ### The reset commands by the phase they find -/

/-- The device as a release starts it, its straps sampled and the ROM, or the monitor for a SERIAL strap, running (R346, R347). -/
def State.released (s : State) (b : Nat) (d : Bool) : State :=
  let t := { s.inReset .running with cycle := 0, boot := { bootSrc := b % 4, devMode := d } }
  if b % 4 == 0 then t else t.setReg .BOOT_STATE_STATE 0 7

/-- A release starts a device held by anything but the trip. -/
theorem exec_resetRelease_of_held {s : State} (h : (s.phase = .undervolt ∨ s.phase = .cold) ∨ ∃ c, s.phase = .resetn c)
    (b : Nat) (d : Bool) : exec (.resetRelease b d) s = .next (s.released b d) := by
  show Host.Outcome.next (resetRelease s b d) = _
  unfold resetRelease
  obtain (h | h) | ⟨c, h⟩ := h <;> rw [h] <;> rfl

/-- A running device and one the trip holds do not act on a release (R460). -/
theorem exec_resetRelease_of_not_held {s : State} (h : (∃ c, s.phase = .tripped c) ∨ Awake s) (b : Nat) (d : Bool) :
    exec (.resetRelease b d) s = .next s := by
  show Host.Outcome.next (resetRelease s b d) = _
  unfold resetRelease
  obtain ⟨c, h⟩ | h := h <;> rw [h]

theorem State.released_reg_state (s : State) (b : Nat) (d : Bool) :
    (s.released b d).reg .BOOT_STATE_STATE = if b % 4 = 0 then 1 else 7 := by
  by_cases hb : b % 4 = 0 <;> simp only [State.released, hb, beq_self_eq_true, beq_iff_eq, if_true, if_false]
  · rfl
  · exact State.reg_setReg _ _ _ _

theorem State.released_reg_ne (s : State) (b : Nat) (d : Bool) {r : Reg} (hr : r ≠ .BOOT_STATE_STATE) (k : Nat) :
    (s.released b d).reg r k = (s.released b d).resetVal r k := by
  unfold State.released
  dsimp only
  split
  · rfl
  · exact State.reg_setReg_ne _ _ _ _ _ _ fun e => hr (congrArg Prod.fst e).symm

/-- A reading that no register write changes sees the release's fresh state. -/
theorem State.released_keeps {β : Type} (g : State → β) (h : ∀ (x : State) m, g { x with regs := m } = g x) (s : State) (b : Nat)
    (d : Bool) :
    g (s.released b d) = g { s.inReset .running with cycle := 0, boot := { bootSrc := b % 4, devMode := d } } := by
  unfold State.released
  dsimp only
  split
  · rfl
  · exact h _ _

/-- RESETn's fall by the phase it finds (R459, R460). -/
theorem exec_resetAssert_cases (s : State) :
    (Awake s ∨ s.phase = .undervolt ∨ s.phase = .cold → exec .resetAssert s = .next (s.inReset (.resetn s.cycle))) ∧
    (s.phase = .tripped none → exec .resetAssert s = .next { s with phase := .tripped (some s.cycle) }) ∧
    (∀ c, s.phase = .tripped (some c) ∨ s.phase = .resetn c → exec .resetAssert s = .next s) := by
  have run : exec .resetAssert s = .next (resetAssert s) := rfl
  rw [run]; unfold resetAssert
  refine ⟨?_, fun h => by rw [h], ?_⟩
  · rintro (h | h | h) <;> rw [h]
  · rintro c (h | h) <;> rw [h]

/-- The trip by the phase it finds (R460). -/
theorem exec_thermalTrip_cases (s : State) :
    (Awake s ∨ s.phase = .undervolt ∨ s.phase = .cold → exec .thermalTrip s = .next (s.inReset (.tripped none))) ∧
    (∀ c, s.phase = .resetn c → exec .thermalTrip s = .next (s.inReset (.tripped (some c)))) ∧
    (∀ c, s.phase = .tripped c → exec .thermalTrip s = .next s) := by
  have run : exec .thermalTrip s = .next (thermalTrip s) := rfl
  rw [run]; unfold thermalTrip
  refine ⟨?_, fun c h => by rw [h], fun c h => by rw [h]⟩
  rintro (h | h | h) <;> rw [h]

/-- The trip lets go once RESETn has been low for 10 µs, and only then (R460). -/
theorem exec_tripRelease_cases (s : State) :
    (∀ c, s.phase = .tripped (some c) → (c + 12000 ≤ s.cycle → exec .tripRelease s = .next { s with phase := .resetn c }) ∧
      (s.cycle < c + 12000 → exec .tripRelease s = .next s)) ∧
    ((∀ c, s.phase ≠ .tripped (some c)) → exec .tripRelease s = .next s) := by
  have run : exec .tripRelease s = .next (tripRelease s) := rfl
  rw [run]; unfold tripRelease
  refine ⟨fun c h => ?_, fun h => ?_⟩
  · rw [h]
    exact ⟨fun hc => by simp only [if_pos hc], fun hc => by simp only [if_neg (Nat.not_le.2 hc)]⟩
  · split
    · exact absurd ‹_› (h _)
    · rfl

/-- Undervoltage and cold act on a device out of reset (R454, R462). -/
theorem exec_undervoltage_of_awake {s : State} (h : Awake s) : exec .undervoltage s = .next (s.inReset .undervolt) :=
  congrArg Host.Outcome.next (if_pos h)
theorem exec_undervoltage_of_not_awake {s : State} (h : ¬ Awake s) : exec .undervoltage s = .next s :=
  congrArg Host.Outcome.next (if_neg h)
theorem exec_junctionCold_of_awake {s : State} (h : Awake s) : exec .junctionCold s = .next (s.inReset .cold) :=
  congrArg Host.Outcome.next (if_pos h)
theorem exec_junctionCold_of_not_awake {s : State} (h : ¬ Awake s) : exec .junctionCold s = .next s :=
  congrArg Host.Outcome.next (if_neg h)

/-- Settles O51, command by command over the phase each finds. -/
theorem resetPinsAndTripMoveTheDevice : Obligations.ResetPinsAndTripMoveTheDevice := by
  intro s b d i lost held
  obtain ⟨assertLost, assertTripped, assertSame⟩ := exec_resetAssert_cases s
  obtain ⟨tripLost, tripResetn, tripSame⟩ := exec_thermalTrip_cases s
  obtain ⟨releaseTrip, releaseSame⟩ := exec_tripRelease_cases s
  refine ⟨assertLost, assertTripped, assertSame, fun h => ⟨exec_undervoltage_of_awake h, exec_junctionCold_of_awake h⟩,
    fun h => ⟨exec_undervoltage_of_not_awake h, exec_junctionCold_of_not_awake h⟩, tripLost, tripResetn, tripSame, releaseTrip,
    releaseSame, fun h => exec_resetRelease_of_not_held h b d, fun h => ⟨_, exec_resetRelease_of_held h b d, ?_⟩, ?_⟩
  · have fresh {β : Type} (g : State → β) (hg : ∀ (x : State) m, g { x with regs := m } = g x) := State.released_keeps g hg s b d
    refine ⟨fresh (·.phase) fun _ _ => rfl, fresh (·.cycle) fun _ _ => rfl, fresh (·.boot.bootSrc) fun _ _ => rfl,
      fresh (·.boot.devMode) fun _ _ => rfl, fresh (·.stepping) fun _ _ => rfl, fresh (·.pending) fun _ _ => rfl,
      s.released_reg_state b d, (s.released_reg_ne b d (r := .BOOT_STATE_BOOT_SRC) nofun 0).trans (fresh (·.boot.bootSrc) fun _ _ => rfl),
      (s.released_reg_ne b d (r := .BOOT_STATE_DEV_MODE) nofun 0).trans (fresh (fun x => if x.boot.devMode then 1 else 0) fun _ _ => rfl),
      fun r k hr => s.released_reg_ne b d hr k, fresh (·.staged) fun _ _ => rfl, fresh (·.mem) fun _ _ => rfl,
      fresh (·.win) fun _ _ => rfl, fresh (·.cores) fun _ _ => rfl, fresh (·.nets) fun _ _ => rfl, fresh (·.jobs) fun _ _ => rfl,
      fresh (·.frozen) fun _ _ => rfl, fresh (·.keys) fun _ _ => rfl⟩
  · intro hs hassert hrelease hunder htrip hcold htripRelease
    exact exec_of_not_awake (fun h => by simp [IsReset, *] at h) hs

/-- Settles O60: the state after reset lists no register, so each field reads its reset value. -/
theorem resetLeavesItsStatedValues : Obligations.ResetLeavesItsStatedValues :=
  ⟨rfl, rfl, rfl, reset_memOk, rfl, rfl, rfl, rfl, rfl, rfl, rfl, rfl, rfl, rfl, rfl, rfl, fun _ _ => rfl,
    rfl, rfl, rfl, rfl, rfl, rfl, rfl, rfl, rfl, fun _ => rfl, rfl, fun _ => rfl⟩

end Sys2Proof.Machine

/-! Rounding of R12, and what conversion and adaptation make of it (O30). -/
namespace Sys2Proof.Machine
open Sys2Proof Sys2Proof.Safety

/-- The rounded quotient has the sign of its dividend: its distance to it is one of magnitudes. -/
theorem natAbs_sub_roundDiv_mul (v : Int) (d : Nat) :
    (v - roundDiv v d * d).natAbs = ((v.natAbs : Int) - ((2 * v.natAbs + d) / (2 * d) * d : Nat)).natAbs ∧
      (roundDiv v d * d).natAbs = (2 * v.natAbs + d) / (2 * d) * d := by
  unfold roundDiv
  dsimp only
  generalize (2 * v.natAbs + d) / (2 * d) = q
  split
  · rw [Int.neg_mul, ← Int.natCast_mul]; omega
  · rw [← Int.natCast_mul]; omega

/-- The rounded magnitude lies within half a divisor, the tie above it excluded (R12). -/
theorem roundDiv_bounds (a : Nat) {d : Nat} (hd : 0 < d) :
    2 * ((2 * a + d) / (2 * d) * d) ≤ 2 * a + d ∧ 2 * a < 2 * ((2 * a + d) / (2 * d) * d) + d := by
  have hlo := Nat.div_mul_le_self (2 * a + d) (2 * d)
  have hhi := Nat.lt_div_mul_add (a := 2 * a + d) (b := 2 * d) (by omega)
  rw [Nat.mul_left_comm] at hlo hhi
  omega

/-- Division rounds to a nearest multiple, and at a tie to the one further from zero (R12). -/
theorem roundDiv_nearest (v : Int) {d : Nat} (hd : 0 < d) :
    2 * (v - roundDiv v d * d).natAbs ≤ d ∧
      (2 * (v - roundDiv v d * d).natAbs = d → v.natAbs < (roundDiv v d * d).natAbs) := by
  obtain ⟨hdist, habs⟩ := natAbs_sub_roundDiv_mul v d
  obtain ⟨hlo, hhi⟩ := roundDiv_bounds v.natAbs hd
  rw [hdist, habs]
  omega

/-- A shift up is exact. -/
theorem roundShift_up (v : Int) (n : Nat) : roundShift v n = v * 2 ^ n := by simp [roundShift]

/-- A shift down rounds to nearest, ties away from zero (R12). -/
theorem roundShift_down (v : Int) (n : Nat) :
    2 * (v - roundShift v (-n) * 2 ^ n).natAbs ≤ 2 ^ n ∧
      (0 < n → 2 * (v - roundShift v (-n) * 2 ^ n).natAbs = 2 ^ n → v.natAbs < (roundShift v (-n) * 2 ^ n).natAbs) := by
  rcases Nat.eq_zero_or_pos n with rfl | hn
  · simp [roundShift]
  · have hdown : roundShift v (-n) = roundDiv v (2 ^ n) := by
      unfold roundShift
      rw [if_neg (by omega)]; simp
    have hnear := roundDiv_nearest v (Nat.two_pow_pos n)
    push_cast at hnear
    rw [hdown]
    exact ⟨hnear.1, fun _ => hnear.2⟩

/-- A channel that is not masked rounds its scaled value (R146). -/
theorem sampleDiff_of_unmasked {c : ChanCfg} (h : c.mask = false) (x : Int) (raw : Nat) :
    sampleDiff c x raw = roundShift ((sampleValue c raw - c.offset) * c.gain) (-16 - x) := by simp [sampleDiff, h]

/-- The largest code magnitude of a block's format (R147). -/
theorem maxCode_pos (q4 : Bool) : 0 < (if q4 then 7 else 127 : Int) := by split <;> decide

/-- The code of a difference inside its range, escaped, and clipped (R147). -/
theorem diffCode_cases (b : BlockCfg) (d : Int) (used : Nat) :
    let top : Int := if b.q4 then 7 else 127
    (-top ≤ d + b.zp → d + b.zp ≤ top → diffCode b d used = { code := d + b.zp }) ∧
    ((d + b.zp < -top ∨ top < d + b.zp) → b.escEn = true → used < 4 → d.natAbs < 32768 →
      diffCode b d used = { code := -top - 1, esc := some d }) ∧
    ((d + b.zp < -top ∨ top < d + b.zp) → ¬ (b.escEn = true ∧ used < 4 ∧ d.natAbs < 32768) →
      diffCode b d used = { code := if d + b.zp < 0 then -top else top, clip := true, ovf := b.escEn }) := by
  intro top
  have htop : 0 < top := maxCode_pos b.q4
  have outside : (d + b.zp < -top ∨ top < d + b.zp) → ¬ (-top ≤ d + b.zp ∧ d + b.zp ≤ top) := by omega
  show (_ → _ → (if -top ≤ d + b.zp ∧ d + b.zp ≤ top then _ else _) = _) ∧ _
  refine ⟨fun hlo hhi => if_pos ⟨hlo, hhi⟩, fun hout hesc hused hd => ?_, fun hout hno => ?_⟩
  · exact (if_neg (outside hout)).trans (if_pos (by simp [hesc, hused, hd]))
  · refine (if_neg (outside hout)).trans ((if_neg (by simpa [and_assoc] using hno)).trans ?_)
    have hclamp : clampI (-top) top (d + b.zp) = if d + b.zp < 0 then -top else top := by
      unfold clampI; split <;> split <;> omega
    exact congrArg (fun k => ({ code := k, clip := true, ovf := b.escEn } : ChanOut)) hclamp

/-- Each outcome of a closed window (R155). -/
theorem adaptDecide_cases (b : BlockCfg) (x : Int) (fc : Nat) (above fits : Bool) :
    let a := adaptDecide b x fc above fits
    (above = true → x < b.expHi → a.next = x + 1 ∧ a.fallCnt = 0) ∧
    (above = true → b.expHi ≤ x → a.next = x ∧ a.ceiling = true) ∧
    (above = false → fits = true → b.fallM1 ≤ fc → b.expLo < x → a.next = x - 1 ∧ a.fallCnt = 0) ∧
    (above = false → fits = true → b.fallM1 ≤ fc → x ≤ b.expLo → a.next = x ∧ a.floor = true) ∧
    (above = false → fits = true → fc < b.fallM1 → a.next = x ∧ a.fallCnt = fc + 1) ∧
    (above = false → fits = false → a.next = x ∧ a.fallCnt = 0) := by
  refine ⟨?_, ?_, ?_, ?_, ?_, ?_⟩ <;> intros <;> simp_all [adaptDecide, Int.not_lt.2, Nat.not_le.2]

/-- The exponent stays within its limits (R155). -/
theorem adaptDecide_within (b : BlockCfg) (x : Int) (fc : Nat) (above fits : Bool) (hlo : b.expLo ≤ x) (hhi : x ≤ b.expHi) :
    b.expLo ≤ (adaptDecide b x fc above fits).next ∧ (adaptDecide b x fc above fits).next ≤ b.expHi := by
  unfold adaptDecide
  split
  · split <;> dsimp only <;> omega
  · split
    · split
      · split <;> dsimp only <;> omega
      · exact ⟨hlo, hhi⟩
    · exact ⟨hlo, hhi⟩

/-- Settles O30, from rounding to nearest, the cases of a code and those of a window's decision. -/
theorem conversionScalesRoundsAndAdapts : Obligations.ConversionScalesRoundsAndAdapts := by
  intro c b x raw used fc above fits
  refine ⟨fun h => by simp [sampleDiff, h], fun h n hn => ?_, fun h n hn => ?_, fun d => diffCode_cases b d used, ?_⟩
  · rw [sampleDiff_of_unmasked h, show -16 - x = -(n : Int) by omega]
    exact roundShift_down _ n
  · rw [sampleDiff_of_unmasked h, hn]
    exact roundShift_up _ n
  · obtain ⟨hrise, hceiling, hfall, hfloor, hwait, hkeep⟩ := adaptDecide_cases b x fc above fits
    exact ⟨hrise, hceiling, hfall, hfloor, hwait, hkeep, adaptDecide_within b x fc above fits⟩

end Sys2Proof.Machine

/-! Lane control and error injection (R280, R296; O38). -/
namespace Sys2Proof.Machine
open Sys2Proof Sys2Proof.Safety

/-! ### OPX_LCTRL in its parts -/

/-- An old field value with the masked bits of a write at a place of the register. -/
def lctrlMix (mask value old lo w : Nat) : Nat := (old &&& (2 ^ w - 1 - bits mask lo w)) ||| (bits value lo w &&& bits mask lo w)

/-- A field of a lane takes its masked bits at once. -/
def State.lctrlPut (s : State) (i mask value : Nat) (r : Reg) (lo : Nat) : State :=
  s.setReg r i (lctrlMix mask value (s.reg r i) lo r.width)

/-- The test fields, which only a DISABLED or TRAINING port takes. -/
def State.lctrlTests (s : State) (p l mask value : Nat) : State :=
  if s.portSt p ≤ 1 then
    ((s.lctrlPut (lx p l) mask value .OPX_LCTRL_PATTERN 0).lctrlPut (lx p l) mask value .OPX_LCTRL_CHECK 2).lctrlPut (lx p l) mask
      value .OPX_LCTRL_LOOP 3
  else s

/-- A check that begins in `t`, or whose pattern is another one than in `s`, starts over. -/
def State.lctrlRestart (s t : State) (p l : Nat) : State :=
  let i := lx p l
  if (t.flag .OPX_LCTRL_CHECK i && t.reg .OPX_LCTRL_PATTERN i != s.reg .OPX_LCTRL_PATTERN i)
      || (t.flag .OPX_LCTRL_CHECK i && !s.flag .OPX_LCTRL_CHECK i)
  then t.updLane p l (fun y => { y with chkBits := 0, chkReg := 0 })
  else t

/-- INJ_INTERVAL waits for a commit (R6). -/
def State.lctrlStage (s : State) (i mask value : Nat) : State :=
  if bits mask 16 16 == 0 then s
  else s.stageReg .OPX_LCTRL_INJ_INTERVAL i (lctrlMix mask value (s.regIn s.nextCfg .OPX_LCTRL_INJ_INTERVAL i) 16 16)

/-- What lane control has done before it stages INJ_INTERVAL. -/
def State.lctrlNow (s : State) (p l mask value : Nat) : State :=
  (((s.lctrlRestart (s.lctrlTests p l mask value) p l).lctrlPut (lx p l) mask value .OPX_LCTRL_INJ 5).holdTaps (lx p l)).lctrlPut
    (lx p l) mask value .OPX_LCTRL_DFE_FREEZE 7

theorem opxLctrl_eq (s : State) (p l mask value : Nat) :
    opxLctrl s p l mask value = (s.lctrlNow p l mask value).lctrlStage (lx p l) mask value := rfl

/-! ### What each part reads and leaves -/

section
variable (s t : State) (p l i j mask value : Nat) (r q : Reg)

@[simp] theorem State.lctrlPut_reg (lo : Nat) :
    (s.lctrlPut i mask value r lo).reg r i = lctrlMix mask value (s.reg r i) lo r.width % 2 ^ r.width := State.reg_setReg _ _ _ _

@[simp] theorem State.lctrlPut_reg_ne (lo : Nat) (h : r ≠ q) : (s.lctrlPut i mask value r lo).reg q j = s.reg q j :=
  State.reg_setReg_ne _ _ _ _ _ _ fun e => h (congrArg Prod.fst e)

/-- The test fields change no other field. -/
theorem State.lctrlTests_reg_ne (h : r ∉ [Reg.OPX_LCTRL_PATTERN, .OPX_LCTRL_CHECK, .OPX_LCTRL_LOOP]) :
    (s.lctrlTests p l mask value).reg r j = s.reg r j := by
  simp only [List.mem_cons, List.not_mem_nil, or_false, not_or] at h
  obtain ⟨hpattern, hcheck, hloop⟩ := h
  unfold State.lctrlTests
  split
  · rw [State.lctrlPut_reg_ne _ _ _ _ _ _ _ _ (Ne.symm hloop), State.lctrlPut_reg_ne _ _ _ _ _ _ _ _ (Ne.symm hcheck),
      State.lctrlPut_reg_ne _ _ _ _ _ _ _ _ (Ne.symm hpattern)]
  · rfl

/-- A restart of the check touches the lanes alone. -/
theorem State.lctrlRestart_keeps {β : Type} (g : State → β) (h : ∀ (x : State) o, g { x with opx := o } = g x) :
    g (s.lctrlRestart t p l) = g t := by
  unfold State.lctrlRestart; dsimp only
  split
  · exact h t _
  · rfl

/-- Nothing begins a check when the fields are as they were. -/
theorem State.lctrlRestart_self : s.lctrlRestart s p l = s := by simp [State.lctrlRestart]

@[simp] theorem State.holdTaps_reg : (s.holdTaps i).reg .OPX_LDFE_TAPS i = s.laneTaps i % 2 ^ Reg.width .OPX_LDFE_TAPS := State.reg_setReg _ _ _ _

@[simp] theorem State.holdTaps_reg_ne (h : r ≠ .OPX_LDFE_TAPS) : (s.holdTaps i).reg r j = s.reg r j :=
  State.reg_setReg_ne _ _ _ _ _ _ fun e => h (congrArg Prod.fst e).symm

/-- The taps depend on the port's state, the freeze and the held taps alone, and on the cycle. -/
theorem State.laneTaps_congr (hcycle : t.cycle = s.cycle)
    (h : ∀ r ∈ [Reg.OPX_PSTAT_STATE, .OPX_LCTRL_DFE_FREEZE, .OPX_LDFE_TAPS], ∀ j, t.reg r j = s.reg r j) : t.laneTaps i = s.laneTaps i := by
  have hstate := h .OPX_PSTAT_STATE (by simp)
  have hfreeze := h .OPX_LCTRL_DFE_FREEZE (by simp)
  have htaps := h .OPX_LDFE_TAPS (by simp)
  simp only [State.laneTaps, hcycle, hstate, hfreeze, htaps]

theorem State.lctrlStage_keeps {β : Type} (g : State → β) (h : ∀ (x : State) st, g { x with staged := st } = g x) :
    g (s.lctrlStage i mask value) = g s := by
  unfold State.lctrlStage
  split
  · rfl
  · exact h s _

/-- Lane control touches register fields, the lane and, staged, INJ_INTERVAL. -/
theorem State.lctrlNow_keeps {β : Type} (g : State → β) (h : ∀ (x : State) m o, g { x with regs := m, opx := o } = g x) :
    g (s.lctrlNow p l mask value) = g s := by
  have hset (x : State) (m : RegMap) : g { x with regs := m } = g x := h x m x.opx
  have htests : g (s.lctrlTests p l mask value) = g s := by
    unfold State.lctrlTests
    split
    · exact (hset _ _).trans ((hset _ _).trans (hset _ _))
    · rfl
  exact (hset _ _).trans ((hset _ _).trans ((hset _ _).trans ((State.lctrlRestart_keeps s _ p l g fun x o => h x x.regs o).trans htests)))

theorem opxLctrl_keeps {β : Type} (g : State → β)
    (h : ∀ (x : State) m o st, g { x with regs := m, opx := o, staged := st } = g x) : g (opxLctrl s p l mask value) = g s := by
  rw [opxLctrl_eq]
  exact (State.lctrlStage_keeps _ _ _ _ g fun x st => h x x.regs x.opx st).trans
    (State.lctrlNow_keeps s p l mask value g fun x m o => h x m o x.staged)

/-- Before the stage the other fields read as the test fields' write left them. -/
theorem State.lctrlNow_reg_ne (h : r ∉ [Reg.OPX_LCTRL_INJ, .OPX_LDFE_TAPS, .OPX_LCTRL_DFE_FREEZE]) :
    (s.lctrlNow p l mask value).reg r j = (s.lctrlTests p l mask value).reg r j := by
  simp only [List.mem_cons, List.not_mem_nil, or_false, not_or] at h
  obtain ⟨hinj, htaps, hfreeze⟩ := h
  unfold State.lctrlNow
  rw [State.lctrlPut_reg_ne _ _ _ _ _ _ _ _ (Ne.symm hfreeze), State.holdTaps_reg_ne _ _ _ _ htaps,
    State.lctrlPut_reg_ne _ _ _ _ _ _ _ _ (Ne.symm hinj)]
  exact State.lctrlRestart_keeps s _ p l (fun x => x.reg r j) fun _ _ => rfl

/-- The lane's own fields read as before when the restart is through. -/
theorem State.lctrlRestart_reg (h : r ∉ [Reg.OPX_LCTRL_PATTERN, .OPX_LCTRL_CHECK, .OPX_LCTRL_LOOP]) :
    (s.lctrlRestart (s.lctrlTests p l mask value) p l).reg r j = s.reg r j :=
  (State.lctrlRestart_keeps s _ p l (fun x => x.reg r j) fun _ _ => rfl).trans (State.lctrlTests_reg_ne s p l j mask value r h)

theorem State.lctrlNow_reg_inj : (s.lctrlNow p l mask value).reg .OPX_LCTRL_INJ (lx p l) =
    lctrlMix mask value (s.reg .OPX_LCTRL_INJ (lx p l)) 5 (Reg.width .OPX_LCTRL_INJ) % 2 ^ Reg.width .OPX_LCTRL_INJ := by
  simp [State.lctrlNow, State.lctrlRestart_reg]

theorem State.lctrlNow_reg_freeze : (s.lctrlNow p l mask value).reg .OPX_LCTRL_DFE_FREEZE (lx p l) =
    lctrlMix mask value (s.reg .OPX_LCTRL_DFE_FREEZE (lx p l)) 7 (Reg.width .OPX_LCTRL_DFE_FREEZE) %
      2 ^ Reg.width .OPX_LCTRL_DFE_FREEZE := by
  simp [State.lctrlNow, State.lctrlRestart_reg]

/-- The taps are held before the freeze takes effect. -/
theorem State.lctrlNow_reg_taps : (s.lctrlNow p l mask value).reg .OPX_LDFE_TAPS (lx p l) =
    s.laneTaps (lx p l) % 2 ^ Reg.width .OPX_LDFE_TAPS := by
  have htaps := State.laneTaps_congr s ((s.lctrlRestart (s.lctrlTests p l mask value) p l).lctrlPut (lx p l) mask value .OPX_LCTRL_INJ 5)
    (lx p l)
    ((State.lctrlRestart_keeps s _ p l (·.cycle) fun _ _ => rfl).trans (by unfold State.lctrlTests; split <;> rfl))
    (by simp [State.lctrlRestart_reg])
  simp [State.lctrlNow, htaps]

theorem State.lctrlNow_reg_interval : (s.lctrlNow p l mask value).reg .OPX_LCTRL_INJ_INTERVAL j = s.reg .OPX_LCTRL_INJ_INTERVAL j :=
  (State.lctrlNow_reg_ne s p l j mask value _ (by simp)).trans (State.lctrlTests_reg_ne s p l j mask value _ (by simp))

/-- A test field takes its bits on a DISABLED or TRAINING port, and keeps its value on another. -/
theorem State.lctrlTests_reg {lo : Nat} (h : (r, lo) ∈ [(Reg.OPX_LCTRL_PATTERN, 0), (.OPX_LCTRL_CHECK, 2), (.OPX_LCTRL_LOOP, 3)]) :
    (s.lctrlTests p l mask value).reg r (lx p l) =
      if s.portSt p ≤ 1 then lctrlMix mask value (s.reg r (lx p l)) lo r.width % 2 ^ r.width else s.reg r (lx p l) := by
  unfold State.lctrlTests
  simp only [List.mem_cons, Prod.mk.injEq, List.not_mem_nil, or_false] at h
  split
  · rcases h with ⟨rfl, rfl⟩ | ⟨rfl, rfl⟩ | ⟨rfl, rfl⟩ <;> simp
  · rfl

end

/-! ### What is staged -/

theorem KMap.get?_append {κ α : Type} [DecidableEq κ] (m n : KMap κ α) (k : κ) :
    KMap.get? (m ++ n : List (κ × α)) k = (m.get? k).or (n.get? k) := by
  induction m with
  | nil => rfl
  | cons e m ih =>
    obtain ⟨a, b⟩ := e
    by_cases h : a = k <;> simp [KMap.get?, h, ih]

/-- The value a field would have with what is staged: the staged one, else the one in force (R32). -/
theorem State.regIn_nextCfg (s : State) (r : Reg) (i : Nat) :
    s.regIn s.nextCfg r i = (s.staged.get? (r, i)).getD (s.reg r i) := by
  unfold State.reg State.regIn State.nextCfg
  rw [KMap.get?_append]
  cases s.staged.get? (r, i) <;> rfl

/-- INJ_INTERVAL alone is staged, over what was staged of it. -/
theorem opxLctrl_staged (s : State) (p l mask value : Nat) :
    (bits mask 16 16 ≠ 0 → (opxLctrl s p l mask value).staged.get? (.OPX_LCTRL_INJ_INTERVAL, lx p l) =
      some (lctrlMix mask value (s.regIn s.nextCfg .OPX_LCTRL_INJ_INTERVAL (lx p l)) 16 16 % 2 ^ Reg.width .OPX_LCTRL_INJ_INTERVAL)) ∧
    (bits mask 16 16 = 0 → (opxLctrl s p l mask value).staged = s.staged) := by
  have hstaged : (s.lctrlNow p l mask value).staged = s.staged := State.lctrlNow_keeps s p l mask value (·.staged) fun _ _ _ => rfl
  rw [opxLctrl_eq, State.regIn_nextCfg, ← hstaged, ← State.lctrlNow_reg_interval s p l (lx p l) mask value, ← State.regIn_nextCfg]
  unfold State.lctrlStage
  constructor <;> intro h <;> simp [h, KMap.get?_put]

/-- The fields in force after lane control are those before it stages INJ_INTERVAL. -/
theorem opxLctrl_reg (s : State) (p l mask value : Nat) (r : Reg) (j : Nat) :
    (opxLctrl s p l mask value).reg r j = (s.lctrlNow p l mask value).reg r j := by
  rw [opxLctrl_eq]
  exact State.lctrlStage_keeps _ _ _ _ (fun x => x.reg r j) fun _ _ => rfl

/-- A port that is neither DISABLED nor TRAINING keeps its lanes. -/
theorem opxLctrl_opx {s : State} {p : Nat} (h : 2 ≤ s.portSt p) (l mask value : Nat) : (opxLctrl s p l mask value).opx = s.opx := by
  have htests : s.lctrlTests p l mask value = s := if_neg (by omega)
  rw [opxLctrl_eq, State.lctrlStage_keeps _ _ _ _ (·.opx) fun _ _ => rfl]
  unfold State.lctrlNow
  rw [htests, State.lctrlRestart_self]
  rfl

/-- OPX_LCTRL's effect leaves what every command keeps. -/
theorem exec_opxLctrl {s : State} (h : Awake s) (p : Fin 16) (l : Fin 8) (mask value : Nat) :
    exec (.opxLctrl p l mask value) s = .next (opxLctrl s p.val l.val mask value) := by
  have keeps {β : Type} (g : State → β) := opxLctrl_keeps s p.val l.val mask value g
  exact awake_eq h (keeps (·.cycle) fun _ _ _ _ => rfl) (keeps (·.pending) fun _ _ _ _ => rfl)
    (keeps (·.stepping) fun _ _ _ _ => rfl) (keeps (·.phase) fun _ _ _ _ => rfl) (keeps (·.boot) fun _ _ _ _ => rfl)

/-! ### Error injection -/

/-- An injection is due when the lane has had none, or INJ_INTERVAL blocks after it (R296). -/
theorem State.injDue_iff (s : State) (p l : Nat) : s.injDue p l = true ↔ ∀ c, (s.lane p l).injAt = some c →
    31440 * max 1 (s.reg .OPX_LCTRL_INJ_INTERVAL (lx p l)) ≤ 13312 * (s.cycle - c) := by
  unfold State.injDue
  cases (s.lane p l).injAt <;> simp

theorem errorInjection_of_not_due {s : State} {p l : Nat} (h : ¬ s.injDue p l = true) : errorInjection s p l = s := by
  simp [errorInjection, h]

/-- Mode 3 inverts the CRC of the lane's next sequenced frame (R296). -/
theorem errorInjection_of_mode_three {s : State} {p l : Nat} (hup : s.portUp p = true) (hdue : s.injDue p l = true)
    (h : s.reg .OPX_LCTRL_INJ (lx p l) = 3) :
    errorInjection s p l = s.updLane p l fun y => { y with injCrc := true, injAt := some s.cycle } := by
  unfold errorInjection
  rw [if_neg (by simp [hup, hdue]), h]
  rfl

/-- Modes 1 and 2 invert bits of a block (R296). -/
theorem errorInjection_of_mode_invert {s : State} {p l k : Nat} (hup : s.portUp p = true) (hdue : s.injDue p l = true)
    (hk : k = 1 ∨ k = 2) (h : s.reg .OPX_LCTRL_INJ (lx p l) = k) :
    errorInjection s p l = (s.updLane p l fun y => { y with injected := y.injected + 1, injAt := some s.cycle }).emit
      (.injection p l k) := by
  unfold errorInjection
  rw [if_neg (by simp [hup, hdue]), h]
  rcases hk with rfl | rfl <;> rfl

/-- Mode 0 makes no error. -/
theorem errorInjection_of_mode_zero {s : State} {p l : Nat} (h : s.reg .OPX_LCTRL_INJ (lx p l) = 0) : errorInjection s p l = s := by
  unfold errorInjection
  rw [h]; split <;> rfl

theorem exec_errorInjection {s t : State} (h : Awake s) {p : Fin 16} {l : Fin 8} (ht : errorInjection s p.val l.val = t)
    (h1 : t.cycle = s.cycle) (h2 : t.pending = s.pending) (h3 : t.stepping = s.stepping) (h4 : t.phase = s.phase) (h5 : t.boot = s.boot) :
    exec (.errorInjection p l) s = .next t := by
  subst ht; exact awake_eq h h1 h2 h3 h4 h5

/-- Settles O38, field by field through the parts of lane control, and mode by mode of an injection. -/
theorem laneControlsAndErrorInjection : Obligations.LaneControlsAndErrorInjection := by
  intro s p l mask value hs i mix
  have keeps {β : Type} (g : State → β) := opxLctrl_keeps s p.val l.val mask value g
  refine ⟨fun r lo hr => ⟨_, exec_opxLctrl hs p l mask value, ?_⟩, fun r lo hr => ⟨_, exec_opxLctrl hs p l mask value, ?_⟩,
    fun hup => ⟨fun h => ?_, fun hdue => ⟨fun h => ?_, fun k hk h => ?_⟩⟩⟩
  · obtain ⟨hstage, hnot⟩ := opxLctrl_staged s p.val l.val mask value
    refine ⟨?_, (opxLctrl_reg _ _ _ _ _ _ _).trans (State.lctrlNow_reg_interval s _ _ _ _ _), hstage, hnot,
      ⟨keeps (·.mem) fun _ _ _ _ => rfl, keeps (·.win) fun _ _ _ _ => rfl, keeps (·.cores) fun _ _ _ _ => rfl⟩,
      fun h => opxLctrl_opx h _ _ _, (opxLctrl_reg _ _ _ _ _ _ _).trans (State.lctrlNow_reg_taps s _ _ _ _)⟩
    simp only [List.mem_cons, Prod.mk.injEq, List.not_mem_nil, or_false] at hr
    rw [opxLctrl_reg]
    rcases hr with ⟨rfl, rfl⟩ | ⟨rfl, rfl⟩
    · exact State.lctrlNow_reg_inj s _ _ _ _
    · exact State.lctrlNow_reg_freeze s _ _ _ _
  · have htest : r ∉ [Reg.OPX_LCTRL_INJ, .OPX_LDFE_TAPS, .OPX_LCTRL_DFE_FREEZE] := by
      simp only [List.mem_cons, Prod.mk.injEq, List.not_mem_nil, or_false] at hr
      rcases hr with ⟨rfl, _⟩ | ⟨rfl, _⟩ | ⟨rfl, _⟩ <;> simp
    exact (opxLctrl_reg _ _ _ _ _ _ _).trans ((State.lctrlNow_reg_ne _ _ _ _ _ _ _ htest).trans (State.lctrlTests_reg s _ _ _ _ r hr))
  · refine exec_errorInjection hs ?_ rfl rfl rfl rfl rfl
    rcases h with h | ⟨c, hc, hnot⟩
    · exact errorInjection_of_mode_zero h
    · exact errorInjection_of_not_due fun hd => hnot ((State.injDue_iff _ _ _).1 hd c hc)
  · exact exec_errorInjection hs (errorInjection_of_mode_three hup ((State.injDue_iff _ _ _).2 hdue) h) rfl rfl rfl rfl rfl
  · exact exec_errorInjection hs (errorInjection_of_mode_invert hup ((State.injDue_iff _ _ _).2 hdue) hk h) rfl rfl rfl rfl rfl

end Sys2Proof.Machine

/-! What cycle C of a commit puts in force, and that the units' own parts in it leave that alone (R32, R34; O48). -/
namespace Sys2Proof.Machine
open Sys2Proof Sys2Proof.Safety

/-! ### The part of the state that a commit's conclusion speaks of -/

/-- The epoch and the staged verdict-unit fields. -/
def commitFields : List Reg :=
  [.CHIP_EPOCH_CURRENT, .VRD_DEFAULT_RESULT, .VRD_CTRL_PIN_WIDTH, .VRD_CTRL_INC_POLICY, .VRD_PORTS_MAP, .VRD_INGRESS_SLACK]

/-- A commit's progress, what is staged, the older configuration's epoch, both channel tables, a remap to come and the fields above. -/
structure CommitView where
  commit : CommitPhase
  staged : RegMap
  oldEpoch : Option Nat
  table : KMap Nat ChanEntry
  stagedTable : KMap Nat ChanEntry
  remap : Option Remap
  fields : List (Nat → Option Nat)

/-- That part of a state. -/
def State.commitView (s : State) : CommitView :=
  { commit := s.commit, staged := s.staged, oldEpoch := s.cfgOld.map Prod.fst, table := s.cond.committed
    stagedTable := s.cond.staged, remap := s.ints.remap
    fields := commitFields.map fun r i => s.regs.get? (r, i) }

/-- Register maps that agree on the fields of the view. -/
def AgreeOnCommit (m n : RegMap) : Prop := ∀ r ∈ commitFields, ∀ i, m.get? (r, i) = n.get? (r, i)

theorem State.commitView_congr {s t : State} (hcommit : t.commit = s.commit) (hstaged : t.staged = s.staged)
    (hold : t.cfgOld.map Prod.fst = s.cfgOld.map Prod.fst) (htable : t.cond.committed = s.cond.committed)
    (hnext : t.cond.staged = s.cond.staged) (hremap : t.ints.remap = s.ints.remap) (hregs : AgreeOnCommit t.regs s.regs) : t.commitView = s.commitView := by
  unfold State.commitView
  rw [hcommit, hstaged, hold, htable, hnext, hremap, List.map_congr_left fun r hr => funext (hregs r hr)]

/-- A write of another field does not show. -/
theorem State.commitView_setReg {r : Reg} (h : r ∉ commitFields) (s : State) (i v : Nat) : (s.setReg r i v).commitView = s.commitView :=
  State.commitView_congr rfl rfl rfl rfl rfl rfl fun q hq j => by
    have hne : (r, i) ≠ (q, j) := fun e => h ((Prod.mk.inj e).1 ▸ hq)
    simp [KMap.get?_put, hne]

theorem State.commitView_bump {r : Reg} (h : r ∉ commitFields) (s : State) (i n : Nat) : (s.bump r i n).commitView = s.commitView :=
  State.commitView_setReg h s i _

theorem State.commitView_bump_if {r : Reg} (h : r ∉ commitFields) (s : State) (c : Prop) [Decidable c] (i : Nat) :
    State.commitView (if c then s.bump r i else s) = s.commitView := by
  split
  · exact State.commitView_bump h s i 1
  · rfl

/-- A filter by key keeps the entries of the keys it passes. -/
theorem KMap.get?_filter_of_key {κ α : Type} [DecidableEq κ] (m : KMap κ α) {p : κ → Bool} {k : κ} (h : p k = true) :
    KMap.get? (m.filter fun (e : κ × α) => p e.1) k = m.get? k := by
  induction m with
  | nil => rfl
  | cons e m ih =>
    obtain ⟨q, v⟩ := e
    by_cases hq : q = k
    · subst hq; simp [KMap.get?, h]
    · by_cases hp : p q = true <;> simp [KMap.get?, hp, hq, ih]

/-! ### Records, traces and waits -/

section
variable (s : State)

theorem State.commitView_raise (cls : Nat) (src : Src) (code unit : Nat) (args : List Nat) :
    (s.raise cls src code unit args).commitView = s.commitView := by
  unfold State.raise; dsimp only
  split
  · split
    · exact State.commitView_bump (by decide) _ _ _
    · rfl
  · rfl

theorem State.commitView_trace (point : Nat) (src : Src) (args : List Nat) : (s.trace point src args).commitView = s.commitView := by
  unfold State.trace
  split
  · exact State.commitView_raise s _ _ _ _ _
  · rfl

theorem State.commitView_settleWait (u : Nat) : (s.settleWait u).commitView = s.commitView := by
  unfold State.settleWait
  split
  · rfl
  · dsimp only
    split
    · exact State.commitView_bump (by decide) _ _ _
    · exact State.commitView_bump (by decide) _ _ _
    · rfl

/-- Cores that a commit's RUN bits start or stop (R165). -/
theorem State.commitView_runChange (before : RegMap) (epoch u : Nat) : (s.runChange before epoch u).commitView = s.commitView := by
  unfold State.runChange; dsimp only
  split
  · rfl
  · split
    · rfl
    · exact State.commitView_settleWait s u

/-! ### Conditioners -/

theorem State.commitView_queueWin (b window : Nat) (mk : Nat → WinRecord) : (s.queueWin b window mk).commitView = s.commitView := by
  unfold State.queueWin; dsimp only
  split
  · rfl
  · split
    · exact State.commitView_bump (by decide) _ _ _
    · rfl

/-- A closing window writes its block's own fields (R152, R155). -/
theorem State.commitView_closeWindow (b : Nat) (restart : Option Int) : (s.closeWindow b restart).commitView = s.commitView := by
  have flag {r : Reg} (h : r ∉ commitFields) (t : State) (i : Nat) (v : Bool) : (t.setFlag r i v).commitView = t.commitView :=
    State.commitView_setReg h t i _
  unfold State.closeWindow; dsimp only
  rw [State.commitView_setReg (by decide), flag (by decide), flag (by decide), flag (by decide), State.commitView_setReg (by decide),
    State.commitView_setReg (by decide), State.commitView_bump_if (by decide),
    State.commitView_bump_if (by decide), State.commitView_bump_if (by decide)]
  exact State.commitView_queueWin s _ _ _

theorem State.commitView_restartBlock (b : Nat) : (s.restartBlock b).commitView = s.commitView := by
  unfold State.restartBlock; dsimp only
  rw [State.commitView_bump (by decide), State.commitView_closeWindow]
  split <;> rfl

/-- The staged channel table comes into force (R149). -/
theorem State.commitView_condCommit : s.condCommit.commitView = { s.commitView with table := s.cond.staged } := by
  have hrestart := foldl_reads State.commitView State.restartBlock State.commitView_restartBlock s.cond.touched
    { s with cond := { s.cond with restarted := [] } }
  unfold State.condCommit; dsimp only
  generalize s.cond.touched.foldl State.restartBlock { s with cond := { s.cond with restarted := [] } } = t at hrestart
  have htable : State.commitView { t with cond := { t.cond with committed := t.cond.staged, touched := [], dirty := false, dual := false } } =
      { s.commitView with table := s.cond.staged } := by
    have hnext : t.cond.staged = s.cond.staged := congrArg CommitView.stagedTable hrestart
    show ({ t.commitView with table := t.cond.staged } : CommitView) = _
    rw [hnext, hrestart]; rfl
  rw [← htable]
  split
  · rfl
  · refine State.commitView_congr rfl rfl rfl rfl rfl rfl fun r hr i => 
      KMap.get?_filter_of_key t.regs (p := fun (k : Reg × Nat) => k.1 != .CND_BSTATE_FALL_CNT) ?_
    have hne : ∀ r ∈ commitFields, (r != .CND_BSTATE_FALL_CNT) = true := by decide
    exact hne r hr

theorem State.commitView_settleWindows (touched : List Nat) (epoch : Nat) : (s.settleWindows touched epoch).commitView = s.commitView := by
  unfold State.settleWindows
  split <;> rfl

/-! ### Springbok -/

theorem State.commitView_updGrp (g : Nat) (f : Group → Group) : (s.updGrp g f).commitView = s.commitView := rfl

theorem State.commitView_preAvail (g : Nat) : (s.preAvail g).commitView = s.commitView := State.commitView_setReg (by decide) _ _ _

theorem State.commitView_armEmpty (g st : Nat) : (s.armEmpty g st).commitView = s.commitView := by
  unfold State.armEmpty; dsimp only
  rw [State.commitView_preAvail, State.commitView_setReg (by decide)]
  rfl

theorem State.commitView_endCapture (g lastRow close : Nat) (trunc : Bool) :
    (s.endCapture g lastRow close trunc).commitView = s.commitView := by
  unfold State.endCapture; dsimp only
  split <;> rfl

theorem State.commitView_ringRest (g lastRow : Nat) : (s.ringRest g lastRow).commitView = s.commitView := by
  unfold State.ringRest; dsimp only
  split <;> rfl

theorem State.commitView_captureDone (g lastRow : Nat) : (s.captureDone g lastRow).commitView = s.commitView := by
  unfold State.captureDone; dsimp only
  split
  · rw [State.commitView_armEmpty, State.commitView_ringRest, State.commitView_endCapture]
  · rw [State.commitView_preAvail, State.commitView_setReg (by decide), State.commitView_ringRest, State.commitView_endCapture]

theorem State.commitView_captureCheck (g : Nat) : (s.captureCheck g).commitView = s.commitView := by
  unfold State.captureCheck; dsimp only
  split
  · rfl
  · split
    · split
      · split
        · exact State.commitView_captureDone s _ _
        · rfl
      · rfl
    · rfl

theorem State.commitView_settleTrigger (g : Nat) (force : Bool) : (s.settleTrigger g force).commitView = s.commitView := by
  unfold State.settleTrigger; dsimp only
  split
  · rfl
  · split
    · rfl
    · rw [State.commitView_captureCheck, State.commitView_bump_if (by decide)]
      rfl

theorem State.commitView_stop (g : Nat) : (stop s g).commitView = s.commitView := by
  unfold stop
  split
  · rw [State.commitView_preAvail, State.commitView_setReg (by decide), State.commitView_updGrp, State.commitView_endCapture]
  · exact State.commitView_setReg (by decide) _ _ _
  · exact State.commitView_setReg (by decide) _ _ _
  · rfl

/-- A group's registers and rows (R241, R255). -/
theorem State.commitView_groupCommit (g : Nat) (old : GroupCfg) : (s.groupCommit g old).commitView = s.commitView := by
  unfold State.groupCommit
  extract_lets c st s1 s2 s3
  have hsizes : s1.commitView = s.commitView := by
    unfold s1
    split
    · rw [State.commitView_setReg (by decide), State.commitView_setReg (by decide), State.commitView_setReg (by decide)]
    · rfl
  have harea : s2.commitView = s.commitView := by
    unfold s2
    split
    · exact hsizes
    · exact hsizes
  have hend : s3.commitView = s.commitView := by
    unfold s3
    rw [State.commitView_settleTrigger]
    split
    · rw [State.commitView_stop, harea]
    · exact harea
  split
  · split
    · exact harea
    · rw [State.commitView_preAvail, State.commitView_setReg (by decide), State.commitView_updGrp, hend]
  · split
    · rw [State.commitView_armEmpty, harea]
    · split
      · exact harea
      · split
        · exact harea
        · rw [State.commitView_armEmpty, State.commitView_settleTrigger, harea]

theorem State.commitView_spbCommit (m : RegMap) (t : KMap Nat ChanEntry) : (s.spbCommit m t).commitView = s.commitView := by
  unfold State.spbCommit
  extract_lets _ s1 gs s2 _ cs s3
  have hgroups : s2.commitView = s.commitView :=
    foldl_reads State.commitView _ (fun x g => State.commitView_groupCommit x g _) gs s1
  have harmed : s3.commitView = s.commitView :=
    (foldl_reads State.commitView _ (fun x c => State.commitView_setReg (by decide) x c 0) cs s2).trans hgroups
  clear_value s3
  exact harmed

/-! ### Networks and samplers -/

/-- Writes of a list of other fields do not show. -/
theorem State.commitView_setAll (k : Nat) {l : List (Reg × Nat)} (h : ∀ r ∈ l.map Prod.fst, r ∉ commitFields) :
    (l.foldl (fun s x => s.setReg x.1 k x.2) s).commitView = s.commitView := by
  induction l generalizing s with
  | nil => rfl
  | cons x l ih =>
    rw [List.map_cons, List.forall_mem_cons] at h
    exact (ih _ h.2).trans (State.commitView_setReg h.1 s k x.2)

/-- The fields of a slot's registers (R208). -/
theorem State.commitView_slotRegs (k : Nat) : (s.slotRegs k).commitView = s.commitView := by
  unfold State.slotRegs; dsimp only
  have digests (x : State) (d : Nat) (v w : Nat) :
      ((x.setReg .NSL_DIGEST_VALUE (8 * k + d) v).setReg .NSL_BDIGEST_VALUE (8 * k + d) w).commitView = x.commitView := by
    rw [State.commitView_setReg (by decide), State.commitView_setReg (by decide)]
  rw [foldl_reads State.commitView _ (fun x d => digests x d _ _)]
  exact State.commitView_setAll s k (by simp only [List.map_cons, List.map_nil]; decide)

theorem State.commitView_setSlot (k : Nat) (n : SlotNet) : (s.setSlot k n).commitView = s.commitView := State.commitView_slotRegs _ k

theorem State.commitView_baseLost (slot : Nat) : (s.baseLost slot).commitView = s.commitView := rfl

theorem State.commitView_dskUnload (slot : Nat) : (s.dskUnload slot).commitView = s.commitView := by
  unfold State.dskUnload
  have cancel (x : State) (ev : DskEvent) : (x.dskCancel slot ev).commitView = x.commitView := State.commitView_bump (by decide) _ _ _
  exact foldl_reads State.commitView _ cancel _ s

theorem State.commitView_slotCommit (c epoch slot : Nat) : (s.slotCommit c epoch slot).commitView = s.commitView := by
  unfold State.slotCommit; dsimp only
  split
  · rw [State.commitView_baseLost, State.commitView_dskUnload, State.commitView_setSlot]
  · split
    · rw [State.commitView_setSlot]
      split
      · exact State.commitView_baseLost s slot
      · rfl
    · split <;> rfl

theorem State.commitView_samplerCommit (before : RegMap) (slot : Nat) : (s.samplerCommit before slot).commitView = s.commitView := by
  unfold State.samplerCommit; dsimp only
  split
  · rfl
  · exact State.commitView_setReg (by decide) _ _ _

theorem State.commitView_refreshHeld : s.refreshHeld.commitView = s.commitView := by
  unfold State.refreshHeld; dsimp only
  refine (foldl_reads State.commitView _ (fun x u => State.commitView_setReg (by decide) x u 1) _ _).trans ?_
  refine State.commitView_congr rfl rfl rfl rfl rfl rfl fun r hr i =>
    KMap.get?_filter_of_key s.regs (p := fun (k : Reg × Nat) => k.1 != .FAB_UCFG_HELD) ?_
  have hne : ∀ r ∈ commitFields, (r != .FAB_UCFG_HELD) = true := by decide
  exact hne r hr

/-! ### Leave -/

/-- The fields of units and ports that a cluster leaves behind are not among the view's (R227). -/
theorem State.commitView_freeCluster (rank : Nat) : (s.freeCluster rank).commitView = s.commitView := by
  have hsettle : (s.settleCluster rank).commitView = s.commitView :=
    foldl_reads State.commitView _ (fun x k => State.commitView_settleWait x _) _ s
  rw [← hsettle]
  unfold State.freeCluster; dsimp only
  generalize s.settleCluster rank = t
  have hold : (t.cfgOld.map fun x => (x.1, x.2.filter fun (e : (Reg × Nat) × Nat) => !clusterField rank e.1)).map Prod.fst =
      t.cfgOld.map Prod.fst := by
    cases t.cfgOld <;> rfl
  refine State.commitView_congr rfl rfl hold rfl rfl rfl fun r hr i =>
    KMap.get?_filter_of_key t.regs (p := fun k => !clusterField rank k) ?_
  have hblock : ∀ r ∈ commitFields, r.info.space = .block := by decide
  simp [clusterField, hblock r hr]

theorem State.commitView_jobLeaveField (j : Nat) : (s.jobLeaveField j).commitView = s.commitView := State.commitView_setReg (by decide) _ _ _

theorem State.commitView_suspendJob (j : Nat) : (s.suspendJob j).commitView = s.commitView := by
  unfold State.suspendJob; dsimp only
  split
  · rfl
  · split
    · split
      · rfl
      · rw [State.commitView_setReg (by decide), State.commitView_setReg (by decide)]
        exact foldl_reads State.commitView State.freeCluster State.commitView_freeCluster _ s
    · rfl

theorem State.commitView_revokeOne (g : Leave) : (s.revokeOne g).commitView = s.commitView := by
  unfold State.revokeOne
  extract_lets _ s1 s2 s3
  have htrace : s3.commitView = s.commitView := by
    unfold s3 s2
    rw [State.commitView_trace, State.commitView_bump (by decide)]
    rfl
  split
  · rw [State.commitView_jobLeaveField, State.commitView_suspendJob, htrace]
  · exact htrace

theorem State.commitView_revokeUntil (allowed : Nat → Bool) (ok : State → Bool) (n : Nat) :
    (State.revokeUntil allowed ok n s).commitView = s.commitView := by
  induction n generalizing s with
  | zero => rfl
  | succ n ih =>
    unfold State.revokeUntil
    split
    · rfl
    · split
      · rw [ih, State.commitView_revokeOne]
      · rfl

/-! ### The snapshot and the reply -/

theorem State.commitView_snapshot : s.snapshot.commitView = s.commitView := State.commitView_bump (by decide) s 0 1

theorem State.commitView_coreOneDone (p : Packet) (status : Nat) (result : List Nat) :
    (s.coreOneDone p status result).commitView = s.commitView := rfl

theorem State.commitView_replyRaw (hs seq op tag status : Nat) (result : List Nat) :
    (s.replyRaw hs seq op tag status result).commitView = s.commitView := by
  unfold State.replyRaw
  extract_lets body s1 s2 s3
  have hcount : s3.commitView = s.commitView := by
    have hreplied : s2.commitView = s1.commitView := State.commitView_bump (by decide) s1 _ _
    unfold s3
    clear_value s2
    split
    · exact hreplied
    · rw [State.commitView_bump (by decide), hreplied]; rfl
  clear_value s3
  split
  · rw [State.commitView_setReg (by decide), hcount]
  · exact hcount

theorem State.commitView_replyNow (p : Packet) (status : Nat) (result : List Nat) :
    (s.replyNow p status result).commitView = s.commitView := by
  unfold State.replyNow
  extract_lets s1
  have hreplied : s1.commitView = s.commitView := (State.commitView_trace _ _ _ _).trans (State.commitView_replyRaw s _ _ _ _ _ _)
  clear_value s1
  exact hreplied

theorem State.commitView_reply (p : Packet) (st : Status) (result : List Nat) : (s.reply p st result).commitView = s.commitView := by
  unfold State.reply State.replyP
  split
  · rfl
  · exact State.commitView_replyNow s _ _ _

theorem State.commitView_commitReply (epoch tb : Nat) : (s.commitReply epoch tb).commitView = s.commitView := by
  unfold State.commitReply
  split
  · exact State.commitView_reply s _ _ _
  · rfl

end

/-! ### Cycle C -/

/-- Equal views read the same fields. -/
theorem State.agree_of_commitView {s t : State} (h : t.commitView = s.commitView) : AgreeOnCommit t.regs s.regs := fun _ hr i =>
  congrFun (List.map_inj_left.1 (show commitFields.map (fun r i => t.regs.get? (r, i)) = commitFields.map fun r i => s.regs.get? (r, i) from
    congrArg CommitView.fields h) _ hr) i

theorem State.remap_of_commitView {s t : State} (h : t.commitView = s.commitView) : t.ints.remap = s.ints.remap :=
  congrArg CommitView.remap h

theorem State.stagedTable_of_commitView {s t : State} (h : t.commitView = s.commitView) : t.cond.staged = s.cond.staged :=
  congrArg CommitView.stagedTable h

/-- The staged value of a field, else the value in force, is what a commit puts in force (R32). -/
theorem mergeCfg_get? (staged regs : RegMap) (k : Reg × Nat) : (mergeCfg staged regs).get? k = (staged.get? k).or (regs.get? k) := by
  unfold mergeCfg
  induction staged with
  | nil => rfl
  | cons e staged ih =>
    obtain ⟨q, v⟩ := e
    rw [List.foldr_cons, KMap.get?_put, ih]
    by_cases h : q = k <;> simp [KMap.get?, h]

/-- A commit's own effect: the staged writes, the staged channel table and the new epoch in force, and nothing left staged. -/
def State.commitBase (s : State) (epoch : Nat) : State :=
  { s with
    cfgOld := some (s.epoch, s.regs)
    regs := (mergeCfg s.staged s.regs).put (.CHIP_EPOCH_CURRENT, 0) (epoch % 2 ^ Reg.width .CHIP_EPOCH_CURRENT)
    staged := [], commit := .idle, cond := { s.cond with committed := s.cond.staged } }

/-- With no remap, cycle C shows its own effect in the view and nothing of the units' parts. -/
theorem State.commitView_commitAt {s : State} (h : s.ints.remap = none) (c epoch : Nat) :
    (s.commitAt c epoch).commitView = (s.commitBase epoch).commitView := by
  unfold State.commitAt
  rw [show s.recheckLoads = s by simp [State.recheckLoads, h]]
  extract_lets s0 before table until_ runs tb s1 s2 s3 touched s4 s5 s6 s7 s8 s9
  have hbase : { s2.commitView with table := s.cond.staged } = (s.commitBase epoch).commitView := by
    unfold s2
    rw [State.commitView_setReg (by decide)]
    rfl
  have hruns : s3.commitView = s2.commitView :=
    foldl_reads State.commitView _ (fun x u => State.commitView_runChange x before epoch u) runs s2
  have hcond : s4.commitView = (s.commitBase epoch).commitView := by
    have hnext : s3.cond.staged = s.cond.staged := (State.stagedTable_of_commitView hruns).trans rfl
    unfold s4 State.setReproKey
    rw [State.commitView_setReg (by decide), State.commitView_spbCommit, State.commitView_settleWindows, State.commitView_condCommit,
      hruns, hnext, hbase]
  have hslots : s7.commitView = (s.commitBase epoch).commitView := by
    unfold s7
    rw [State.commitView_refreshHeld]
    exact (foldl_reads State.commitView _ (fun x k => State.commitView_samplerCommit x before k) _ s5).trans
      ((foldl_reads State.commitView _ (fun x k => State.commitView_slotCommit x c epoch k) _ s4).trans hcond)
  have hremap : s8 = s7 := by
    have hnone : s7.ints.remap = none := (State.remap_of_commitView hslots).trans h
    unfold s8
    rw [hnone]
  unfold s9 State.revokeToFit
  rw [State.commitView_commitReply, State.commitView_snapshot, State.commitView_trace, State.commitView_revokeUntil, hremap, hslots]

/-- A field of the view after a commit: the staged value, else the value in force; the epoch is the new one. -/
theorem State.reg_of_commitBase {s t : State} {epoch : Nat} (h : t.commitView = (s.commitBase epoch).commitView) :
    t.epoch = epoch % 2 ^ 16 ∧
    ∀ r ∈ [Reg.VRD_DEFAULT_RESULT, .VRD_CTRL_PIN_WIDTH, .VRD_CTRL_INC_POLICY, .VRD_PORTS_MAP, .VRD_INGRESS_SLACK], ∀ i,
      t.reg r i = (s.staged.get? (r, i)).getD (s.reg r i) := by
  have hregs : AgreeOnCommit t.regs (s.commitBase epoch).regs := State.agree_of_commitView h
  constructor
  · have hepoch : t.regs.get? (.CHIP_EPOCH_CURRENT, 0) = some (epoch % 2 ^ 16) :=
      (hregs _ (by decide) 0).trans ((KMap.get?_put _ _ _ _).trans (if_pos rfl))
    unfold State.epoch State.reg State.regIn
    rw [hepoch]; rfl
  · intro r hr i
    have hfield : r ∈ commitFields := List.mem_cons_of_mem _ hr
    have hne : (Reg.CHIP_EPOCH_CURRENT, 0) ≠ (r, i) := fun e => absurd ((Prod.mk.inj e).1 ▸ hr) (by decide)
    have hval : t.resetVal r i = s.resetVal r i := by
      simp only [List.mem_cons, List.not_mem_nil, or_false] at hr
      rcases hr with rfl | rfl | rfl | rfl | rfl <;> rfl
    have hget : t.regs.get? (r, i) = (s.staged.get? (r, i)).or (s.regs.get? (r, i)) :=
      (hregs r hfield i).trans ((KMap.get?_put _ _ _ _).trans ((if_neg hne).trans (mergeCfg_get? _ _ _)))
    unfold State.reg State.regIn
    rw [hget, hval]
    cases s.staged.get? (r, i) <;> rfl

/-- No restore wrote in a cycle behind all that were noted. -/
theorem State.restoredIn_of_before {s : State} {c d : Nat} (h : ∀ y ∈ s.memS.restored, y.2 < c) (hd : c ≤ d) : s.restoredIn d = false := by
  unfold State.restoredIn
  refine List.any_eq_false.2 fun y hy => ?_
  have hlt := h y hy
  simp; omega

theorem State.replayOnRemap_of_none {s : State} (h : s.ints.remap = none) : s.replayOnRemap = false := by simp [State.replayOnRemap, h]

/-- A restore in the cycle moves C on (R36). -/
theorem commitCycle_of_restored {s : State} {c e : Nat} (hb : s.commit = .broadcast c e) (hc : c ≤ s.cycle)
    (hr : s.restoredIn s.cycle = true) : commitCycle s = { s with commit := .broadcast (s.cycle + 1) e } := by
  unfold commitCycle
  rw [hb]; dsimp only
  rw [if_neg (Nat.not_lt.2 hc), if_pos (by simp [hr])]

/-- Cycle C with no remap and no restore since it does what a commit does in C itself (R34). -/
theorem commitView_commitCycle {s : State} {c e : Nat} (hb : s.commit = .broadcast c e) (hc : c ≤ s.cycle)
    (hm : s.ints.remap = none) (hr : ∀ y ∈ s.memS.restored, y.2 < c) : (commitCycle s).commitView = (s.commitBase e).commitView := by
  have hat (n : Nat) : (List.range n).foldl (fun at_ _ => if s.restoredIn at_ then at_ + 1 else at_) c = c :=
    foldl_keeps (· = c) _ (fun at_ _ hat => by simp [hat, State.restoredIn_of_before hr (Nat.le_refl c)]) _ c rfl
  unfold commitCycle
  rw [hb]; dsimp only
  rw [if_neg (Nat.not_lt.2 hc), if_neg (by simp [State.replayOnRemap_of_none hm, State.restoredIn_of_before hr hc]), hat,
    ← State.commitView_commitAt hm c e]
  rfl

end Sys2Proof.Machine

/-! Register writes, mailboxes, snapshots and the commands of a commit (R5, R6, R21, R24, R25, R29, R32 to R37; O48). -/
namespace Sys2Proof.Machine
open Sys2Proof Sys2Proof.Safety

/-! ### Masked writes of a register word -/

/-- A state keeps all that it has itself. -/
theorem effect_self (s : State) : Effect s s = .next s := rfl

/-- The fields that a whole-register write takes act at once and are writable (R5, R6). -/
theorem acc_of_mem_wholeWrites {r : Reg} (h : r ∈ lctrlFields ++ masterFields ++ actCtlFields) : r.info.acc = .rw := by
  have hall : ∀ r ∈ lctrlFields ++ masterFields ++ actCtlFields, r.info.acc = .rw := by decide
  exact hall r h

theorem imm_of_mem_wholeWrites {r : Reg} (h : r ∈ masterFields ++ actCtlFields) : r.info.imm = true := by
  have hall : ∀ r ∈ masterFields ++ actCtlFields, r.info.imm = true := by decide
  exact hall r h

theorem State.writeReg_of_no_parts {a mask v : Nat} (s : State) (h : maskedPieces a mask v = []) : s.writeReg a mask v = s := by
  unfold State.writeReg
  rw [h]; rfl

/-- A write that falls on one field, which no whole-register write takes, is that field's. -/
theorem State.writeReg_of_one_part {a mask v : Nat} {x : WritePart} (s : State) (h : maskedPieces a mask v = [x])
    (hx : x.1.reg ∉ lctrlFields ++ masterFields ++ actCtlFields) : s.writeReg a mask v = s.writePart x := by
  simp only [List.mem_append, not_or] at hx
  obtain ⟨⟨hlane, hmaster⟩, haction⟩ := hx
  unfold State.writeReg
  rw [h]
  cases hacc : x.1.reg.info.acc <;> simp [wholeWrites, hlane, hmaster, haction, hacc]

/-- A staged field's write stages its new value (R6, R32). -/
theorem State.writePart_staged {s : State} {x : WritePart} (hacc : x.1.reg.info.acc = .rw) (himm : x.1.reg.info.imm = false) :
    s.writePart x = s.stageReg x.1.reg x.1.inst (pieceNew (s.stagedReg x.1.reg x.1.inst) x) := by
  have hbase : s.writeBase x.1.reg x.1.inst = s.stagedReg x.1.reg x.1.inst := by
    unfold State.writeBase
    split
    case h_5 => simp [himm]
    all_goals rename_i hr; rw [hr] at himm; exact absurd himm (by decide)
  unfold State.writePart; dsimp only
  rw [hacc, himm, hbase]
  rfl

/-- A read-only field ignores its write (R5). -/
theorem State.writePart_readOnly {s : State} {x : WritePart} (h : x.1.reg.info.acc = .ro ∨ x.1.reg.info.acc = .rs) : s.writePart x = s := by
  unfold State.writePart; dsimp only
  rcases h with h | h <;> rw [h]

/-- Which fields a mask covers does not depend on the value. -/
theorem maskRo_eq (a mask v : Nat) :
    maskRo a mask = (maskedPieces a mask v).any fun x => x.1.reg.info.acc == .ro || x.1.reg.info.acc == .rs := by
  simp [maskRo, maskedPieces, List.any_filter, List.any_map, Function.comp_def]

/-! ### REGISTER_WRITE -/

section
variable {s : State} {master a mask v : Nat}

theorem exec_registerWrite (hs : Awake s) :
    exec (.registerWrite a mask v master) s = Effect s (registerWrite s master a mask v) := awake_running hs _

theorem registerWrite_of_frozen (h : s.isFrozen master = true) : registerWrite s master a mask v = s := by simp [registerWrite, h]

theorem registerWrite_of_not_owned (h : s.isFrozen master = false) (ho : s.owned master (a / 8 * 8) = false) :
    registerWrite s master a mask v = s.freeze master (a / 8 * 8) (s.keptOf master) := by simp [registerWrite, h, ho]

theorem registerWrite_of_owned (h : s.isFrozen master = false) (ho : s.owned master (a / 8 * 8) = true) :
    registerWrite s master a mask v = (if maskRo (a / 8 * 8) mask then s.bump .HST_CNT_ACCESS_WRITE_RO else s).writeReg (a / 8 * 8)
      (s.unpoked (a / 8 * 8) mask) v := by simp [registerWrite, h, ho]

/-- A word in which no field stands is written without effect. -/
theorem registerWrite_of_no_field (h : s.isFrozen master = false) (ho : s.owned master (a / 8 * 8) = true)
    (hp : regPieces (a / 8 * 8) = []) : registerWrite s master a mask v = s := by
  have hnone (m v : Nat) : maskedPieces (a / 8 * 8) m v = [] := by simp [maskedPieces, hp]
  rw [registerWrite_of_owned h ho, State.writeReg_of_no_parts _ (hnone _ _), maskRo_eq _ _ v, hnone]
  rfl

/-- A write on one staged field stages it and does nothing else (R6, R32). -/
theorem registerWrite_staged {p : Piece} {mk vl : Nat} (h : s.isFrozen master = false) (ho : s.owned master (a / 8 * 8) = true)
    (hu : s.unpoked (a / 8 * 8) mask = mask) (hp : maskedPieces (a / 8 * 8) mask v = [(p, mk, vl)]) (hacc : p.reg.info.acc = .rw)
    (himm : p.reg.info.imm = false) (hlane : p.reg ∉ lctrlFields) :
    registerWrite s master a mask v = s.stageReg p.reg p.inst (pieceNew (s.stagedReg p.reg p.inst) (p, mk, vl)) := by
  have hwhole : p.reg ∉ lctrlFields ++ masterFields ++ actCtlFields := by
    rw [List.append_assoc, List.mem_append]
    rintro (hr | hr)
    · exact hlane hr
    · rw [imm_of_mem_wholeWrites hr] at himm; cases himm
  have hro : maskRo (a / 8 * 8) mask = false := by rw [maskRo_eq _ _ v, hp]; simp [hacc]
  rw [registerWrite_of_owned h ho, hro, hu, State.writeReg_of_one_part _ hp hwhole]
  exact State.writePart_staged hacc himm

/-- A write on one read-only field is counted only (R5). -/
theorem registerWrite_readOnly {p : Piece} {mk vl : Nat} (h : s.isFrozen master = false) (ho : s.owned master (a / 8 * 8) = true)
    (hu : s.unpoked (a / 8 * 8) mask = mask) (hp : maskedPieces (a / 8 * 8) mask v = [(p, mk, vl)])
    (hacc : p.reg.info.acc = .ro ∨ p.reg.info.acc = .rs) :
    registerWrite s master a mask v = s.bump .HST_CNT_ACCESS_WRITE_RO := by
  have hwhole : p.reg ∉ lctrlFields ++ masterFields ++ actCtlFields := fun hr => by
    rw [acc_of_mem_wholeWrites hr] at hacc; simp at hacc
  have hro : maskRo (a / 8 * 8) mask = true := by
    rw [maskRo_eq _ _ v, hp]
    rcases hacc with hacc | hacc <;> simp [hacc]
  rw [registerWrite_of_owned h ho, hro, hu, State.writeReg_of_one_part _ hp hwhole]
  exact State.writePart_readOnly hacc

end

/-! ### CHIP_SYSID, mailboxes and snapshots -/

/-- No peer port is in use (R21). -/
def State.sysidFree (s : State) : Prop := ∀ p < 16, s.reg .OPX_PCTRL_ROLE p = 1 → s.portSt p = 0 ∨ s.portSt p = 4

theorem State.sysidBusy_eq (s : State) : ((List.range 16).any fun p =>
    s.reg .OPX_PCTRL_ROLE p == 1 && s.portSt p != 0 && s.portSt p != 4) = true ↔ ¬ s.sysidFree := by
  simp [State.sysidFree, and_assoc]

theorem chipSysid_of_free {s : State} (h : s.sysidFree) (v : Nat) : chipSysid s v = s.setReg .CHIP_SYSID_ID 0 v :=
  if_neg fun hb => (State.sysidBusy_eq s).1 hb h

theorem chipSysid_of_busy {s : State} (h : ¬ s.sysidFree) (v : Nat) : chipSysid s v = s := if_pos ((State.sysidBusy_eq s).2 h)

/-- With no message, or frozen, a control core takes none (R24, R31). -/
theorem mailboxMessage_of_idle {s : State} {k : Nat} (h : (s.ctl.getD k {}).mbox = [] ∨ s.isFrozen k = true) : mailboxMessage s k = s := by
  unfold mailboxMessage; dsimp only
  rcases h with h | h
  · rw [h]
  · split
    · rfl
    · exact if_pos h

/-- A state in which a control core has taken its oldest message. -/
def State.mboxTaken (s : State) (k : Nat) (rest : List Nat) : State :=
  { s with ctl := s.ctl.put k { s.ctl.getD k {} with mbox := rest } }

theorem mailboxMessage_of_message {s : State} {k m : Nat} {rest : List Nat} (h : (s.ctl.getD k {}).mbox = m :: rest)
    (hf : s.isFrozen k = false) :
    mailboxMessage s k = if k == 1 then (s.mboxTaken k rest).messageOne m else (s.mboxTaken k rest).messageZero m := by
  unfold mailboxMessage; dsimp only
  rw [h]; dsimp only
  rw [if_neg (by simp [hf])]
  rfl

/-- A map over fields holds a field that is not among them nowhere. -/
theorem KMap.get?_map_of_ne {l : List (Reg × Nat)} {r : Reg} {i : Nat} (f : Reg × Nat → Nat) (h : ∀ e ∈ l, e.1 ≠ r) :
    KMap.get? (l.map fun p => (p, f p)) (r, i) = none := by
  induction l with
  | nil => rfl
  | cons e l ih =>
    rw [List.forall_mem_cons] at h
    have hne : e ≠ (r, i) := fun he => h.1 (congrArg Prod.fst he)
    simp [KMap.get?, hne, ih h.2]

/-- What a capture leaves (R37): the buffers flip, the count rises, and a field that is no view is captured as it is. -/
theorem State.snapshot_leaves (s : State) : s.snapshot.snapOther = s.snap ∧ Counted s s.snapshot .CHIP_SNAP_SEQ 0 1 ∧
    s.snapshot.snap.epoch = s.epoch ∧ SameBytes s s.snapshot ∧ (∀ r i, r ≠ .CHIP_SNAP_SEQ → s.snapshot.reg r i = s.reg r i) ∧
    (∀ r i, (∀ e ∈ viewFields, e.1 ≠ r) → s.snapshot.snapField r i = s.snapshot.reg r i) := by
  have hother (r : Reg) (i : Nat) (h : r ≠ .CHIP_SNAP_SEQ) : s.snapshot.reg r i = s.reg r i :=
    State.reg_bump_ne s _ _ _ _ _ fun e => h (Prod.mk.inj e).1.symm
  refine ⟨rfl, State.reg_bump s _ _ _, hother .CHIP_EPOCH_CURRENT 0 nofun, ⟨rfl, rfl, rfl⟩, hother, fun r i h => ?_⟩
  have hcaptured : s.snapshot.snap.vals.get? (r, i) = s.snapshot.regs.get? (r, i) := by
    show KMap.get? (State.captureRegs _) _ = _
    unfold State.captureRegs
    rw [KMap.get?_append, KMap.get?_map_of_ne _ h]
    rfl
  unfold State.snapField State.reg State.regIn
  rw [hcaptured]

theorem exec_snapshotTick {s : State} (hs : Awake s) : exec .snapshotTick s = .next (if s.cycle % 65536 = 0 then s.snapshot else s) := by
  show awake s (if s.cycle % 65536 == 0 then s.snapshot else s) = _
  by_cases h : s.cycle % 65536 = 0
  · simp only [h, beq_self_eq_true, if_true]
    exact awake_eq hs rfl rfl rfl rfl rfl
  · simp only [h, beq_iff_eq, if_false]
    exact awake_eq hs rfl rfl rfl rfl rfl

/-! ### From COMMIT to the broadcast -/

theorem State.epoch_of_commitView {s t : State} (h : t.commitView = s.commitView) : t.epoch = s.epoch := by
  unfold State.epoch State.reg State.regIn
  rw [State.agree_of_commitView h .CHIP_EPOCH_CURRENT (by decide) 0]
  rfl

/-- The COMMIT that heads the queue has been handed to control core 1, which is not frozen (R24, R336). -/
theorem State.ordPacket_commit {s : State} {hs : Nat} {p : Packet} (h : s.ordPacket hs 0x020 = some p) :
    s.isFrozen 1 = false ∧ p.opcode % 4096 = 0x020 := by
  unfold State.ordPacket at h
  split at h
  · rename_i hready
    constructor
    · simp [State.coreReadyFor, coreOneOpcode] at hready
      exact hready.2.2
    · unfold State.packetIn at h
      split at h
      · split at h
        · rename_i hop
          cases h
          simpa using hop
        · cases h
      · cases h
  · cases h

theorem exec_commit {s : State} {a : Nat} {p : Packet} (hs : Awake s) (h : s.ordPacket a 0x020 = some p) :
    exec (.commit a) s = Effect s (s.commitCmd p) := by
  show awake s (s.runOrd a 0x020 fun p s => s.commitCmd p) = _
  rw [awake_running hs, State.runOrd, h]

theorem State.confirmed_leaves (s : State) : s.confirmed.commit = s.commit ∧ s.confirmed.regs = s.regs ∧ s.confirmed.staged = s.staged := by
  unfold State.confirmed
  split <;> exact ⟨rfl, rfl, rfl⟩

/-- A commit that breaks no rule is prepared, and nothing staged takes effect (R33). -/
theorem State.prepare_of_no_breach {s : State} (h : s.commitBreach = none) (p : Packet) :
    (s.prepare p).commit = .prepared p.slot s.cycle s.commitRegions [] s.cycle ∧ (s.prepare p).regs = s.regs ∧
      (s.prepare p).staged = s.staged := by
  unfold State.prepare
  rw [h]; dsimp only
  split
  · exact State.confirmed_leaves _
  · exact ⟨rfl, rfl, rfl⟩

/-- A commit that breaks a rule ends with the breach as its outcome, told to control core 0 (R33, R340). -/
theorem State.prepare_of_breach {s : State} {b : Breach} (h : s.commitBreach = some b) {p : Packet} (hp : p.opcode % 4096 = 0x020) :
    s.prepare p = ({ s with commit := .idle } : State).coreOneDone p Status.commitRule.val (leBytes 8 b.addr ++ leBytes 2 b.status) := by
  unfold State.prepare
  rw [h]; dsimp only
  unfold State.reply State.replyP
  rw [hp]
  rfl

theorem State.coreOneDone_leaves (s : State) (p : Packet) (status : Nat) (result : List Nat) :
    let x := s.coreOneDone p status result
    x.commit = s.commit ∧ x.staged = s.staged ∧ x.regs = s.regs ∧
    (x.ctl.getD 0 {}).mbox = (s.ctl.getD 0 {}).mbox ++ [p.slot] ∧
    x.host.busy.get? p.slot = some { p with outcome := some (status, result) } := by
  refine ⟨rfl, rfl, rfl, ?_, (KMap.get?_put _ _ _ _).trans (if_pos rfl)⟩
  show CtlCore.mbox (KMap.getD (KMap.put s.ctl 0 _) 0 {}) = _
  rw [KMap.getD_put, if_pos rfl]
  rfl

/-- COMMIT is held while events of the older epoch are in flight (R35). -/
theorem State.commitCmd_of_undrained {s : State} (hidle : s.commit = .idle) (hf : s.isFrozen 1 = false) (h : s.cycle < s.oldUntil)
    (p : Packet) : s.commitCmd p = { s.started p with commit := .held p.slot } := by
  unfold State.commitCmd
  rw [if_neg (by simp [hidle, hf])]
  exact if_pos h

theorem State.commitCmd_of_drained {s : State} (hidle : s.commit = .idle) (hf : s.isFrozen 1 = false) (h : s.oldUntil ≤ s.cycle)
    (p : Packet) : s.commitCmd p = (s.started p).prepare p := by
  unfold State.commitCmd
  rw [if_neg (by simp [hidle, hf])]
  exact if_neg (Nat.not_lt.2 h)

/-- A held commit goes on when the events have drained (R35). -/
theorem heldCommit_of_drained {s : State} {slot : Nat} {p : Packet} (hheld : s.commit = .held slot)
    (hp : s.host.busy.get? slot = some p) (h : s.oldUntil ≤ s.cycle) (hf : s.isFrozen 1 = false) : heldCommit s = s.prepare p := by
  unfold heldCommit
  rw [hheld]; dsimp only
  rw [hp]; dsimp only
  exact if_pos (by simp [h, hf])

section
variable {s : State} {slot since : Nat} {rs done_ : List Nat} {last : Nat} (hprep : s.commit = .prepared slot since rs done_ last)
include hprep

/-- A region that must confirm, and leads no placement still unconfirmed, is added (R25, R33). -/
theorem confirm_leaves {r : Nat} (hr : r ∈ rs) (hnew : r ∉ done_) (hf : s.isFrozen (8 + r) = false) (hlead : s.leadReady r done_ = true)
    (hc : s.cycle ≤ since + 61200) :
    (confirm s r).commit = .prepared slot since rs (r :: done_) s.cycle ∧ (confirm s r).regs = s.regs ∧
      (confirm s r).staged = s.staged := by
  unfold confirm
  rw [hprep]; dsimp only
  rw [if_pos (by simp [hr, hnew, hf, hlead, confirmMax, hc])]
  split
  · exact State.confirmed_leaves _
  · exact ⟨rfl, rfl, rfl⟩

/-- A commit without all its confirmations ends with all that is staged kept (R33). -/
theorem commitAbort_leaves (hm : ∃ r ∈ rs, r ∉ done_) (hc : since + 58800 ≤ s.cycle) (hf : s.isFrozen 1 = false) :
    (commitAbort s).commit = .idle ∧ (commitAbort s).staged = s.staged ∧ (commitAbort s).epoch = s.epoch := by
  have hview : (commitAbort s).commitView = State.commitView { s with commit := .idle } := by
    unfold commitAbort
    rw [hprep]; dsimp only
    rw [if_pos (by simpa [confirmMin, hc, hf] using hm)]
    unfold State.abortCommit; dsimp only
    split
    · rw [State.commitView_reply]; rfl
    · rfl
  exact ⟨congrArg CommitView.commit hview, congrArg CommitView.staged hview, (State.epoch_of_commitView hview).trans rfl⟩

/-- Confirmed by all, a commit fixes cycle C and the next epoch (R33). -/
theorem commitBroadcast_of_confirmed (hall : ∀ r ∈ rs, r ∈ done_) (hf : s.isFrozen 1 = false)
    (ht : s.cond.dirty = true → s.unconverted = false) (hm : s.replayOnRemap = false) :
    commitBroadcast s = { s with
      commit := .broadcast (max (max (last + 4096) (s.cycle + 1)) (s.lastMark + 1)) (epochAfter s.epoch) } := by
  have htable : (s.cond.dirty && s.unconverted) = false := by
    by_cases hd : s.cond.dirty = true
    · simp [ht hd]
    · simp [hd]
  unfold commitBroadcast
  rw [hprep]; dsimp only
  rw [if_neg (by simpa [hf, hm, htable] using hall)]

end

/-- What cycle C puts in force (R34). -/
theorem exec_commitCycle_leads {s : State} {c e : Nat} (hs : Awake s) (hb : s.commit = .broadcast c e) (hc : c ≤ s.cycle)
    (hm : s.ints.remap = none) (hr : ∀ y ∈ s.memS.restored, y.2 < c) :
    Leads .commitCycle s fun x => x.commit = .idle ∧ x.epoch = e % 2 ^ 16 ∧ x.staged = [] ∧ x.cond.committed = s.cond.staged ∧
      (∃ m, x.cfgOld = some (s.epoch, m)) ∧
      (∀ r ∈ [Reg.VRD_DEFAULT_RESULT, .VRD_CTRL_PIN_WIDTH, .VRD_CTRL_INC_POLICY, .VRD_PORTS_MAP, .VRD_INGRESS_SLACK], ∀ i,
        x.reg r i = (s.staged.get? (r, i)).getD (s.reg r i)) := by
  have hexec : exec .commitCycle s = .next (s.keeping (commitCycle s)) := awake_running hs _
  have hview := commitView_commitCycle hb hc hm hr
  generalize commitCycle s = t at hexec hview
  have hkept : (s.keeping t).commitView = (s.commitBase e).commitView := hview
  generalize s.keeping t = x at hexec hkept
  obtain ⟨hepoch, hfields⟩ := State.reg_of_commitBase hkept
  obtain ⟨old, hold, hfst⟩ := Option.map_eq_some_iff.1 (congrArg CommitView.oldEpoch hkept)
  exact ⟨x, hexec, congrArg CommitView.commit hkept, hepoch, congrArg CommitView.staged hkept, congrArg CommitView.table hkept,
    ⟨old.2, hold.trans (congrArg some (Prod.ext hfst rfl))⟩, hfields⟩

/-! ### What a mailbox message brings about -/

section
variable {s : State} {m : Nat} {rest : List Nat} {p : Packet} (hs : Awake s)
include hs

/-- A message about no command in progress is taken, no more. -/
theorem exec_mailboxMessage_of_none (k : Fin 2) (h : (s.ctl.getD k.val {}).mbox = m :: rest) (hf : s.isFrozen k.val = false)
    (hb : s.host.busy.get? m = none) : exec (.mailboxMessage k) s = .next (s.mboxTaken k.val rest) := by
  have hexec : exec (.mailboxMessage k) s = Effect s (mailboxMessage s k.val) := awake_running hs _
  have htaken : (s.mboxTaken k.val rest).host.busy.get? m = none := hb
  rw [hexec, mailboxMessage_of_message h hf]
  unfold State.messageOne State.messageZero
  rw [htaken, ite_self]
  rfl

/-- Core 1 queues a loader command, and takes up any other (R24, R194, R336). -/
theorem exec_mailboxMessage_one (h : (s.ctl.getD 1 {}).mbox = m :: rest) (hf : s.isFrozen 1 = false)
    (hb : s.host.busy.get? m = some p) : exec (.mailboxMessage 1) s = .next { s.mboxTaken 1 rest with
      host := if loaderOpcode (p.opcode % 4096) then { s.host with loaderQ := s.host.loaderQ ++ [m] }
        else { s.host with handed := s.host.handed ++ [m] } } := by
  have hexec : exec (.mailboxMessage 1) s = Effect s (mailboxMessage s 1) := awake_running hs _
  have htaken : (s.mboxTaken 1 rest).host.busy.get? m = some p := hb
  rw [hexec, mailboxMessage_of_message h hf, if_pos (by decide)]
  unfold State.messageOne
  rw [htaken]; dsimp only
  split <;> rfl

/-- Core 0 writes the reply of a command that has come to its outcome (R24, R335). -/
theorem exec_mailboxMessage_zero {st : Nat} {res : List Nat} (h : (s.ctl.getD 0 {}).mbox = m :: rest) (hf : s.isFrozen 0 = false)
    (hb : s.host.busy.get? m = some p) (ho : p.outcome = some (st, res)) :
    exec (.mailboxMessage 0) s = Effect s ((s.mboxTaken 0 rest).replyNow p st res) := by
  have hexec : exec (.mailboxMessage 0) s = Effect s (mailboxMessage s 0) := awake_running hs _
  have htaken : (s.mboxTaken 0 rest).host.busy.get? m = some p := hb
  rw [hexec, mailboxMessage_of_message h hf, if_neg (by decide)]
  unfold State.messageZero
  rw [htaken]; dsimp only
  rw [ho]

end

/-- A commit's progress as a command's effect leaves it, with the registers and what is staged as they were. -/
theorem leads_of_commit_effect {c : Instr} {s t : State} {v : CommitPhase} (h : exec c s = Effect s t)
    (ht : t.commit = v ∧ t.regs = s.regs ∧ t.staged = s.staged) :
    Leads c s fun x => x.commit = v ∧ x.regs = s.regs ∧ x.staged = s.staged := ⟨_, h, ht⟩

/-- Settles O48, a clause a command: REGISTER_WRITE, CHIP_SYSID, MAILBOX_MESSAGE, SNAPSHOT_TICK, COMMIT, CONFIRM, COMMIT_ABORT,
COMMIT_BROADCAST, HELD_COMMIT and COMMIT_CYCLE. -/
theorem registerWritesWaitForTheirCommit : Obligations.RegisterWritesWaitForTheirCommit := by
  intro s master a mask v hs w
  refine ⟨fun h => ?_, fun h ho => ?_, fun h ho => ⟨?_, fun hp => ?_, fun p mk vl hu hp => ⟨fun hacc himm hlane => ?_, fun hacc => ?_⟩⟩,
    ⟨fun h => ?_, fun h => ?_⟩, fun k => ⟨fun h => ?_, fun m rest h hf => ⟨fun hb => ?_, fun p hb hk hl => ?_, fun p hb hk hl => ?_,
      fun p st res hb ho hk => ?_⟩⟩, ⟨fun h => ?_, fun h => ?_⟩, fun p hp hidle => ⟨fun h => ?_, fun h hok => ?_, fun h b hb => ?_⟩,
    fun slot since rs done_ last hprep => ⟨fun r hr hnew hf hlead hc => ?_, fun hm hc hf => ?_, fun hall hf ht hm => ?_⟩,
    fun slot p hheld hb h hf hok => ?_, fun c e hb hc hm => ⟨fun hr => ?_, fun hr => ?_⟩⟩
  · rw [exec_registerWrite hs, registerWrite_of_frozen h, effect_self]
  · rw [exec_registerWrite hs, registerWrite_of_not_owned h ho]
  · rw [exec_registerWrite hs, registerWrite_of_owned h ho]
  · rw [exec_registerWrite hs, registerWrite_of_no_field h ho hp, effect_self]
  · rw [exec_registerWrite hs, registerWrite_staged h ho hu hp hacc himm hlane]; rfl
  · rw [exec_registerWrite hs, registerWrite_readOnly h ho hu hp hacc]; rfl
  · exact (awake_running hs (chipSysid s v)).trans (by rw [chipSysid_of_free h]; rfl)
  · exact (awake_running hs (chipSysid s v)).trans (by rw [chipSysid_of_busy h]; rfl)
  · exact (awake_running hs (mailboxMessage s k.val)).trans (by rw [mailboxMessage_of_idle h]; rfl)
  · exact exec_mailboxMessage_of_none hs k h hf hb
  · subst hk
    rw [exec_mailboxMessage_one hs h hf hb, if_pos hl]; rfl
  · subst hk
    rw [exec_mailboxMessage_one hs h hf hb, if_neg (by simp [hl])]; rfl
  · subst hk
    exact exec_mailboxMessage_zero hs h hf hb ho
  · rw [exec_snapshotTick hs, if_neg h]
  · exact ⟨_, (exec_snapshotTick hs).trans (congrArg _ (if_pos h)), s.snapshot_leaves⟩
  · obtain ⟨hf, _⟩ := State.ordPacket_commit hp
    exact leads_of_commit_effect (t := { s.started p with commit := .held p.slot })
      ((exec_commit hs hp).trans (by rw [State.commitCmd_of_undrained hidle hf h p])) ⟨rfl, rfl, rfl⟩
  · obtain ⟨hf, _⟩ := State.ordPacket_commit hp
    exact leads_of_commit_effect ((exec_commit hs hp).trans (by rw [State.commitCmd_of_drained hidle hf h p]))
      (State.prepare_of_no_breach hok p)
  · obtain ⟨hf, hop⟩ := State.ordPacket_commit hp
    exact ⟨_, (exec_commit hs hp).trans (congrArg (Effect s)
      ((State.commitCmd_of_drained hidle hf h p).trans (State.prepare_of_breach hb hop))), State.coreOneDone_leaves _ p _ _⟩
  · exact leads_of_commit_effect (awake_running hs (confirm s r.val)) (confirm_leaves hprep hr hnew hf hlead hc)
  · exact ⟨_, awake_running hs (commitAbort s), commitAbort_leaves hprep hm hc hf⟩
  · exact (awake_running hs (commitBroadcast s)).trans (by rw [commitBroadcast_of_confirmed hprep hall hf ht hm]; rfl)
  · exact leads_of_commit_effect ((awake_running hs (heldCommit s)).trans (by rw [heldCommit_of_drained hheld hb h hf]))
      (State.prepare_of_no_breach hok p)
  · exact (awake_running hs (commitCycle s)).trans (by rw [commitCycle_of_restored hb hc hr]; rfl)
  · exact exec_commitCycle_leads hs hb hc hm hr

end Sys2Proof.Machine

/-! The output stage's activation, rounding and codes (R128 to R130; O27). -/
namespace Sys2Proof.Machine
open Sys2Proof Sys2Proof.Safety

/-- Rounding is done on the magnitude, and the sign put back (R129). -/
theorem roundDiv_eq_sign_mul (v : Int) {d : Nat} (hd : 0 < d) :
    roundDiv v d = v.sign * (((2 * v.natAbs + d) / (2 * d) : Nat) : Int) := by
  unfold roundDiv
  rcases Int.lt_trichotomy v 0 with hneg | rfl | hpos
  · rw [if_pos hneg, Int.sign_eq_neg_one_of_neg hneg, Int.neg_one_mul]
  · have hzero : d / (2 * d) = 0 := Nat.div_eq_of_lt (by omega)
    simp only [Int.natAbs_zero, Nat.mul_zero, Nat.zero_add, hzero, Int.sign_zero, Int.zero_mul, Int.natCast_zero, Int.lt_irrefl, if_false]
  · rw [if_neg (by omega), Int.sign_eq_one_of_pos hpos, Int.one_mul]

/-- A shift down divides by the power of two. -/
theorem roundShift_neg (v : Int) (n : Nat) : roundShift v (-(n : Int)) = roundDiv v (2 ^ n) := by
  rcases Nat.eq_zero_or_pos n with rfl | hn
  · have hone : (2 * v.natAbs + 1) / 2 = v.natAbs := by omega
    have hdiv : roundDiv v 1 = v := by rw [roundDiv_eq_sign_mul v Nat.one_pos, Nat.mul_one, hone, Int.sign_mul_natAbs]
    exact ((roundShift_up v 0).trans (Int.mul_one v)).trans hdiv.symm
  · unfold roundShift
    rw [if_neg (by omega), Int.neg_neg, Int.toNat_natCast]

/-- A shift down rounds |v| × 2^−n with a half added, and puts the sign back (R129). -/
theorem roundShift_neg_eq_sign_mul (v : Int) (n : Nat) :
    roundShift v (-(n : Int)) = v.sign * (((2 * v.natAbs + 2 ^ n) / 2 ^ (n + 1) : Nat) : Int) := by
  rw [roundShift_neg, roundDiv_eq_sign_mul v (Nat.two_pow_pos n), ← Nat.pow_succ']

/-- Zero stays zero at every shift. -/
@[simp] theorem roundShift_zero (t : Int) : roundShift 0 t = 0 := by
  unfold roundShift
  split
  · exact Int.zero_mul _
  · rw [roundDiv_eq_sign_mul 0 (Nat.two_pow_pos _), Int.sign_zero, Int.zero_mul]

/-- The fields of a pass and of its output block that decide a code, as block fields of a conditioner; the rest is zero. -/
def EldCfg.codeFields (c : EldCfg) (zo : Int) : BlockCfg :=
  { blockCfg (0, 0) with q4 := c.outFmt == 1, zp := zo, escEn := c.escEn }

@[simp] theorem EldCfg.codeFields_q4 (c : EldCfg) (zo : Int) : (c.codeFields zo).q4 = true ↔ c.outFmt = 1 := beq_iff_eq

@[simp] theorem EldCfg.codeFields_zp (c : EldCfg) (zo : Int) : (c.codeFields zo).zp = zo := rfl

@[simp] theorem EldCfg.codeFields_escEn (c : EldCfg) (zo : Int) : (c.codeFields zo).escEn = c.escEn := rfl

/-- The output stage decides a code as a conditioner does for a difference (R130, R147). -/
theorem roundCode_eq_diffCode (c : EldCfg) (zo q : Int) (used : Nat) :
    roundCode c zo q used = diffCode (c.codeFields zo) q used := rfl

/-! ### The activation (R128) -/

/-- Without RELU and table the value itself is rounded. -/
theorem State.activation_plain (s : State) (u : Nat) {c : EldCfg} (q t : Int) (hrelu : c.relu = false) (htable : c.tableEn = false) :
    s.activation u c q t = (roundShift q t, false, s) := by
  unfold State.activation
  rw [hrelu, htable]
  rfl

/-- With RELU a negative value counts as zero. -/
theorem State.activation_relu (s : State) (u : Nat) {c : EldCfg} (q t : Int) (hrelu : c.relu = true) :
    s.activation u c q t = (roundShift (max q 0) t, false, s) := by
  unfold State.activation
  rw [if_pos hrelu]
  by_cases hneg : q < 0
  · rw [if_pos hneg, Int.max_eq_right (Int.le_of_lt hneg), roundShift_zero]
  · rw [if_neg hneg, Int.max_eq_left (Int.not_lt.1 hneg)]

/-- With the table an entry's 256th is rounded, whatever the value itself. -/
theorem State.activation_table (s : State) (u : Nat) {c : EldCfg} (q t : Int) (hrelu : c.relu = false) (htable : c.tableEn = true) :
    let r := s.passRead u (c.table + 4 * (clampI 0 1023 (floorShift q (t + c.tableIn) + 512)).toNat) 4
    s.activation u c q t = (roundShift (sx 24 (leNat r.1)) (-8), r.2) := by
  intro r
  have hrounded : roundShift (sx 24 (leNat r.1)) (-8) = roundDiv (sx 24 (leNat r.1)) 256 := roundShift_neg _ 8
  rw [hrounded]
  unfold State.activation
  rw [hrelu, htable]
  rfl

/-- A block's one channel emits the code of its activation. -/
theorem State.blockOut_singleton (s : State) (u : Nat) (c : EldCfg) (base xo zo q : Int) (desc used : Nat) :
    let a := s.activation u c q (base + sx 8 (bits desc 16 8) - xo)
    s.blockOut u c base xo zo [(q, desc)] used = ([roundCode c zo a.1 used], a.2) := by
  intro a
  simp only [State.blockOut, Bool.or_false, a]

/-- Settles O27, from the cases of a code, rounding by magnitude and sign, and each kind of activation. -/
theorem outputCodesRoundClipOrEscape : Obligations.OutputCodesRoundClipOrEscape := by
  intro c zo q used top o
  obtain ⟨hwithin, hescaped, hclipped⟩ := diffCode_cases (c.codeFields zo) q used
  simp only [← roundCode_eq_diffCode, EldCfg.codeFields_q4, EldCfg.codeFields_zp, EldCfg.codeFields_escEn] at hwithin hescaped hclipped
  refine ⟨fun hlo hhi => ?_, fun hout hesc hused hq => ?_, fun hout hno => ?_,
    fun n => ⟨roundShift_up q n, roundShift_neg_eq_sign_mul q n⟩,
    fun s u t => ⟨s.activation_plain u q t, s.activation_relu u q t, s.activation_table u q t,
      fun base xo desc => s.blockOut_singleton u c base xo zo q desc used⟩⟩
  · rw [show o = _ from hwithin hlo hhi]
    exact ⟨rfl, rfl, rfl⟩
  · rw [show o = _ from hescaped hout hesc hused hq]
    exact ⟨rfl, rfl, rfl⟩
  · rw [show o = _ from hclipped hout hno]
    exact ⟨rfl, rfl, rfl⟩

end Sys2Proof.Machine

/-! The conditioners' table writes and records, and an accepted sequenced frame (R144, R154, R159, R162, R270, R287, R291; O29). -/
namespace Sys2Proof.Machine
open Sys2Proof Sys2Proof.Safety

variable {s : State}

/-! ### The channel table (R144, R159, R162) -/

/-- A table write reaches the addressed entry of the staged copy, and marks its block for restart at most once. -/
theorem awake_tblStore (hs : Awake s) {n : Nat} (hn : s.reg .CND_TBL_INDEX_INDEX = n) (f : ChanEntry → ChanEntry) (touch : Bool) :
    awake s (s.tblStore f touch) = .next { s with cond := { s.cond with
      staged := s.cond.staged.put n (f (s.cond.staged.getD n (0, 0))), dirty := true
      touched := if touch = true ∧ n / 64 ∉ s.cond.touched then s.cond.touched ++ [n / 64] else s.cond.touched } } := by
  refine (awake_eq (t := s.tblStore f touch) hs rfl rfl rfl rfl rfl).trans ?_
  simp [State.tblStore, tblEntry, hn]

theorem exec_cndTblLo (hs : Awake s) (v : Nat) :
    let n := s.reg .CND_TBL_INDEX_INDEX
    exec (.cndTblLo v) s = .next { s with cond := { s.cond with
      staged := s.cond.staged.put n (v % 2 ^ 56, (s.cond.staged.getD n (0, 0)).2), dirty := true } } :=
  awake_tblStore hs rfl _ false

theorem exec_cndTblHi (hs : Awake s) (v : Nat) :
    let n := s.reg .CND_TBL_INDEX_INDEX
    exec (.cndTblHi v) s = .next { s with cond := { s.cond with
      staged := s.cond.staged.put n ((s.cond.staged.getD n (0, 0)).1, if n % 64 = 0 then v % 2 ^ 41 else 0), dirty := true
      touched := if n % 64 = 0 ∧ n / 64 ∉ s.cond.touched then s.cond.touched ++ [n / 64] else s.cond.touched } } := by
  intro n
  refine (awake_tblStore hs rfl _ _).trans ?_
  simp [n]

/-! ### Taking a sequenced frame (R286, R291) -/

section
variable {β : Type} (g : State → β) (h : ∀ (x : State) o l, g { x with opx := o, out := l } = g x)
include h

/-- A port replaced touches the ports. -/
theorem State.setPort_keeps (s : State) (p : Nat) (x : OpxPort) : g (s.setPort p x) = g s := h s _ s.out

/-- A frame that leaves touches its port's lanes and the output. -/
theorem State.putFrame_keeps (s : State) (p ftype seq : Nat) (payload : List Nat) (cyc : Nat) (fs : Bool) :
    g (s.putFrame p ftype seq payload cyc fs) = g s := by
  unfold State.putFrame; dsimp only
  split <;> exact h s _ _

/-- An unsequenced frame touches its port's lanes and the output at most. -/
theorem State.sendPlain_keeps (s : State) (p ftype : Nat) (payload : List Nat) : g (s.sendPlain p ftype payload) = g s := by
  unfold State.sendPlain
  split
  · exact State.putFrame_keeps g h s _ _ _ _ _ _
  · rfl

/-- An ACK touches its port and the output (R291). -/
theorem State.sendAck_keeps (s : State) (p : Nat) : g (s.sendAck p) = g s :=
  (State.sendPlain_keeps g h _ _ _ _).trans (State.setPort_keeps g h s p _)

/-- Accepting a frame touches its port and, with an ACK, the output (R291). -/
theorem State.acceptSeq_keeps (s : State) (p : Nat) (express : Bool) (next : Nat) : g (s.acceptSeq p express next) = g s := by
  have hack (x : State) (hx : g x = g s) : g (if 4 ≤ (x.port p).unacked then x.sendAck p else x) = g s := by
    split
    · exact (State.sendAck_keeps g h x p).trans hx
    · exact hx
  exact hack _ (State.setPort_keeps g h s p _)

end

/-- A good sequenced frame that is the next of its stream, of a type the port's role takes, is accepted and handled; a port of
role 1 besides judges its partner's system. -/
theorem State.receiveFrame_accepts {p ftype : Nat} {f : Frame} (hup : s.portUp p = true)
    (hskip : portSkips (s.port p) (expressType ftype) = false ∨ f.fs = true) (hgood : frameGood ftype f = true)
    (hsequenced : sequenced ftype = true) (hnext : s.seqNext p ftype f = true)
    (hrole : roleAccepts (s.reg .OPX_PCTRL_ROLE p) ftype = true) (hself : s.reg .OPX_PCTRL_ROLE p ≠ 1) (handle : State → State) :
    s.receiveFrame p ftype f handle = handle ((s.setSkip p (expressType ftype) false).acceptSeq p (expressType ftype)
      ((if expressType ftype then payloadSeq f else f.seq) + 1)) := by
  have htaken : ¬ (!s.portUp p || (portSkips (s.port p) (expressType ftype) && !f.fs)) = true := by
    rcases hskip with h | h <;> simp [hup, h]
  have hkept (n : Nat) : ((s.setSkip p (expressType ftype) false).acceptSeq p (expressType ftype) n).reg .OPX_PCTRL_ROLE p =
      s.reg .OPX_PCTRL_ROLE p :=
    (State.acceptSeq_keeps (·.reg .OPX_PCTRL_ROLE p) (fun _ _ _ => rfl) _ _ _ _).trans
      (State.setPort_keeps (·.reg .OPX_PCTRL_ROLE p) (fun _ _ _ => rfl) _ _ _)
  unfold State.receiveFrame
  rw [if_neg htaken]
  simp [hgood, hsequenced, hnext, hkept, hrole, hself]

/-- A good in-order SENSOR frame of whole blocks within the table has them converted in order (R287). -/
theorem sensor_converts {p num b n : Nat} {f : Frame} (hnum : bits (leAt f.payload 0 8) 0 32 = num)
    (hb : bits (leAt f.payload 0 8) 32 10 = b) (hn : bits (leAt f.payload 0 8) 42 3 = n)
    (hreserved : bits (leAt f.payload 0 8) 45 19 = 0) (hlen : f.len = 1 + 16 * n) (hone : 1 ≤ n) (hwithin : b + n ≤ 1024)
    (hup : s.portUp p = true) (hskip : (s.port p).skipN = false ∨ f.fs = true) (hrole : s.reg .OPX_PCTRL_ROLE p = 0)
    (hgood : frameGood 1 f = true) (hseq : f.seq % 64 = (s.port p).rxN) :
    sensor s p f = (List.range n).foldl
      (fun x k => x.sensorBlock num (b + k) ((List.range 64).map fun e => leAt f.payload (8 + 128 * k + 2 * e) 2))
      ((s.setSkip p false false).acceptSeq p false (f.seq + 1)) := by
  have hnext : s.seqNext p 1 f = true := beq_iff_eq.2 hseq
  have hblocks : ¬ (n == 0 || decide (1023 < b + n - 1)) = true := by
    simp only [Bool.or_eq_true, beq_iff_eq, decide_eq_true_eq]; omega
  unfold sensor
  rw [State.receiveFrame_accepts (ftype := 1) hup hskip hgood (by decide) hnext (by rw [hrole]; decide) (by rw [hrole]; decide)]
  simp only [hnum, hb, hn]
  rw [if_neg (by simp [hreserved]), if_neg (fun hne => hne hlen), if_neg hblocks]
  rfl

/-! ### Writing the stack (R260, R270, R272) -/

/-- Traffic touches its class's count and credit. -/
theorem State.traffic_keeps {β : Type} (g : State → β) (h : ∀ (x : State) m k, g { x with regs := m, memS := k } = g x) (s : State)
    (cls n : Nat) : g (s.traffic cls n) = g s := by
  unfold State.traffic; dsimp only
  split
  · exact h s _ s.memS
  · exact h s _ _

/-- A stack write stores its bytes; besides it touches the frames' cache, the words' marks, and the class's count and credit. -/
theorem State.stackWrite_keeps {β : Type} (g : State → β)
    (h : ∀ (x : State) hst q e c m k, g { x with host := hst, poison := q, ue := e, ce := c, regs := m, memS := k } = g x)
    (s : State) (a : Nat) (bs : List Nat) (cls : Nat) : g (s.stackWrite a bs cls) = g (s.wr a bs) :=
  (State.traffic_keeps g (fun x m k => h x x.host x.poison x.ue x.ce m k) _ _ _).trans (h (s.wr a bs) _ _ _ _ s.regs s.memS)

section
variable (s : State) (a : Nat) (bs : List Nat) (cls : Nat)

@[simp] theorem State.stackWrite_mem : (s.stackWrite a bs cls).mem = cellsWrite s.mem a bs :=
  State.stackWrite_keeps State.mem (fun _ _ _ _ _ _ _ => rfl) s a bs cls

@[simp] theorem State.stackWrite_cond : (s.stackWrite a bs cls).cond = s.cond :=
  State.stackWrite_keeps State.cond (fun _ _ _ _ _ _ _ => rfl) s a bs cls

@[simp] theorem State.stackWrite_cores : (s.stackWrite a bs cls).cores = s.cores :=
  State.stackWrite_keeps State.cores (fun _ _ _ _ _ _ _ => rfl) s a bs cls

@[simp] theorem State.stackWrite_win : (s.stackWrite a bs cls).win = s.win :=
  State.stackWrite_keeps State.win (fun _ _ _ _ _ _ _ => rfl) s a bs cls

end

/-- In its turn the oldest record leaves the queue for its block's place, and its losses are reported (R154). -/
theorem blockRecordWrite_of_turn {r : WinRecord} {rest : List WinRecord} (hq : s.cond.queue = r :: rest)
    (hbase : s.reg .CND_STAT_BASE_ADDR ≠ 0) (hturn : s.memTurn 6 = true) :
    let taken : State := { s with cond := { s.cond with queue := rest } }
    blockRecordWrite s = (taken.setWin r.block { taken.blkWin r.block with lost := 0 }).stackWrite
      (s.reg .CND_STAT_BASE_ADDR + 2176 * r.block + 1088 * (r.window % 2)) (r.header ++ r.chans) 6 := by
  unfold blockRecordWrite
  rw [hq]
  dsimp only
  rw [if_neg (by simpa using hbase), if_neg (by simp [hturn])]

/-- In its turn the oldest record leaves the queue, and its bytes alone are stored (R154). -/
theorem blockRecordWrite_leaves {r : WinRecord} {rest : List WinRecord} (hq : s.cond.queue = r :: rest)
    (hbase : s.reg .CND_STAT_BASE_ADDR ≠ 0) (hturn : s.memTurn 6 = true) :
    (blockRecordWrite s).cond.queue = rest ∧ (blockRecordWrite s).mem = cellsWrite s.mem
      (s.reg .CND_STAT_BASE_ADDR + 2176 * r.block + 1088 * (r.window % 2)) (r.header ++ r.chans) ∧
    (blockRecordWrite s).cores = s.cores ∧ (blockRecordWrite s).win = s.win := by
  rw [blockRecordWrite_of_turn hq hbase hturn]
  simp only [State.stackWrite_cond, State.stackWrite_mem, State.stackWrite_cores, State.stackWrite_win]
  exact ⟨rfl, rfl, rfl, rfl⟩

/-- Settles O29: the table's store, the frame accepted and converted, and the record's write to the stack. -/
theorem channelTableAndSensorFramesTakeEffect : Obligations.ChannelTableAndSensorFramesTakeEffect := by
  intro s hs
  refine ⟨fun v => ⟨exec_cndTblLo hs v, exec_cndTblHi hs v⟩, ?_, ?_⟩
  · intro p f num b n hup hskip hrole hgood hseq hreserved hlen hone hwithin
    exact (awake_running hs (sensor s p.val f)).trans
      (by rw [sensor_converts rfl rfl rfl hreserved hlen hone hwithin hup hskip hrole hgood hseq])
  · intro r rest hq hbase hturn hok at_ bs
    obtain ⟨hqueue, hmem, hcores, hwin⟩ := blockRecordWrite_leaves hq hbase hturn
    have hcell (q : Nat) : cellGet (blockRecordWrite s).mem q =
        if at_ ≤ q ∧ q < at_ + bs.length then BitVec.ofNat 8 (bs.getD (q - at_) 0) else cellGet s.mem q := by
      rw [hmem]
      exact cellGet_cellsWrite bs hok.1
    refine ⟨_, awake_running hs (blockRecordWrite s), hqueue, fun j hj => (hcell _).trans ?_,
      fun q hq => (hcell q).trans (if_neg (by omega)), hcores, hwin⟩
    rw [if_pos ⟨by omega, by omega⟩, Nat.add_sub_cancel_left]

end Sys2Proof.Machine
